-- ==== Sys2Proof/Word.lean ====
section
/-! DEFINITION. The word types and their plainest arithmetic (spec/02 R44, spec/00 R3). -/

namespace Sys2Proof

/-- A 32-bit lane value. -/
abbrev Word := BitVec 32
/-- A 64-bit pair value. -/
abbrev DWord := BitVec 64
/-- One byte of memory. -/
abbrev Byte := BitVec 8

/-- The low word of a pair (R16: the even register). -/
def DWord.lo (x : DWord) : Word := x.truncate 32
/-- The high word of a pair (R16: the odd register). -/
def DWord.hi (x : DWord) : Word := (x >>> 32).truncate 32
/-- A pair from its high and low word. -/
def DWord.mk (hi lo : Word) : DWord := hi ++ lo

end Sys2Proof
end

