-- ==== Sys2Proof/Machine/Fp.lean ====
section
/-! DEFINITION. FP32, BF16, E4M3 and integer-conversion arithmetic (spec/02): every operand becomes an exact number, the
operation is exact, and one rounding makes the result. The transcendental functions are enclosed in intervals that are
refined until both ends round alike (R49). -/

namespace Sys2Proof.Machine

/-- Rounding modes (R46). -/
inductive Rm where
  | rne | rtz | rup | rdn
  deriving DecidableEq, Repr

/-- The sticky flags one lane's operation raises (R48). -/
structure Fl where
  nx : Bool := false
  uf : Bool := false
  ovf : Bool := false
  dz : Bool := false
  nv : Bool := false
  deriving DecidableEq, Repr

/-- The union of two flag sets. -/
def Fl.or (a b : Fl) : Fl := ⟨a.nx || b.nx, a.uf || b.uf, a.ovf || b.ovf, a.dz || b.dz, a.nv || b.nv⟩

/-- Whether any flag is set. -/
def Fl.any (a : Fl) : Bool := a.nx || a.uf || a.ovf || a.dz || a.nv

/-- The flag set that holds NV alone. -/
def flNV : Fl := { nv := true }

/-- An FP32 operand as a number: fin neg m e is (-1)^neg · m · 2^e. -/
inductive Fp where
  | nan (signalling : Bool)
  | inf (neg : Bool)
  | fin (neg : Bool) (m : Nat) (e : Int)
  deriving DecidableEq, Repr

/-- The number an FP32 encoding stands for (R45). -/
def unpack (w : Word) : Fp :=
  let neg := w.getLsbD 31
  let ex := (w.extractLsb' 23 8).toNat
  let fr := (w.extractLsb' 0 23).toNat
  if ex = 255 then (if fr = 0 then .inf neg else .nan (!w.getLsbD 22))
  else if ex = 0 then .fin neg fr (-149)
  else .fin neg (fr + 2 ^ 23) ((ex : Int) - 150)

/-- The canonical NaN (R47). -/
def canonNaN : Word := 0x7FC00000
/-- A zero of a sign. -/
def zeroOf (neg : Bool) : Word := if neg then 0x80000000 else 0
/-- An infinity of a sign. -/
def infOf (neg : Bool) : Word := if neg then 0xFF800000 else 0x7F800000
/-- The largest finite magnitude of a sign. -/
def maxOf (neg : Bool) : Word := if neg then 0xFF7FFFFF else 0x7F7FFFFF

def isNaN (w : Word) : Bool := match unpack w with | .nan _ => true | _ => false
def isSNaN (w : Word) : Bool := match unpack w with | .nan s => s | _ => false

/-- Whether a magnitude n + rem/den between n and n + 1 rounds up (R46). -/
def roundsUp (rm : Rm) (neg : Bool) (n rem den : Nat) : Bool :=
  match rm with
  | .rne => decide (2 * rem > den) || (decide (2 * rem = den) && decide (n % 2 = 1))
  | .rtz => false
  | .rup => !neg && decide (rem ≠ 0)
  | .rdn => neg && decide (rem ≠ 0)

/-- num/den rounded to an integer, and whether that changed it. -/
def roundInt (rm : Rm) (neg : Bool) (num den : Nat) : Nat × Bool :=
  let n := num / den
  let rem := num % den
  (if roundsUp rm neg n rem den then n + 1 else n, decide (rem ≠ 0))

/-- 2^k for an integer k as a pair numerator, denominator. -/
def pow2Pair (k : Int) : Nat × Nat := if 0 ≤ k then (2 ^ k.toNat, 1) else (1, 2 ^ (-k).toNat)

/-- The exponent k with 2^k ≤ num/den < 2^(k+1), for num and den positive. -/
def log2Rat (num den : Nat) : Int :=
  let k : Int := (Nat.log2 num : Int) - (Nat.log2 den : Int)
  let (a, b) := pow2Pair k
  if num * b ≥ den * a then k else k - 1

/-- A magnitude rounded to a format of prec significant bits whose least unit is 2^qmin: it is n · 2^q. -/
structure Rounded where
  n : Nat
  q : Int
  inexact : Bool
  tiny : Bool
  deriving DecidableEq, Repr

/-- num/den · 2^e rounded to prec bits, no unit below 2^qmin; tiny as R48 states it: rounded with an unbounded exponent,
it is nonzero and below the smallest normal 2^(qmin + prec - 1). -/
def roundMag (prec : Nat) (qmin : Int) (rm : Rm) (neg : Bool) (num den : Nat) (e : Int) : Rounded :=
  if num = 0 then ⟨0, qmin, false, false⟩ else
  let k := log2Rat num den + e
  let q0 := k - (prec - 1 : Nat)
  let at_ (q : Int) : Nat × Bool :=
    let (a, b) := pow2Pair (e - q)
    roundInt rm neg (num * a) (den * b)
  let q := if q0 < qmin then qmin else q0
  let (n, ix) := at_ q
  let emin := qmin + (prec - 1 : Nat)
  let tiny := if k ≥ emin then false else
    !(decide (k = emin - 1) && decide ((at_ q0).1 = 2 ^ prec))
  if n = 2 ^ prec then ⟨2 ^ (prec - 1), q + 1, ix, tiny⟩ else ⟨n, q, ix, tiny⟩

/-- What a magnitude too large for FP32 becomes (R46). -/
def overflowTo (rm : Rm) (neg : Bool) : Word :=
  match rm with
  | .rne => infOf neg
  | .rtz => maxOf neg
  | .rup => if neg then maxOf true else infOf false
  | .rdn => if neg then infOf true else maxOf false

/-- (-1)^neg · num/den · 2^e rounded to FP32 (R46, R48). -/
def roundFp (rm : Rm) (neg : Bool) (num den : Nat) (e : Int) : Word × Fl :=
  let r := roundMag 24 (-149) rm neg num den e
  if r.q > 104 then (overflowTo rm neg, { nx := true, ovf := true })
  else
    let bits := if r.n < 2 ^ 23 then r.n else (r.q + 150).toNat * 2 ^ 23 + (r.n - 2 ^ 23)
    (BitVec.ofNat 32 ((if neg then 2 ^ 31 else 0) + bits), { nx := r.inexact, uf := r.inexact && r.tiny })

/-- A signed number z · 2^e rounded to FP32; an exact zero takes the given sign. -/
def roundSigned (rm : Rm) (z : Int) (e : Int) (zeroNeg : Bool) : Word × Fl :=
  if z = 0 then (zeroOf zeroNeg, {}) else roundFp rm (decide (z < 0)) z.natAbs 1 e

def signed (neg : Bool) (m : Nat) : Int := if neg then -(m : Int) else m

/-- The sign of an exact zero sum (R46). -/
def sumZeroNeg (rm : Rm) (na nb : Bool) : Bool := if na = nb then na else decide (rm = .rdn)

/-- z₁·2^e₁ + z₂·2^e₂ as one number. -/
def addExact (z₁ : Int) (e₁ : Int) (z₂ : Int) (e₂ : Int) : Int × Int :=
  let e := min e₁ e₂
  (z₁ * 2 ^ (e₁ - e).toNat + z₂ * 2 ^ (e₂ - e).toNat, e)

/-- a · b + d with one rounding (R105): infinity times zero is invalid even beside a quiet NaN. -/
def fpFma (rm : Rm) (a b d : Word) : Word × Fl :=
  let sn : Fl := { nv := isSNaN a || isSNaN b || isSNaN d }
  let infZero := match unpack a, unpack b with
    | .inf _, .fin _ m _ => decide (m = 0)
    | .fin _ m _, .inf _ => decide (m = 0)
    | _, _ => false
  if infZero then (canonNaN, flNV) else
  match unpack a, unpack b, unpack d with
  | .nan _, _, _ => (canonNaN, sn)
  | _, .nan _, _ => (canonNaN, sn)
  | _, _, .nan _ => (canonNaN, sn)
  | .fin na ma ea, .fin nb mb eb, .fin nd md ed =>
    let np := na != nb
    let (z, e) := addExact (signed np (ma * mb)) (ea + eb) (signed nd md) ed
    roundSigned rm z e (sumZeroNeg rm np nd)
  | .fin .., .fin .., .inf nd => (infOf nd, {})
  | a', b', d' =>
    let neg : Fp → Bool := fun x => match x with | .inf n => n | .fin n _ _ => n | .nan _ => false
    let np := neg a' != neg b'
    match d' with
    | .inf nd => if nd = np then (infOf np, {}) else (canonNaN, flNV)
    | _ => (infOf np, {})

/-- a + b (R105). -/
def fpAdd (rm : Rm) (a b : Word) : Word × Fl :=
  let sn : Fl := { nv := isSNaN a || isSNaN b }
  match unpack a, unpack b with
  | .nan _, _ => (canonNaN, sn)
  | _, .nan _ => (canonNaN, sn)
  | .inf na, .inf nb => if na = nb then (infOf na, {}) else (canonNaN, flNV)
  | .inf na, _ => (infOf na, {})
  | _, .inf nb => (infOf nb, {})
  | .fin na ma ea, .fin nb mb eb =>
    let (z, e) := addExact (signed na ma) ea (signed nb mb) eb
    roundSigned rm z e (sumZeroNeg rm na nb)

/-- A word with bit 31 inverted (FNEG, R105). -/
def fpNeg (a : Word) : Word := a ^^^ 0x80000000
/-- A word with bit 31 cleared (FABS, R105). -/
def fpAbs (a : Word) : Word := a &&& 0x7FFFFFFF

/-- a - b (R105). -/
def fpSub (rm : Rm) (a b : Word) : Word × Fl := fpAdd rm a (fpNeg b)

/-- a · b (R105). -/
def fpMul (rm : Rm) (a b : Word) : Word × Fl :=
  let sn : Fl := { nv := isSNaN a || isSNaN b }
  match unpack a, unpack b with
  | .nan _, _ => (canonNaN, sn)
  | _, .nan _ => (canonNaN, sn)
  | .inf na, .inf nb => (infOf (na != nb), {})
  | .inf na, .fin nb m _ => if m = 0 then (canonNaN, flNV) else (infOf (na != nb), {})
  | .fin na m _, .inf nb => if m = 0 then (canonNaN, flNV) else (infOf (na != nb), {})
  | .fin na ma ea, .fin nb mb eb =>
    if ma * mb = 0 then (zeroOf (na != nb), {}) else roundFp rm (na != nb) (ma * mb) 1 (ea + eb)

/-- a / b, the exact quotient rounded once (used by the quantisations and penalties, R59, R68). -/
def fpDiv (rm : Rm) (a b : Word) : Word × Fl :=
  let sn : Fl := { nv := isSNaN a || isSNaN b }
  match unpack a, unpack b with
  | .nan _, _ => (canonNaN, sn)
  | _, .nan _ => (canonNaN, sn)
  | .inf _, .inf _ => (canonNaN, flNV)
  | .inf na, .fin nb _ _ => (infOf (na != nb), {})
  | .fin na _ _, .inf nb => (zeroOf (na != nb), {})
  | .fin na ma ea, .fin nb mb eb =>
    if mb = 0 then (if ma = 0 then (canonNaN, flNV) else (infOf (na != nb), { dz := true }))
    else if ma = 0 then (zeroOf (na != nb), {}) else roundFp rm (na != nb) ma mb (ea - eb)

/-- The number order of two non-NaN operands as a signed key: -0 below +0 (R106). -/
def orderKey (a : Word) : Int := if a.getLsbD 31 then -((fpAbs a).toNat : Int) - 1 else (fpAbs a).toNat

/-- FMIN (isMax false) and FMAX (R106). -/
def fpMinMax (isMax : Bool) (a b : Word) : Word × Fl :=
  let sn : Fl := { nv := isSNaN a || isSNaN b }
  if isNaN a && isNaN b then (canonNaN, sn)
  else if isNaN a then (b, sn)
  else if isNaN b then (a, sn)
  else
    let aLess := decide (orderKey a < orderKey b)
    (if isMax then (if aLess then b else a) else (if aLess then a else b), {})

/-- FCLASS (R107). -/
def fpClass (a : Word) : Word :=
  match unpack a with
  | .nan true => 0x100
  | .nan false => 0x200
  | .inf true => 0x001
  | .inf false => 0x080
  | .fin neg m _ =>
    if m = 0 then (if neg then 0x008 else 0x010)
    else if m < 2 ^ 23 then (if neg then 0x004 else 0x020)
    else (if neg then 0x002 else 0x040)

/-- FRND: an integral FP32 value in the effective mode, the sign of zero kept (R105). -/
def fpRnd (rm : Rm) (a : Word) : Word × Fl :=
  match unpack a with
  | .nan s => (canonNaN, { nv := s })
  | .inf _ => (a, {})
  | .fin neg m e =>
    if e ≥ 0 then (a, {}) else
    let (n, ix) := roundInt rm neg m (2 ^ (-e).toNat)
    if n = 0 then (zeroOf neg, { nx := ix }) else ((roundFp rm neg n 1 0).1, { nx := ix })

/-- FSCALE: a · 2^n rounded once (R105); beyond 1000 binary orders every finite operand has left the range alike. -/
def fpScale (rm : Rm) (a n : Word) : Word × Fl :=
  match unpack a with
  | .nan s => (canonNaN, { nv := s })
  | .inf _ => (a, {})
  | .fin neg m e =>
    if m = 0 then (a, {}) else
    let k := max (-1000) (min 1000 n.toInt)
    roundFp rm neg m 1 (e + k)

/-- FP conditions of R86 (FCMP, R108): the truth and the flags. -/
def fpCond (c : Nat) (a b : Word) : Bool × Fl :=
  let un := isNaN a || isNaN b
  let sn : Fl := { nv := isSNaN a || isSNaN b }
  let anyN : Fl := { nv := un }
  let ka := if fpAbs a = 0 then 0 else orderKey a
  let kb := if fpAbs b = 0 then 0 else orderKey b
  let ka' := if a.getLsbD 31 && fpAbs a ≠ 0 then ka + 1 else ka
  let kb' := if b.getLsbD 31 && fpAbs b ≠ 0 then kb + 1 else kb
  match c with
  | 0 => (!un && decide (ka' = kb'), sn)
  | 1 => (un || decide (ka' ≠ kb'), sn)
  | 2 => (!un && decide (ka' < kb'), anyN)
  | 3 => (!un && decide (ka' ≤ kb'), anyN)
  | 4 => (!un && decide (ka' > kb'), anyN)
  | 5 => (!un && decide (ka' ≥ kb'), anyN)
  | 6 => (un, sn)
  | _ => (!un, sn)

/-! ## Square roots -/

/-- The bits of the integer square root of n, from bit i down. -/
def isqrtFrom (n : Nat) : Nat → Nat → Nat
  | 0, r => r
  | i + 1, r => isqrtFrom n i (if (r + 2 ^ i) * (r + 2 ^ i) ≤ n then r + 2 ^ i else r)

/-- The integer square root of n. -/
def isqrt (n : Nat) : Nat := isqrtFrom n (Nat.log2 n / 2 + 1) 0

/-- s, exact or just above (s < value < s + 1), as a numerator over 2 that rounds as the value does. -/
def stickyNum (s : Nat) (exact : Bool) : Nat := 2 * s + (if exact then 0 else 1)

/-- FSQRT (R49): exact value rounded once. -/
def fpSqrt (rm : Rm) (a : Word) : Word × Fl :=
  match unpack a with
  | .nan s => (canonNaN, { nv := s })
  | .inf neg => if neg then (canonNaN, flNV) else (infOf false, {})
  | .fin neg m e =>
    if m = 0 then (zeroOf neg, {}) else if neg then (canonNaN, flNV) else
    let (m1, e1) := if e % 2 = 0 then (m, e) else (2 * m, e - 1)
    let n := m1 * 2 ^ 64
    let s := isqrt n
    roundFp rm false (stickyNum s (decide (s * s = n))) 1 (e1 / 2 - 33)

/-- FRSQ (R49): the exact reciprocal square root rounded once. -/
def fpRsq (rm : Rm) (a : Word) : Word × Fl :=
  match unpack a with
  | .nan s => (canonNaN, { nv := s })
  | .inf neg => if neg then (canonNaN, flNV) else (zeroOf false, {})
  | .fin neg m e =>
    if m = 0 then (infOf neg, { dz := true }) else if neg then (canonNaN, flNV) else
    let (m1, e1) := if e % 2 = 0 then (m, e) else (2 * m, e - 1)
    let s := isqrt (2 ^ 128 / m1)
    roundFp rm false (stickyNum s (decide (s * s * m1 = 2 ^ 128))) 1 (-(e1 / 2) - 65)

/-- FRCP (R49). -/
def fpRcp (rm : Rm) (a : Word) : Word × Fl :=
  match unpack a with
  | .nan s => (canonNaN, { nv := s })
  | .inf neg => (zeroOf neg, {})
  | .fin neg m e => if m = 0 then (infOf neg, { dz := true }) else roundFp rm neg 1 m (-e)

/-! ## Transcendental functions: fixed-point enclosures with p fraction bits -/

/-- An enclosure lo · 2^e ≤ value ≤ hi · 2^e of a positive value. -/
structure Encl where
  lo : Nat
  hi : Nat
  e : Int
  deriving DecidableEq, Repr

def divUp (a b : Nat) : Nat := (a + b - 1) / b

/-- ln 2 with p fraction bits, below and above: the sum of 1/(k·2^k). -/
def ln2Sum (p : Nat) : Nat → Nat × Nat
  | 0 => (0, 1)
  | k + 1 =>
    let (l, h) := ln2Sum p k
    (l + 2 ^ p / ((k + 1) * 2 ^ (k + 1)), h + divUp (2 ^ p) ((k + 1) * 2 ^ (k + 1)))

def ln2 (p : Nat) : Nat × Nat := ln2Sum p (p + 1)

/-- The terms k to k + n - 1 of the exponential series at t (p fraction bits), rounded down; term is t^(k-1)/(k-1)!. -/
def expSumLo (p t : Nat) : Nat → Nat → Nat → Nat → Nat
  | 0, _, _, acc => acc
  | n + 1, k, term, acc =>
    let term' := term * t / (k * 2 ^ p)
    expSumLo p t n (k + 1) term' (acc + term')

/-- The same rounded up; the rest after the last term is below one more unit. -/
def expSumHi (p t : Nat) : Nat → Nat → Nat → Nat → Nat
  | 0, _, _, acc => acc + 1
  | n + 1, k, term, acc =>
    let term' := divUp (term * t) (k * 2 ^ p)
    expSumHi p t n (k + 1) term' (acc + term')

/-- e^t for t between tlo and thi (p fraction bits, below 2). -/
def expEncl (p tlo thi : Nat) : Nat × Nat :=
  (expSumLo p tlo p 1 (2 ^ p) (2 ^ p), expSumHi p thi p 1 (2 ^ p) (2 ^ p))

/-- 2^(n + f/2^b) for 0 ≤ f < 2^b, with p fraction bits. -/
def exp2Encl (p : Nat) (n : Int) (f b : Nat) : Encl :=
  let (l, h) := ln2 p
  let (lo, hi) := expEncl p (f * l / 2 ^ b) (divUp (f * h) (2 ^ b))
  ⟨lo, hi, n - p⟩

/-- e^y for y = num/2^b ≥ 0 with p fraction bits: y = n·ln 2 + r. -/
def expPosEncl (p num b : Nat) : Encl :=
  let q := p + 16
  let (l, h) := ln2 q
  let y := num * 2 ^ q
  let n := y / (h * 2 ^ b)
  let rlo := y / 2 ^ b - n * h
  let rhi := divUp y (2 ^ b) - n * l
  let (lo, hi) := expEncl q rlo rhi
  ⟨lo, hi, (n : Int) - q⟩

/-- The terms of 2·atanh z = 2·Σ z^(2k+1)/(2k+1), rounded down; pw is z^(2k+1). -/
def atanhLo (p z2 : Nat) : Nat → Nat → Nat → Nat → Nat
  | 0, _, _, acc => acc
  | n + 1, k, pw, acc => atanhLo p z2 n (k + 1) (pw * z2 / 2 ^ p) (acc + 2 * pw / (2 * k + 1))

def atanhHi (p z2 : Nat) : Nat → Nat → Nat → Nat → Nat
  | 0, _, _, acc => acc + 1
  | n + 1, k, pw, acc => atanhHi p z2 n (k + 1) (divUp (pw * z2) (2 ^ p)) (acc + divUp (2 * pw) (2 * k + 1))

/-- ln(num/den) for den ≤ num < 2·den, with p fraction bits. -/
def lnEncl (p num den : Nat) : Nat × Nat :=
  let zl := (num - den) * 2 ^ p / (num + den)
  let zh := divUp ((num - den) * 2 ^ p) (num + den)
  (atanhLo p (zl * zl / 2 ^ p) p 0 zl 0, atanhHi p (divUp (zh * zh) (2 ^ p)) p 0 zh 0)

/-- The rounding of a value enclosed by f p for growing precisions: the first precision at which both ends round alike
gives it (R49: the exact value rounded once). The value is known not to be representable, so NX is set. -/
def refine (rm : Rm) (neg : Bool) (f : Nat → Encl) : List Nat → Word × Fl
  | [] => (canonNaN, {})
  | [p] => let r := f p; let a := roundFp rm neg r.lo 1 r.e; (a.1, { a.2 with nx := true })
  | p :: ps =>
    let r := f p
    let a := roundFp rm neg r.lo 1 r.e
    let b := roundFp rm neg r.hi 1 r.e
    if a.1 = b.1 ∧ r.lo ≠ 0 then (a.1, { a.2 with nx := true, uf := a.2.uf || b.2.uf })
    else refine rm neg f ps

/-- The precisions tried. -/
def precisions : List Nat := [72, 160, 320, 640]

/-- FEXP2 (R49). -/
def fpExp2 (rm : Rm) (a : Word) : Word × Fl :=
  match unpack a with
  | .nan s => (canonNaN, { nv := s })
  | .inf neg => (if neg then zeroOf false else infOf false, {})
  | .fin neg m e =>
    if m = 0 then (0x3F800000, {}) else
    -- the operand as an integer n and a fraction f/2^b
    let z : Int := signed neg m
    if e ≥ 0 then
      let n := if e > 20 then (if neg then -1000 else 1000) else z * 2 ^ e.toNat
      let n := max (-1000) (min 1000 n)
      roundFp rm false 1 1 n
    else
      let b := (-e).toNat
      let n := z / 2 ^ b
      let f := (z % 2 ^ b).toNat
      if f = 0 then roundFp rm false 1 1 (max (-1000) (min 1000 n))
      else if n < -300 then roundFp rm false 3 1 (-302)
      else if n > 300 then roundFp rm false 3 1 300
      else if b > 60 ∧ n = 0 ∧ f < 2 ^ (b - 40) then roundFp rm false (2 ^ 60 + 1) 1 (-60)
      else if b > 60 ∧ n = -1 ∧ 2 ^ b - f < 2 ^ (b - 40) then roundFp rm false (2 ^ 60 - 1) 1 (-60)
      else refine rm false (fun p => exp2Encl p n f b) precisions

/-- FLOG2 (R49). -/
def fpLog2 (rm : Rm) (a : Word) : Word × Fl :=
  match unpack a with
  | .nan s => (canonNaN, { nv := s })
  | .inf neg => if neg then (canonNaN, flNV) else (infOf false, {})
  | .fin neg m e =>
    if m = 0 then (infOf true, { dz := true }) else if neg then (canonNaN, flNV) else
    let k : Int := Nat.log2 m
    let den := 2 ^ Nat.log2 m
    let n := e + k
    if m = den then roundSigned rm n 0 false
    else
      -- log2 = n + ln(m/den)/ln 2, with the fraction strictly between 0 and 1
      let frac (p : Nat) : Nat × Nat :=
        let (l, h) := lnEncl p m den
        let (l2, h2) := ln2 p
        (l * 2 ^ p / h2, divUp (h * 2 ^ p) l2)
      if n ≥ 0 then refine rm false (fun p => let (l, h) := frac p; ⟨n.toNat * 2 ^ p + l, n.toNat * 2 ^ p + h, -(p : Int)⟩) precisions
      else refine rm true (fun p => let (l, h) := frac p; ⟨(-n).toNat * 2 ^ p - h, (-n).toNat * 2 ^ p - l, -(p : Int)⟩) precisions

/-- A magnitude m · 2^e as num/2^b. -/
def dyadic (m : Nat) (e : Int) : Nat × Nat := if 0 ≤ e then (m * 2 ^ e.toNat, 0) else (m, (-e).toNat)

/-- FTANH (R49): (E - 1)/(E + 1) with E = e^(2a); near 0 the series a - a³/3 + …, far out 1 less almost nothing. -/
def fpTanh (rm : Rm) (a : Word) : Word × Fl :=
  match unpack a with
  | .nan s => (canonNaN, { nv := s })
  | .inf neg => (if neg then 0xBF800000 else 0x3F800000, {})
  | .fin neg m e =>
    if m = 0 then (a, {}) else
    let k := (Nat.log2 m : Int) + e
    if k ≥ 6 then let r := roundFp rm neg (2 ^ 100 - 1) 1 (-100); (r.1, { r.2 with nx := true })
    else if k < -12 then
      -- a(1 - a²/3) < tanh a < a(1 - a²/3 + 2a⁴/15); below 2^-60 the first lies between a(1 - 2^-119) and a
      if k < -60 then let r := roundFp rm neg (m * (2 ^ 119 - 1)) 1 (e - 119); (r.1, { r.2 with nx := true, uf := r.2.uf })
      else
        let (x, b) := dyadic m e
        let d := 15 * 2 ^ (4 * b)
        let lo := x * (15 * 2 ^ (4 * b) - 5 * x * x * 2 ^ (2 * b))
        let hi := lo + x * (2 * x * x * x * x)
        let r := roundFp rm neg lo d (-(b : Int))
        let r' := roundFp rm neg hi d (-(b : Int))
        if r.1 = r'.1 then (r.1, { r.2 with nx := true }) else (r'.1, { r'.2 with nx := true })
    else
      let (x, b) := dyadic m e
      refine rm neg (fun p =>
        let E := expPosEncl (p + 32) (2 * x) b
        -- E is lo·2^e to hi·2^e with e ≤ 0 here
        let one := 2 ^ (-E.e).toNat
        ⟨(E.lo - one) * 2 ^ p / (E.lo + one), divUp ((E.hi - one) * 2 ^ p) (E.hi + one), -(p : Int)⟩) precisions

/-- FSIGM (R49): 1/(1 + e^-x). -/
def fpSigm (rm : Rm) (a : Word) : Word × Fl :=
  match unpack a with
  | .nan s => (canonNaN, { nv := s })
  | .inf neg => (if neg then zeroOf false else 0x3F800000, {})
  | .fin neg m e =>
    if m = 0 then (0x3F000000, {}) else
    let k := (Nat.log2 m : Int) + e
    if k ≥ 7 then
      let r := if neg then roundFp rm false 1 1 (-160) else roundFp rm false (2 ^ 60 - 1) 1 (-60)
      (r.1, { r.2 with nx := true })
    else if k < -12 then
      -- 1/2 + x/4 - x³/48 < value < 1/2 + x/4 - x³/48 + x⁵/480 for x > 0, mirrored for x < 0
      if k < -40 then
        let r := roundFp rm false (if neg then 2 ^ 60 - 1 else 2 ^ 60 + 1) 1 (-61)
        (r.1, { r.2 with nx := true })
      else
        let (x, b) := dyadic m e
        let d := 480 * 2 ^ (5 * b)
        let half := 240 * 2 ^ (5 * b)
        let dev := 120 * x * 2 ^ (4 * b) - 10 * x * x * x * 2 ^ (2 * b)
        let dev' := dev + x * x * x * x * x
        let at_ (v : Nat) := roundFp rm false (if neg then half - v else half + v) d 0
        let r := at_ dev
        let r' := at_ dev'
        if r.1 = r'.1 then (r.1, { r.2 with nx := true }) else (r'.1, { r'.2 with nx := true })
    else
      let (x, b) := dyadic m e
      refine rm false (fun p =>
        let E := expPosEncl (p + 64) x b
        let one := 2 ^ (-E.e).toNat
        let q := p + 200
        if neg then ⟨one * 2 ^ q / (E.hi + one), divUp (one * 2 ^ q) (E.lo + one), -(q : Int)⟩
        else ⟨E.lo * 2 ^ q / (E.lo + one), divUp (E.hi * 2 ^ q) (E.hi + one), -(q : Int)⟩) precisions

/-! ## Conversions -/

/-- CVTFI (signed) and CVTFI.n (R54). -/
def cvtFI (rm : Rm) (uns : Bool) (a : Word) : Word × Fl :=
  let lo : Int := if uns then 0 else -(2 ^ 31)
  let hi : Int := if uns then 2 ^ 32 - 1 else 2 ^ 31 - 1
  match unpack a with
  | .nan _ => (0, flNV)
  | .inf neg => (BitVec.ofInt 32 (if neg then lo else hi), flNV)
  | .fin neg m e =>
    let e' := min e 200
    let (p, q) := pow2Pair e'
    let (n, ix) := roundInt rm neg (m * p) q
    let z := signed neg n
    if z < lo then (BitVec.ofInt 32 lo, flNV)
    else if z > hi then (BitVec.ofInt 32 hi, flNV)
    else (BitVec.ofInt 32 z, { nx := ix })

/-- CVTIF and CVTIF.n (R54). -/
def cvtIF (rm : Rm) (uns : Bool) (a : Word) : Word × Fl :=
  let z : Int := if uns then a.toNat else a.toInt
  let r := roundSigned rm z 0 false
  (r.1, { nx := r.2.nx })

/-- CVTBF: BF16 in the low half to FP32 (R51). -/
def cvtBF (a : Word) : Word := a <<< 16

/-- CVTFB: FP32 to BF16, RNE (R51). -/
def cvtFB (a : Word) : Word × Fl :=
  match unpack a with
  | .nan s => ((a >>> 16) ||| 0x40, { nv := s })
  | .inf _ => (a >>> 16, {})
  | .fin neg m e =>
    let r := roundMag 8 (-133) .rne neg m 1 e
    let sgn : Nat := if neg then 2 ^ 15 else 0
    if r.q > 120 then (BitVec.ofNat 32 (sgn + 0x7F80), { nx := true, ovf := true })
    else
      let bits := if r.n < 2 ^ 7 then r.n else (r.q + 134).toNat * 2 ^ 7 + (r.n - 2 ^ 7)
      (BitVec.ofNat 32 (sgn + bits), { nx := r.inexact, uf := r.inexact && r.tiny })

/-- CVTE4: FP32 to E4M3, RNE, saturating at 448 (R53). -/
def cvtE4 (a : Word) : Word × Fl :=
  let sgn (neg : Bool) : Nat := if neg then 0x80 else 0
  match unpack a with
  | .nan s => (BitVec.ofNat 32 (sgn (a.getLsbD 31) + 0x7F), { nv := s })
  | .inf neg => (BitVec.ofNat 32 (sgn neg + 0x7E), { nx := true, ovf := true })
  | .fin neg m e =>
    let r := roundMag 4 (-9) .rne neg m 1 e
    -- the value is n·2^q; it exceeds 448 = 14·2^5
    let tooBig := decide (r.q > 5) || (decide (r.q = 5) && decide (r.n > 14))
    if tooBig then (BitVec.ofNat 32 (sgn neg + 0x7E), { nx := true, ovf := true })
    else
      let bits := if r.n < 8 then r.n else (r.q + 10).toNat * 8 + (r.n - 8)
      (BitVec.ofNat 32 (sgn neg + bits), { nx := r.inexact, uf := r.inexact && r.tiny })

/-- CVTE4F: E4M3 in the low byte to FP32 (R53). -/
def cvtE4F (a : Word) : Word :=
  let neg := a.getLsbD 7
  let ex := (a.extractLsb' 3 4).toNat
  let fr := (a.extractLsb' 0 3).toNat
  if ex = 15 ∧ fr = 7 then canonNaN
  else if ex = 0 then (if fr = 0 then zeroOf neg else (roundFp .rne neg fr 1 (-9)).1)
  else (roundFp .rne neg (fr + 8) 1 ((ex : Int) - 10)).1

/-- Whether a scale is unusable: zero, negative, infinite or NaN (R111, R116). -/
def badScale (s : Word) : Bool :=
  match unpack s with
  | .fin neg m _ => neg || decide (m = 0)
  | _ => true

/-- The integer nearest to RoundNE(x/s), ties to even, clamped to lo..hi (R111, R116, R207): the value, and whether it
differs from the exact x/s. x is not NaN and s is a usable scale. -/
def quantInt (lo hi : Int) (x s : Word) : Int × Bool :=
  match unpack x with
  | .inf neg => (if neg then lo else hi, true)
  | .nan _ => (0, false)
  | .fin neg m e =>
    match unpack (fpDiv .rne x s).1 with
    | .inf n => (if n then lo else hi, true)
    | .nan _ => (0, false)
    | .fin qn qm qe =>
      let (p, q) := pow2Pair (min qe 200)
      let n := signed qn (roundInt .rne qn (qm * p) q).1
      let c := max lo (min hi n)
      let exact := match unpack s with
        | .fin _ ms es =>
          -- c · s = x
          let (u, v) := pow2Pair (es - e)
          decide (c * (ms * u : Nat) = signed neg m * (v : Int))
        | _ => false
      (c, !exact)

/-- CVTI4 (R111). -/
def cvtI4 (x s : Word) : Word × Fl :=
  if badScale s then (0, flNV) else if isNaN x then (0, flNV) else
  let (q, ix) := quantInt (-7) 7 x s
  (BitVec.ofInt 32 q, { nx := ix })

/-- RoundNE of an operation, its flags dropped (R59 to R65, R68, R69: engines and attention set no flags). -/
def addNE (a b : Word) : Word := (fpAdd .rne a b).1
def subNE (a b : Word) : Word := (fpSub .rne a b).1
def mulNE (a b : Word) : Word := (fpMul .rne a b).1
def divNE (a b : Word) : Word := (fpDiv .rne a b).1
def exp2NE (a : Word) : Word := (fpExp2 .rne a).1
/-- An integer as FP32, RNE. -/
def intNE (z : Int) : Word := (roundSigned .rne z 0 false).1

/-- The counter-based generator (R70): four rounds over a key and a counter. -/
def randRounds : Nat → DWord → DWord → DWord
  | 0, _, x => x
  | n + 1, k, x =>
    let y := (x ^^^ k) * 0xA3B195C4D2E70F8B
    randRounds n (k + 0x6D2B79F51C4A8E37) (y ^^^ (y >>> 29))

/-- RAND for one key and counter: 24 bits over 2^24 (R70). -/
def randFp (k x : DWord) : Word :=
  let n := (randRounds 4 k x >>> 40).toNat
  if n = 0 then 0 else (roundFp .rne false n 1 (-24)).1

end Sys2Proof.Machine
end

