-- ==== Sys2Proof/Config.lean ====
section
/-! DEFINITION. What one part fixes and the free values the spec leaves open: opaque constants, so that no proof can
lean on a value of theirs. -/

namespace Sys2Proof.Config

/-- The n-th free value: what the spec leaves open is this function applied to the state's counter of free values
(log 6). -/
opaque freeNat : Nat → Nat

/-- The free choice between two allowed outcomes (log 6). -/
opaque freeBool : Nat → Bool

/-- FEATAVAIL0 to FEATAVAIL3: 'per part' (spec/14 Table 1; log 7). -/
opaque featAvail : BitVec 128

/-- The device-unique identity key of bring-up step 4, the private key that signs reports (R388, R391; log 7). -/
opaque identityKey : List Byte

/-- The four vendor key hashes fused in the package (R389; log 7). -/
opaque vendorKeyHashes : List (List Byte)

/-- The incarnations that the on-package flash counter gives at power-on, when it stands at n, for each partition (R344;
log 7). -/
opaque flashIncarnation : Nat → Nat → BitVec 16

/-- The place of the save area of a context, in 64-byte units, by the free value of its launch (R41; log 8). -/
opaque saveArea : Nat → Nat

end Sys2Proof.Config
end

