-- ==== Sys2Proof/Machine/Table.lean ====
section
/-! DEFINITION. Sparse tables and lane vectors as plain lists: the one home of every 'n-th of many' of the state. A table
lists (key, value) pairs with rising keys. -/

namespace Sys2Proof.Machine

/-- A sparse table: (key, value) pairs with rising keys. -/
abbrev Tab (α : Type) := List (Nat × α)

/-- The value at a key. -/
def tabGet? {α : Type} : Tab α → Nat → Option α
  | [], _ => none
  | (k, v) :: t, n => if k = n then some v else tabGet? t n

/-- The value at a key, or a default. -/
def tabGetD {α : Type} (t : Tab α) (n : Nat) (d : α) : α := (tabGet? t n).getD d

/-- Sets the value at a key. -/
def tabSet {α : Type} : Tab α → Nat → α → Tab α
  | [], n, v => [(n, v)]
  | (k, w) :: t, n, v =>
    if n < k then (n, v) :: (k, w) :: t
    else if n = k then (n, v) :: t
    else (k, w) :: tabSet t n v

/-- Removes every entry of a key. -/
def tabDel {α : Type} : Tab α → Nat → Tab α
  | [], _ => []
  | (k, w) :: t, n => if k = n then tabDel t n else (k, w) :: tabDel t n

/-- Applies a function to the value at a key, if there is one. -/
def tabMod {α : Type} (t : Tab α) (n : Nat) (f : α → α) : Tab α :=
  match tabGet? t n with
  | some v => tabSet t n (f v)
  | none => t

/-- The smallest of n, n + 1, … (at most fuel of them) that p admits. -/
def firstFrom (p : Nat → Bool) : Nat → Nat → Option Nat
  | 0, _ => none
  | fuel + 1, n => if p n then some n else firstFrom p fuel (n + 1)

/-- Sets the n-th element of a list. -/
def listSet {α : Type} : List α → Nat → α → List α
  | [], _, _ => []
  | _ :: t, 0, v => v :: t
  | x :: t, n + 1, v => x :: listSet t n v

/-- The lane numbers (R8). -/
def lanes : List Nat :=
  [0, 1, 2, 3, 4, 5, 6, 7, 8, 9, 10, 11, 12, 13, 14, 15, 16, 17, 18, 19, 20, 21, 22, 23, 24, 25, 26, 27, 28, 29, 30, 31]

/-- Whether lane l is in a mask. -/
def inMask (m : Word) (l : Nat) : Bool := m.getLsbD l

/-- The lanes of a mask, ascending. -/
def lanesOf (m : Word) : List Nat := lanes.filter (inMask m)

/-- The lowest lane of a mask; 0 when it is empty (R120). -/
def lowLane (m : Word) : Nat := ((lanesOf m).head?).getD 0

/-- The mask of the lanes that p admits. -/
def maskOf (p : Nat → Bool) : Word :=
  BitVec.ofNat 32 (lanes.foldl (fun n l => if p l then n + 2 ^ l else n) 0)

/-- The number of lanes of a mask. -/
def popCount (m : Word) : Nat := (lanesOf m).length

/-- The low n bits set. -/
def lowMask (n : Nat) : Word := BitVec.ofNat 32 (2 ^ n - 1)

/-- Lane l of a column. -/
def laneGet (xs : List Word) (l : Nat) : Word := xs.getD l 0

/-- A column from its lanes. -/
def column (f : Nat → Word) : List Word := lanes.map f

/-- The column with v in the lanes of a mask and w in the others. -/
def blend (m : Word) (v w : Nat → Word) : List Word := column fun l => if inMask m l then v l else w l

end Sys2Proof.Machine
end

