-- ==== Sys2Proof/Syntax.lean ====
section
/-! DEFINITION. The instructions of spec/03 and the steps of spec/opcode_table.json: one constructor for each row of the
table. A row with an encoding carries its group's prefix words (Pfx) and the fields of its format (R74 to R79); a row
without one (an arrival, a completion, a command, a reset, a register write, a debug command) carries what the step is
about. -/

namespace Sys2Proof

/-- The fields of a PFX.M word (R80). -/
structure PfxM where
  mask : BitVec 3
  neg : BitVec 1
  scope : BitVec 3
  rnd : BitVec 2
  aux : BitVec 16
  deriving DecidableEq, Repr

/-- The prefix words of a group (R72): at most one PFX.M, at most one PFX.I (its IMM25). -/
structure Pfx where
  m : Option PfxM := none
  i : Option (BitVec 25) := none
  deriving DecidableEq, Repr

/-- R format less OP and FN (R74). -/
structure RForm where
  w : BitVec 1
  sb : BitVec 7
  sa : BitVec 7
  d : BitVec 7
  deriving DecidableEq, Repr

/-- I format less OP (R75). -/
structure IForm where
  w : BitVec 1
  imm : BitVec 11
  sa : BitVec 7
  d : BitVec 7
  deriving DecidableEq, Repr

/-- Shift-immediate form of the I format (R101): hi is IMM[10:7], cnt is IMM[4:0]. -/
structure ShForm where
  w : BitVec 1
  hi : BitVec 4
  cnt : BitVec 5
  sa : BitVec 7
  d : BitVec 7
  deriving DecidableEq, Repr

/-- M format less OP (R76). -/
structure MForm where
  k : BitVec 3
  o : BitVec 2
  sb : BitVec 7
  sa : BitVec 7
  d : BitVec 7
  deriving DecidableEq, Repr

/-- M format whose O is fixed by the instruction (R76, R87). -/
structure KForm where
  k : BitVec 3
  sb : BitVec 7
  sa : BitVec 7
  d : BitVec 7
  deriving DecidableEq, Repr

/-- M format of major 0x28: the low bit of O says acquire (R87). -/
structure AForm where
  k : BitVec 3
  acq : BitVec 1
  sb : BitVec 7
  sa : BitVec 7
  d : BitVec 7
  deriving DecidableEq, Repr

/-- M format whose K is fixed by the instruction (R171, R191). -/
structure OForm where
  o : BitVec 2
  sb : BitVec 7
  sa : BitVec 7
  d : BitVec 7
  deriving DecidableEq, Repr

/-- M format whose K and O are fixed by the instruction (R167). -/
structure XForm where
  sb : BitVec 7
  sa : BitVec 7
  d : BitVec 7
  deriving DecidableEq, Repr

/-- B format less OP (R77). -/
structure BForm where
  c : BitVec 3
  mr : BitVec 3
  off : BitVec 20
  deriving DecidableEq, Repr

/-- BW format less OP (R77). -/
structure WForm where
  p : BitVec 6
  k8 : BitVec 8
  off12 : BitVec 12
  deriving DecidableEq, Repr

/-- E format less OP and FN (R78). -/
structure EForm where
  q : BitVec 8
  sa : BitVec 7
  d : BitVec 7
  deriving DecidableEq, Repr

/-- S format of MFS and MTS: the register offset, SA and D (R79, R89). -/
structure YForm where
  off : BitVec 10
  sa : BitVec 7
  d : BitVec 7
  deriving DecidableEq, Repr

/-- S format of the system functions: SA and D (R79, R89). -/
structure FForm where
  sa : BitVec 7
  d : BitVec 7
  deriving DecidableEq, Repr

/-- What a fault or trap reports (R357 to R360): the fault code and cause code, the lane masks, and the address of each
lane where the rule of the fault gives one. -/
structure TrapReq where
  code : Nat
  cause : Nat
  xmask : Word
  xother : Word := 0
  xdone : Word := 0
  xaddr : Option (List DWord) := none
  deriving DecidableEq, Repr

/-- What a request packet of a peer asks of the home (R342, channel 0). -/
inductive PacketKind where
  | load (pa : Nat) (n : Nat)
  | store (pa : Nat) (bytes : List (Nat × Byte))
  | atomic (pa : Nat) (size : Nat) (op : Nat) (operand comparand : DWord)
  | ringx (pa : Nat) (dcode : Nat) (triple : List Byte)
  | kvres (pa : Nat) (n nb poslo poshi : Nat)
  | kvpub (pa : Nat) (bits : DWord)
  deriving DecidableEq, Repr

/-- A request packet that arrives from a peer (R334, R342, R345). -/
structure Packet where
  peer : Nat
  part : Nat
  plane : Nat
  inc : BitVec 16
  kind : PacketKind
  deriving DecidableEq, Repr

/-- What bring-up finds (R388, R389): the three firmware images, each with its 192-byte trailer, whether HBM training
succeeds. -/
structure BootImages where
  images : List (List Byte)
  trained : Bool
  deriving DecidableEq, Repr

/-- What the host has set in PCI Express configuration space (R348): how many virtual functions SR-IOV enables, 0 when it is
disabled, and the size of BAR4 of each function, as a power of 2. -/
structure PciConfig where
  vfs : Nat := 0
  bar4 : List Nat := List.replicate 17 30
  deriving DecidableEq, Repr

/-- What the outside presents with a step that comes from it (a host or debug access, a packet or notice of a peer, a
reset, an error, a measurement): each step reads the fields that its rule names. -/
structure Input where
  /-- the function of a host access: 0 the PF, q + 1 the VF of partition q (R348) -/
  fn : Nat := 0
  /-- the offset of an access, or a physical address -/
  off : Nat := 0
  /-- whether the access writes -/
  wr : Bool := false
  /-- the data of a write -/
  data : List Byte := []
  /-- the partition, peer, core, link, plane, queue, rail, die or request that the step is about -/
  which : Nat := 0
  /-- a count or measurement: packets received, milliwatts, elapsed ns, degrees, an error bit -/
  count : Nat := 0
  /-- corrected, failed or uncorrectable, as the step says -/
  flag : Bool := false
  /-- the incarnations of a notice (R344) -/
  incs : List (BitVec 16) := []
  /-- the request packet that arrives -/
  pkt : Packet := ⟨0, 0, 0, 0, .load 0 0⟩
  /-- what bring-up finds -/
  boot : BootImages := ⟨[], true⟩
  /-- junction temperatures of the compute dies, degrees C (R397) -/
  temps : List Nat := []
  /-- the offset that a Sync message measures, ns (R356) -/
  offset : Int := 0
  /-- the response or acknowledgement goes to a requester whose incarnation has changed (R345) -/
  stale : Bool := false
  /-- bytes of other packages, by domain address, that their own programs have written before the step -/
  peerMem : List (Nat × Byte) := []
  /-- 128-byte lines of other packages, and whether they carry poison now (R165) -/
  peerPoison : List (Nat × Bool) := []
  /-- configuration space as the host has written it before the step (R348, R382) -/
  config : Option PciConfig := none
  /-- soft errors in twinned gusts before the step (R373): the gust's key, whether its twin is hit, the register and its
  stored words -/
  soft : List (Nat × Bool × Nat × List Word) := []
  deriving DecidableEq, Repr

/-- One constructor for each row of spec/opcode_table.json. A step that comes from outside takes what it is about from
Input, which State holds. -/
inductive Instr where
  /-- IADD (R96). -/
  | iadd (p : Pfx) (f : RForm)
  /-- ISUB (R96). -/
  | isub (p : Pfx) (f : RForm)
  /-- IMUL (R96). -/
  | imul (p : Pfx) (f : RForm)
  /-- IMULH (R96). -/
  | imulh (p : Pfx) (f : RForm)
  /-- IMULHN (R96). -/
  | imulhn (p : Pfx) (f : RForm)
  /-- IMAD (R96). -/
  | imad (p : Pfx) (f : RForm)
  /-- IMIN (R96). -/
  | imin (p : Pfx) (f : RForm)
  /-- IMAX (R96). -/
  | imax (p : Pfx) (f : RForm)
  /-- IMINN (R96). -/
  | iminn (p : Pfx) (f : RForm)
  /-- IMAXN (R96). -/
  | imaxn (p : Pfx) (f : RForm)
  /-- IABS (R96). -/
  | iabs (p : Pfx) (f : RForm)
  /-- AND (R97). -/
  | and (p : Pfx) (f : RForm)
  /-- OR (R97). -/
  | or (p : Pfx) (f : RForm)
  /-- XOR (R97). -/
  | xor (p : Pfx) (f : RForm)
  /-- ANDN (R97). -/
  | andn (p : Pfx) (f : RForm)
  /-- SHL (R97). -/
  | shl (p : Pfx) (f : RForm)
  /-- SHR (R97). -/
  | shr (p : Pfx) (f : RForm)
  /-- SAR (R97). -/
  | sar (p : Pfx) (f : RForm)
  /-- ROTL (R97). -/
  | rotl (p : Pfx) (f : RForm)
  /-- POPC (R97). -/
  | popc (p : Pfx) (f : RForm)
  /-- CLZ (R97). -/
  | clz (p : Pfx) (f : RForm)
  /-- CTZ (R97). -/
  | ctz (p : Pfx) (f : RForm)
  /-- BREV (R97). -/
  | brev (p : Pfx) (f : RForm)
  /-- SEL (R97). -/
  | sel (p : Pfx) (f : RForm)
  /-- BFX (R98). -/
  | bfx (p : Pfx) (f : RForm)
  /-- BFXS (R98). -/
  | bfxs (p : Pfx) (f : RForm)
  /-- BFI (R98). -/
  | bfi (p : Pfx) (f : RForm)
  /-- ICMP (R99). -/
  | icmp (p : Pfx) (c : BitVec 4) (f : RForm)
  /-- IADDI (R100). -/
  | iaddi (p : Pfx) (f : IForm)
  /-- ANDI (R100). -/
  | andi (p : Pfx) (f : IForm)
  /-- ORI (R100). -/
  | ori (p : Pfx) (f : IForm)
  /-- XORI (R100). -/
  | xori (p : Pfx) (f : IForm)
  /-- SHLI (R101). -/
  | shli (p : Pfx) (f : ShForm)
  /-- SHRI (R101). -/
  | shri (p : Pfx) (f : ShForm)
  /-- SARI (R101). -/
  | sari (p : Pfx) (f : ShForm)
  /-- LDI (R102). -/
  | ldi (p : Pfx) (f : IForm)
  /-- ADD64 (R103). -/
  | add64 (p : Pfx) (f : RForm)
  /-- SUB64 (R103). -/
  | sub64 (p : Pfx) (f : RForm)
  /-- MAD64 (R103). -/
  | mad64 (p : Pfx) (f : RForm)
  /-- CMP64 (R103). -/
  | cmp64 (p : Pfx) (c : BitVec 4) (f : RForm)
  /-- ADD64I (R103). -/
  | add64i (p : Pfx) (f : IForm)
  /-- FADD (R105). -/
  | fadd (p : Pfx) (f : RForm)
  /-- FSUB (R105). -/
  | fsub (p : Pfx) (f : RForm)
  /-- FMUL (R105). -/
  | fmul (p : Pfx) (f : RForm)
  /-- FFMA (R105). -/
  | ffma (p : Pfx) (f : RForm)
  /-- FMIN (R106). -/
  | fmin (p : Pfx) (f : RForm)
  /-- FMAX (R106). -/
  | fmax (p : Pfx) (f : RForm)
  /-- FABS (R105). -/
  | fabs (p : Pfx) (f : RForm)
  /-- FNEG (R105). -/
  | fneg (p : Pfx) (f : RForm)
  /-- FCLASS (R107). -/
  | fclass (p : Pfx) (f : RForm)
  /-- FRND (R105). -/
  | frnd (p : Pfx) (f : RForm)
  /-- FSCALE (R105). -/
  | fscale (p : Pfx) (f : RForm)
  /-- FCMP (R108). -/
  | fcmp (p : Pfx) (c : BitVec 4) (f : RForm)
  /-- FRCP (R109). -/
  | frcp (p : Pfx) (f : RForm)
  /-- FRSQ (R109). -/
  | frsq (p : Pfx) (f : RForm)
  /-- FSQRT (R109). -/
  | fsqrt (p : Pfx) (f : RForm)
  /-- FEXP2 (R109). -/
  | fexp2 (p : Pfx) (f : RForm)
  /-- FLOG2 (R109). -/
  | flog2 (p : Pfx) (f : RForm)
  /-- FTANH (R109). -/
  | ftanh (p : Pfx) (f : RForm)
  /-- FSIGM (R109). -/
  | fsigm (p : Pfx) (f : RForm)
  /-- CVTFI (R54). -/
  | cvtfi (p : Pfx) (f : RForm)
  /-- CVTFI_N (R54). -/
  | cvtfiN (p : Pfx) (f : RForm)
  /-- CVTIF (R54). -/
  | cvtif (p : Pfx) (f : RForm)
  /-- CVTIF_N (R54). -/
  | cvtifN (p : Pfx) (f : RForm)
  /-- CVTBF (R51). -/
  | cvtbf (p : Pfx) (f : RForm)
  /-- CVTFB (R51). -/
  | cvtfb (p : Pfx) (f : RForm)
  /-- CVTE4 (R53). -/
  | cvte4 (p : Pfx) (f : RForm)
  /-- CVTE4F (R53). -/
  | cvte4f (p : Pfx) (f : RForm)
  /-- CVTI4 (R111). -/
  | cvti4 (p : Pfx) (f : RForm)
  /-- SHFL_IDX (R113). -/
  | shflIdx (p : Pfx) (f : RForm)
  /-- SHFL_UP (R113). -/
  | shflUp (p : Pfx) (f : RForm)
  /-- SHFL_DOWN (R113). -/
  | shflDown (p : Pfx) (f : RForm)
  /-- SHFL_XOR (R113). -/
  | shflXor (p : Pfx) (f : RForm)
  /-- RADD (R114). -/
  | radd (p : Pfx) (f : RForm)
  /-- RADD_F (R114). -/
  | raddF (p : Pfx) (f : RForm)
  /-- RMAX (R114). -/
  | rmax (p : Pfx) (f : RForm)
  /-- RMAX_N (R114). -/
  | rmaxN (p : Pfx) (f : RForm)
  /-- RMAX_F (R114). -/
  | rmaxF (p : Pfx) (f : RForm)
  /-- RMIN (R114). -/
  | rmin (p : Pfx) (f : RForm)
  /-- RMIN_N (R114). -/
  | rminN (p : Pfx) (f : RForm)
  /-- RMIN_F (R114). -/
  | rminF (p : Pfx) (f : RForm)
  /-- SCANA (R114). -/
  | scana (p : Pfx) (f : RForm)
  /-- SCANA_F (R114). -/
  | scanaF (p : Pfx) (f : RForm)
  /-- BCAST (R115). -/
  | bcast (p : Pfx) (f : RForm)
  /-- MKL (R115). -/
  | mkl (p : Pfx) (f : RForm)
  /-- MKG (R115). -/
  | mkg (p : Pfx) (f : RForm)
  /-- TAG (R115). -/
  | tag (p : Pfx) (f : RForm)
  /-- QPLANE (R116). -/
  | qplane (p : Pfx) (f : RForm)
  /-- HADX (R117). -/
  | hadx (p : Pfx) (f : RForm)
  /-- DQX (R118). -/
  | dqx (p : Pfx) (f : RForm)
  /-- RAND (R119). -/
  | rand (p : Pfx) (f : RForm)
  /-- BRA (R122). -/
  | bra (p : Pfx) (f : BForm)
  /-- BRC (R122). -/
  | brc (p : Pfx) (f : BForm)
  /-- BRD (R124). -/
  | brd (p : Pfx) (f : BForm)
  /-- CALL (R123). -/
  | call (p : Pfx) (f : BForm)
  /-- RECON (R126). -/
  | recon (p : Pfx) (f : RForm)
  /-- RET (R123). -/
  | ret (p : Pfx) (f : RForm)
  /-- JMPR (R123). -/
  | jmpr (p : Pfx) (f : RForm)
  /-- EXIT (R127). -/
  | exit (p : Pfx) (f : RForm)
  /-- SPAWN (R129). -/
  | spawn (p : Pfx) (f : RForm)
  /-- REGROUP (R130). -/
  | regroup (p : Pfx) (f : RForm)
  /-- VOTE_ANY (R133). -/
  | voteAny (p : Pfx) (f : RForm)
  /-- VOTE_ALL (R133). -/
  | voteAll (p : Pfx) (f : RForm)
  /-- VOTE_BALLOT (R133). -/
  | voteBallot (p : Pfx) (f : RForm)
  /-- VOTE_COUNT (R133). -/
  | voteCount (p : Pfx) (f : RForm)
  /-- VOTE_RANK (R133). -/
  | voteRank (p : Pfx) (f : RForm)
  /-- ELECT (R133). -/
  | elect (p : Pfx) (f : RForm)
  /-- MAND (R133). -/
  | mand (p : Pfx) (f : RForm)
  /-- MOR (R133). -/
  | mor (p : Pfx) (f : RForm)
  /-- MXOR (R133). -/
  | mxor (p : Pfx) (f : RForm)
  /-- MNOT (R133). -/
  | mnot (p : Pfx) (f : RForm)
  /-- MMOV (R133). -/
  | mmov (p : Pfx) (f : RForm)
  /-- MPOPC (R133). -/
  | mpopc (p : Pfx) (f : RForm)
  /-- BAR (R134). -/
  | bar (p : Pfx) (f : RForm)
  /-- BARARR (R134). -/
  | bararr (p : Pfx) (f : RForm)
  /-- BARWT (R134). -/
  | barwt (p : Pfx) (f : RForm)
  /-- CJOIN (R139). -/
  | cjoin (p : Pfx) (f : RForm)
  /-- CLEAVE (R138). -/
  | cleave (p : Pfx) (f : RForm)
  /-- LD (R157). -/
  | ld (p : Pfx) (f : MForm)
  /-- LD_DF (R164). -/
  | ldDf (p : Pfx) (f : KForm)
  /-- LDU (R158). -/
  | ldu (p : Pfx) (f : MForm)
  /-- LDU_DF (R164). -/
  | lduDf (p : Pfx) (f : KForm)
  /-- LDX (R162). -/
  | ldx (p : Pfx) (f : AForm)
  /-- LDRAW (R161). -/
  | ldraw (p : Pfx) (f : AForm)
  /-- ST (R159). -/
  | st (p : Pfx) (f : MForm)
  /-- SPLD (R167). -/
  | spld (p : Pfx) (f : KForm)
  /-- SPST (R167). -/
  | spst (p : Pfx) (f : KForm)
  /-- LDLK (R169). -/
  | ldlk (p : Pfx) (f : XForm)
  /-- STUL (R169). -/
  | stul (p : Pfx) (f : XForm)
  /-- SPA (R170). -/
  | spa (p : Pfx) (f : KForm)
  /-- ATOM (R172). -/
  | atom (p : Pfx) (f : MForm)
  /-- ATOMR (R172). -/
  | atomr (p : Pfx) (f : MForm)
  /-- ATOM_XCHG (R172). -/
  | atomXchg (p : Pfx) (f : OForm)
  /-- ATOM_CAS (R172). -/
  | atomCas (p : Pfx) (f : OForm)
  /-- ATOMR_XCHG (R172). -/
  | atomrXchg (p : Pfx) (f : OForm)
  /-- ATOMR_CAS (R172). -/
  | atomrCas (p : Pfx) (f : OForm)
  /-- ATOM_ADD_64 (R172). -/
  | atomAdd64 (p : Pfx) (f : OForm)
  /-- ATOMR_ADD_64 (R172). -/
  | atomrAdd64 (p : Pfx) (f : OForm)
  /-- ATOMR_XCHG_64 (R172). -/
  | atomrXchg64 (p : Pfx) (f : OForm)
  /-- ATOMR_CAS_64 (R172). -/
  | atomrCas64 (p : Pfx) (f : OForm)
  /-- FENCE_ACQ (R180). -/
  | fenceAcq (p : Pfx) (f : RForm)
  /-- FENCE_REL (R180). -/
  | fenceRel (p : Pfx) (f : RForm)
  /-- FENCE_AR (R180). -/
  | fenceAr (p : Pfx) (f : RForm)
  /-- ISYNC (R182). -/
  | isync (p : Pfx) (f : RForm)
  /-- ISYNC_RANGE (R182). -/
  | isyncRange (p : Pfx) (f : RForm)
  /-- HFLUSH (R183). -/
  | hflush (p : Pfx) (f : RForm)
  /-- PREF (R184). -/
  | pref (p : Pfx) (f : RForm)
  /-- WAITTL (R186). -/
  | waittl (p : Pfx) (f : EForm)
  /-- WAITSB (R185). -/
  | waitsb (p : Pfx) (f : RForm)
  /-- RSBQ (R187). -/
  | rsbq (p : Pfx) (f : RForm)
  /-- AWRD (R188). -/
  | awrd (p : Pfx) (f : RForm)
  /-- BRAW (R188). -/
  | braw (p : Pfx) (f : WForm)
  /-- CAPLD (R191). -/
  | capld (p : Pfx) (f : OForm)
  /-- CAPST (R191). -/
  | capst (p : Pfx) (f : OForm)
  /-- CAPNAR (R192). -/
  | capnar (p : Pfx) (f : RForm)
  /-- CAPCHK (R192). -/
  | capchk (p : Pfx) (f : RForm)
  /-- CAPTAG (R192). -/
  | captag (p : Pfx) (f : RForm)
  /-- CAPMK (R192). -/
  | capmk (p : Pfx) (f : RForm)
  /-- PUSH (R197). -/
  | push (p : Pfx) (f : EForm)
  /-- PUSH_CORE (R197). -/
  | pushCore (p : Pfx) (f : EForm)
  /-- PUSH_DIE (R197). -/
  | pushDie (p : Pfx) (f : EForm)
  /-- PUSH_PKG (R197). -/
  | pushPkg (p : Pfx) (f : EForm)
  /-- PUSHQ (R199). -/
  | pushq (p : Pfx) (f : EForm)
  /-- TLRD (R199). -/
  | tlrd (p : Pfx) (f : EForm)
  /-- KVRES (R222). -/
  | kvres (p : Pfx) (f : RForm)
  /-- KVAPP (R223). -/
  | kvapp (p : Pfx) (f : RForm)
  /-- KVPUB (R224). -/
  | kvpub (p : Pfx) (f : RForm)
  /-- KVACQ (R224). -/
  | kvacq (p : Pfx) (f : RForm)
  /-- KVSEAL (R225). -/
  | kvseal (p : Pfx) (f : RForm)
  /-- KVG (R226). -/
  | kvg (p : Pfx) (f : RForm)
  /-- KVQK (R227). -/
  | kvqk (p : Pfx) (f : RForm)
  /-- KVAV (R228). -/
  | kvav (p : Pfx) (f : RForm)
  /-- KVPROM (R229). -/
  | kvprom (p : Pfx) (f : RForm)
  /-- KVRM (R226). -/
  | kvrm (p : Pfx) (f : RForm)
  /-- LQSEND (R233). -/
  | lqsend (p : Pfx) (f : RForm)
  /-- LQRECV (R233). -/
  | lqrecv (p : Pfx) (f : RForm)
  /-- LQPEEK (R233). -/
  | lqpeek (p : Pfx) (f : RForm)
  /-- HEAPRD (R235). -/
  | heaprd (p : Pfx) (f : RForm)
  /-- SDRAW (R236). -/
  | sdraw (p : Pfx) (f : RForm)
  /-- PNCOMMIT (R237). -/
  | pncommit (p : Pfx) (f : RForm)
  /-- DLWAIT (R238). -/
  | dlwait (p : Pfx) (f : RForm)
  /-- PFMARK (R239). -/
  | pfmark (p : Pfx) (f : RForm)
  /-- LEAVEQ (R239). -/
  | leaveq (p : Pfx) (f : RForm)
  /-- MFS (R144). -/
  | mfs (p : Pfx) (f : YForm)
  /-- MTS (R144). -/
  | mts (p : Pfx) (f : YForm)
  /-- NOP (R142). -/
  | nop (p : Pfx) (f : FForm)
  /-- YIELD (R142). -/
  | yield (p : Pfx) (f : FForm)
  /-- WBASE (R143). -/
  | wbase (p : Pfx) (f : FForm)
  /-- TRAP (R148). -/
  | trap (p : Pfx) (f : FForm)
  /-- TRET (R149). -/
  | tret (p : Pfx) (f : FForm)
  /-- SVC (R148). -/
  | svc (p : Pfx) (f : FForm)
  /-- TFENCE (R146). -/
  | tfence (p : Pfx) (f : FForm)
  /-- FLCLR (R147). -/
  | flclr (p : Pfx) (f : FForm)
  /-- BKPT (R148). -/
  | bkpt (p : Pfx) (f : FForm)
  /-- ILLZ (R90). -/
  | illz (p : Pfx)
  /-- ILL (R90). -/
  | ill (p : Pfx)
  /-- GUST_RETIRE (R128). -/
  | gustRetire (g : Nat)
  /-- DRIFT_ARRIVAL (R32). -/
  | driftArrival (g : Nat) (sym : Nat)
  /-- LOAD_REPLY (R153). -/
  | loadReply (g : Nat) (slotB : Bool)
  /-- POSTED_COMPLETION (R176). -/
  | postedCompletion (g : Nat) (id : Nat)
  /-- TRAP_ENTRY (R362). -/
  | trapEntry (g : Nat) (slotB : Bool) (r : TrapReq)
  /-- PENDING_ENTRY_COMPLETE (R366). -/
  | pendingEntryComplete (g : Nat)
  /-- WC_AGE_DRAIN (R340). -/
  | wcAgeDrain (core : Nat) (ix : Nat)
  /-- COMMAND_START (R327). -/
  | commandStart (eng : Nat)
  /-- LEAVE_GRANT (R395). -/
  | leaveGrant (die : Nat)
  /-- TASK_ISSUE (R209). -/
  | taskIssue (core : Nat)
  /-- MASK_HOLD_RELEASE (R212). -/
  | maskHoldRelease (eng : Nat) (num : Nat)
  /-- MASK_DEADLINE (R212). -/
  | maskDeadline (eng : Nat) (num : Nat)
  /-- DLWAIT_DEADLINE (R238). -/
  | dlwaitDeadline (g : Nat) (slotB : Bool)
  /-- COMMAND_COMPLETE (R195). -/
  | commandComplete (eng : Nat) (num : Nat)
  /-- MXTASK (R205). -/
  | mxtask (eng : Nat) (num : Nat)
  /-- MXCONV (R208). -/
  | mxconv (eng : Nat) (num : Nat)
  /-- CPY (R214). -/
  | cpy (eng : Nat) (num : Nat)
  /-- CPY2D (R214). -/
  | cpy2d (eng : Nat) (num : Nat)
  /-- GATHER (R214). -/
  | gather (eng : Nat) (num : Nat)
  /-- SCATTER (R214). -/
  | scatter (eng : Nat) (num : Nat)
  /-- FILL (R213). -/
  | fill (eng : Nat) (num : Nat)
  /-- REQNT (R215). -/
  | reqnt (eng : Nat) (num : Nat)
  /-- XPOSE (R215). -/
  | xpose (eng : Nat) (num : Nat)
  /-- HOSTFL (R214). -/
  | hostfl (eng : Nat) (num : Nat)
  /-- RINGX (R216). -/
  | ringx (eng : Nat) (num : Nat)
  /-- LQFWD (R217). -/
  | lqfwd (eng : Nat) (num : Nat)
  /-- MIGRATE (R215). -/
  | migrate (eng : Nat) (num : Nat)
  /-- GRAPHPOST (R217). -/
  | graphpost (eng : Nat) (num : Nat)
  /-- OLDEST_ADVANCE (R296). -/
  | oldestAdvance (part : Nat) (asid : Nat)
  /-- PREFETCH_RECORD (R310). -/
  | prefetchRecord (ix : Nat)
  /-- PREFETCH_DEADLINE (R311). -/
  | prefetchDeadline (ix : Nat)
  /-- POOL_POP (R302). -/
  | poolPop (part : Nat) (pool : Nat)
  /-- SLOT_END (R315). -/
  | slotEnd (inst : Nat)
  /-- SPILL_CONTEXT (R370). -/
  | spillContext (core : Nat)
  /-- FRONT_COMPLETE (R318). -/
  | frontComplete (front : Nat)
  /-- ILLEGAL_WORD (R90). -/
  | illegalWord (ws : List Word) (cause : Nat)
  /-- FETCH_FAULT (R358). -/
  | fetchFault (code : Nat) (cause : Nat) (va : DWord)
  /-- ALLOWANCE_REFILL (R343). -/
  | allowanceRefill
  /-- ACK_RECEIVE (R343). -/
  | ackReceive
  /-- REQUEST_PACKET_RECEIVE (R345). -/
  | requestPacketReceive
  /-- INCARNATION_NOTICE (R345). -/
  | incarnationNotice
  /-- REQUEST_TIMEOUT (R346). -/
  | requestTimeout
  /-- PLANE_FAIL (R336). -/
  | planeFail
  /-- QUIESCE_NOTICE (R336). -/
  | quiesceNotice
  /-- REMAP_WRITE (R336). -/
  | remapWrite
  /-- DOMMASK_WRITE (R344). -/
  | dommaskWrite
  /-- DROPINC_READ (R351). -/
  | dropincRead
  /-- LQOWN_WRITE (R232). -/
  | lqownWrite
  /-- LQ_ENTRY_ARRIVAL (R231). -/
  | lqEntryArrival
  /-- GOVERNOR_INTERVAL (R394). -/
  | governorInterval
  /-- POOL_PUSH (R352). -/
  | poolPush
  /-- SCHEDULE_TICK (R314). -/
  | scheduleTick
  /-- SCHEDULE_ENTRY_WRITE (R313). -/
  | scheduleEntryWrite
  /-- FRONT_CREATE (R321). -/
  | frontCreate
  /-- GUST_PLACE (R322). -/
  | gustPlace
  /-- BAR4_ACCESS (R349). -/
  | bar4Access
  /-- HOST_WINDOW_ACCESS (R278). -/
  | hostWindowAccess
  /-- PRESET (R380). -/
  | preset
  /-- WATCHDOG_EXPIRE (R381). -/
  | watchdogExpire
  /-- POWER_ON (R388). -/
  | powerOn
  /-- PCIE_FUNDAMENTAL_RESET (R381). -/
  | pcieFundamentalReset
  /-- PCIE_HOT_RESET (R381). -/
  | pcieHotReset
  /-- VF_FLR (R381). -/
  | vfFlr
  /-- PF_FLR (R381). -/
  | pfFlr
  /-- THERMAL_TRIP (R397). -/
  | thermalTrip
  /-- SUPPLY_FAULT_TRIP (R381). -/
  | supplyFaultTrip
  /-- SECURITY_VIOLATION (R381). -/
  | securityViolation
  /-- FATAL_INTERNAL_ERROR (R381). -/
  | fatalInternalError
  /-- HBM_ECC_ERROR (R376). -/
  | hbmEccError
  /-- HBF_READ_ERROR (R376). -/
  | hbfReadError
  /-- CORE_SRAM_ERROR (R376). -/
  | coreSramError
  /-- DIE_LINK_ERROR (R376). -/
  | dieLinkError
  /-- PCIE_LINK_ERROR (R376). -/
  | pcieLinkError
  /-- PTP_SYNC (R356). -/
  | ptpSync
  /-- PTP_HOLDOVER (R356). -/
  | ptpHoldover
  /-- DBGACC (R383). -/
  | dbgacc
  /-- DBGEN_WRITE (R384). -/
  | dbgenWrite
  /-- DBG_TARGET_WRITE (R385). -/
  | dbgTargetWrite
  /-- DBGSTAT_WRITE (R386). -/
  | dbgstatWrite
  /-- HALT_FRONT (R385). -/
  | haltFront
  /-- RESUME_FRONT (R385). -/
  | resumeFront
  /-- STEP_GUST (R385). -/
  | stepGust
  /-- READ_WINDOW_WORD (R385). -/
  | readWindowWord
  /-- WRITE_WINDOW_WORD (R385). -/
  | writeWindowWord
  /-- RESET_PARTITION (R385). -/
  | resetPartition
  /-- RESET_PACKAGE (R385). -/
  | resetPackage
  /-- DRAIN_FRONT (R371). -/
  | drainFront
  /-- INSTGO (R390). -/
  | instgo
  /-- ATTGO (R391). -/
  | attgo
  /-- ATT_PARAM_WRITE (R391). -/
  | attParamWrite
  /-- FEATACC_WRITE (R392). -/
  | feataccWrite
  /-- REGISTER_WRITE (R5). -/
  | registerWrite
  /-- RECEIVED_COUNT_REPORT (R336). -/
  | receivedCountReport
  /-- REMAP_ANSWER_TIMEOUT (R337). -/
  | remapAnswerTimeout
  /-- SUPPLY_RAIL_RECOVERY (R381). -/
  | supplyRailRecovery
  /-- THERMAL_TRIP_RECOVERY (R381). -/
  | thermalTripRecovery
  /-- INSTALLATION_COMPLETE (R390). -/
  | installationComplete
  /-- ATTESTATION_REPORT_WRITTEN (R391). -/
  | attestationReportWritten
  deriving DecidableEq, Repr

end Sys2Proof
end

