-- ==== Sys2Proof/Machine/State.lean ====
section
/-! DEFINITION. The state of one package (spec/01, 10 to 14): gusts, cores, dies, fronts, instances, the hub, memory, and
the model's own fields; and the state after reset. Plain data throughout. -/

namespace Sys2Proof.Machine

/-! ## Registers -/

/-- A drift record (R27): symbol, kind 0 to 4, a, b. -/
structure Drift where
  sym : Nat
  kind : Nat
  a : Word
  b : DWord
  deriving DecidableEq, Repr

/-- A register or latch value with its shape tag (R21): G 32 lanes, U one value, L base and stride, D a drift record over
the values that its general storage holds (R29). -/
inductive Val where
  | g (xs : List Word)
  | u (v : Word)
  | l (base stride : Word)
  | d (r : Drift) (under : List Word)
  deriving DecidableEq, Repr

/-- A bypass latch (R18 to R20): empty with the cause that FLT.LATCH would report, or a value. -/
inductive Latch where
  | empty (cause : Nat)
  | val (v : Val)
  deriving DecidableEq, Repr

/-- The register window of a moment (R15, R38): the window base, and whether v0 to v15 named the trap bank. -/
structure Window where
  wb : Nat := 0
  trap : Bool := false
  deriving DecidableEq, Repr

/-- A register write that a reply brings (R153): the field that names the register, its lanes and its tag. -/
structure RegWrite where
  field : Nat
  mask : Word
  vals : List Word
  uniform : Bool
  deriving DecidableEq, Repr

/-- A translation (R292, R294): virtual page and size code, the frame, permissions and format; peer, its generation. -/
structure Xlat where
  part : Nat
  asid : Nat
  vbase : Nat
  size : Nat
  gen : Nat
  pa : Nat
  peer : Nat
  r : Bool
  w : Bool
  a : Bool
  x : Bool
  tier : Nat
  cap : Bool
  mig : Nat
  fmt : Nat
  planes : Nat
  blen : Nat
  outl : Bool
  deriving DecidableEq, Repr

/-- What an instruction that waits has found and done: the translations and the absent pages (R163); whether the replies of
an attention form's requests have arrived (R341); the lines that it has been charged for (R177); the requests of the entries
that its release has drained, when it has, and whether the release is done (R181). -/
structure Pages where
  found : List Xlat := []
  absent : List Nat := []
  served : Bool := false
  charged : List (Nat × Nat) := []
  drained : Option (List Nat) := none
  released : Bool := false
  deriving DecidableEq, Repr

/-- A line of a peer as an earlier request of it has seen it (R335): its bytes, the granules whose memory tag was set, and
whether it carried poison. -/
structure SeenLine where
  line : Nat
  bytes : List Byte
  tags : List Nat
  poison : Bool
  deriving DecidableEq, Repr

/-- How a read of a blocking access gives its words: a plain or uniform load of size K, a plane-tile load of K, a capability
load, or an atomic of an operation and size. -/
inductive Serve where
  | plain (k : Nat)
  | tile (k : Nat)
  | cap
  | atomic (op size : Nat)
  deriving DecidableEq, Repr

/-- A lane's read that its home has still to serve (R153): the lane, the page, the domain address, the element index of LDX,
and the operand and comparand of an atomic. -/
structure LaneRead where
  lane : Nat
  x : Xlat
  dom : Nat
  idx : Nat := 0
  b : Nat := 0
  cmp : Nat := 0
  deriving DecidableEq, Repr

/-- What a blocking access does when its replies have arrived (R153, R341): the registers it writes, the capability tag of
the quad it writes, the lanes done, the flags NV that LDX sets, the lines requested, as (peer, line), when they were, each
lane done with the peer of its address and the address; the reads that the home serves before the reply leaves it, and
whether other lanes have faulted (R193), so that the entry is pending until the replies are there (R366). The registers are
those of the window at the issue (R15). num is its place among the requests sent; what later requests of its lines have
found it to see, seen, and of an atomic the old values, by lane (R335). drains says that it is an acquire whose scope holds
the targets of buffered lines (R178, R181). -/
structure Reply where
  window : Window := {}
  writes : List RegWrite
  capQuad : Option (Nat × Bool)
  done : Word
  nv : Word
  lines : List (Nat × Nat)
  sentAt : Nat := 0
  /-- the requests wait in the hub (R337, R344) -/
  held : Bool := false
  places : List (Nat × Nat × DWord) := []
  serve : Option (Serve × List LaneRead) := none
  faulted : Bool := false
  num : Nat := 0
  seen : List SeenLine := []
  olds : Tab Nat := []
  drains : Bool := false
  deriving DecidableEq, Repr

/-- The requests of an attention form or of DLWAIT that are out (R341): the lines, as (peer, line), Active() and the address
which a failure reports, when they were sent, whether they wait in the hub (R337, R344), and whether all the replies have
arrived. -/
structure FormWait where
  lines : List (Nat × Nat)
  mask : Word
  addr : Nat
  sentAt : Nat
  held : Bool := false
  arrived : Bool := false
  deriving DecidableEq, Repr

/-- Why a slot waits (R325, R41). A condition wait issues its group anew when the condition no longer holds it; a reply or
barrier wait is ended by its event. -/
inductive Wait where
  /-- 1: the replies of a blocking access -/
  | reply (r : Reply)
  /-- 1: a reply slot (R341) -/
  | replySlot (n : Nat)
  /-- 1: the replies of an attention form (R341), which is performed when they have arrived -/
  | form (f : FormWait)
  /-- 2: a drift symbol that a register which the replies write holds (R24); the replies have arrived -/
  | landed (r : Reply) (sym : Nat)
  /-- 1: every earlier access to be performed at a scope (R180; at scope 1 the gust's loads), and the acknowledgements of
  the requests of the entries that a release drained (R340) -/
  | fence (scope : Nat) (drained : List Nat)
  /-- 1: the completion of writes to host memory (R183) -/
  | flush (requests : List Nat)
  /-- 1: a counter that would pass 63 (R35) -/
  | counterFull (c : Nat)
  /-- 1: unfinished vocabulary tasks that name a heap unit (R235) -/
  | heap (unit : Nat)
  /-- 1: a scratchpad lock that another gust holds (R169, R170) -/
  | lock (locks : List Nat)
  /-- 2: a symbol (R30) -/
  | drift (sym : Nat)
  /-- 2: a free symbol or room for D registers (R31) -/
  | symbol
  /-- 2, then 4: drift symbols resolved and c0 to c5 zero before a REGROUP arrives (R130) -/
  | quiet
  /-- 3: allowance for a peer (R177) -/
  | headwind (peer : Nat)
  /-- 4: completion of the phase of a cohort counter; what the arrival was (0 BAR, 1 BARWT, 2 REGROUP) -/
  | barrier (die counter kind : Nat)
  /-- 4: the counter to return to OPEN before an arrival (R134) -/
  | drain (die counter kind : Nat)
  /-- 4: the gust's held arrival to be applied (R135) -/
  | held (die counter : Nat)
  /-- 5: a counter at or below n (R185) -/
  | sb (c n : Nat)
  /-- 6: a timeline (R186) -/
  | timeline (eng : Nat) (n : Nat)
  /-- 6: the 64-bit word at an address that has to reach a target, or a deadline (R238) -/
  | dlwait (va target deadline : Nat)
  /-- 1: leave of the die governor (R202) -/
  | leave
  /-- 7: range-scoreboard entries that overlap a range (R168) -/
  | range (lo hi : Nat)
  deriving DecidableEq, Repr

/-- A PC slot (R9, R18). pages: the translations that a group which waits has found and holds (R163, R296); waitNo: the place
of its wait in the order in which slots blocked (R325); blk: the 32-byte block of its last fetched word (R279). Until the
first result of a new path its latches report cause 1, which the spec leaves open (DESIGN CHOICE, log 42). -/
structure Slot where
  pc : BitVec 56 := 0
  mask : Word := 0
  join : BitVec 56 := 0
  latches : List Latch := List.replicate 8 (.empty 1)
  wait : Option Wait := none
  /-- the group after the one that waits -/
  waitNext : BitVec 56 := 0
  waitNo : Nat := 0
  pages : Option Pages := none
  blk : Option Nat := none
  deriving DecidableEq, Repr

/-- A drift symbol (R28): its state, captured mask, load size code, signedness, uniform-load bit, the raw loaded words and
the lanes whose reply carries poison (R165); the lines a remote load requested, as (peer, line), when they were, whether the
requests wait in the hub (R337, R344), the domain address that each lane reads, the generation of the translations that it
holds (R296), and the load's group; its place among the requests sent, and the lines that later requests have found it to
see (R335). -/
structure Sym where
  /-- 0 free, 1 outstanding, 2 landed -/
  state : Nat := 0
  mask : Word := 0
  size : Nat := 2
  signed : Bool := false
  uniform : Bool := false
  raw : List Word := []
  poison : Word := 0
  lines : List (Nat × Nat) := []
  sentAt : Nat := 0
  held : Bool := false
  doms : List Nat := []
  gen : Nat := 0
  pc : BitVec 56 := 0
  num : Nat := 0
  seen : List SeenLine := []
  deriving DecidableEq, Repr

/-- A wait at a barrier that a trap has interrupted (R150): what the slot waits for, none when its phase has completed since,
and the group after it. -/
structure KeptWait where
  wait : Option Wait
  next : BitVec 56
  deriving DecidableEq, Repr

/-- The trap-return record (R362, R367), kind 1 user, 2 supervisor; and the barrier wait that the trap interrupted. -/
structure TrapRet where
  slotB : Bool
  pc : BitVec 56
  mask : Word
  join : BitVec 56
  kind : Nat
  kept : Option KeptWait := none
  deriving DecidableEq, Repr

/-- A posted operation that has not completed (R176): its counter, its group, the remote lines it still waits for with the
lanes whose data lies on them, and whether HFLUSH posted it. -/
structure Posted where
  id : Nat
  counter : Option Nat
  pc : BitVec 56
  lines : List (Nat × Nat × Word)
  deriving DecidableEq, Repr

/-- A REGROUP that has arrived (R130): its slot and that slot's mask, the window of its issue (R15), the register that takes
its flag (none with W = 1), the first register and count of its live range, whether the gust is eligible, and the flag of a
phase that completed while the gust was swapped out (R132). -/
structure Regroup where
  slotB : Bool
  mask : Word
  window : Window := {}
  dest : Option Nat
  first : Nat
  count : Nat
  eligible : Bool
  flag : Option Nat := none
  deriving DecidableEq, Repr

/-- An operation of a gust that its barrier unit has not counted yet (R135, R136): the counter, the kind (0 BAR, 1 BARARR, 2
REGROUP, 3 departure, 4 join), its slot, and the earlier accesses that have still to be performed: drift symbols, slots whose
replies are out, and posted operations that stand in the core's buffer. -/
structure UnitOp where
  die : Nat
  counter : Nat
  kind : Nat
  slotB : Bool
  syms : List Nat
  slots : List Bool
  stores : List Nat
  deriving DecidableEq, Repr

/-- A gust (R9 to R42). -/
structure Gust where
  gustId : Nat := 0
  /-- the front's key in State.fronts -/
  front : Nat := 0
  a : Slot := {}
  b : Slot := {}
  /-- the next slot to issue, 0x03D of the save area -/
  nextB : Bool := false
  dsp : Nat := 0
  wb : Nat := 0
  alloc : Nat := 8
  gbud : Nat := 0
  gbudRefused : Bool := false
  lmask : Word := 0
  /-- the registers written since the launch, by absolute index; any other holds U 0 -/
  regs : Tab Val := []
  trapBank : Tab Val := []
  capTags : List Nat := []
  trapCapTags : List Nat := []
  /-- m1 to m7 -/
  masks : List Word := [0, 0, 0, 0, 0, 0, 0]
  fNX : Word := 0
  fUF : Word := 0
  fOF : Word := 0
  fDZ : Word := 0
  fNV : Word := 0
  ten : BitVec 5 := 0
  members : List (BitVec 16) := [0, 0, 0, 0]
  renumbered : Bool := false
  xpc : DWord := 0
  xfpc : DWord := 0
  xaddr : List DWord := []
  xmask : Word := 0
  xother : Word := 0
  xdone : Word := 0
  xcause : Word := 0
  xdest : Word := 0
  frame : BitVec 56 := 0
  /-- the physical address of the context's save area (R33, R41) -/
  saveArea : Nat := 0
  syms : List Sym := [{}, {}, {}, {}, {}, {}, {}, {}]
  trapRet : Option TrapRet := none
  /-- a pending trap entry: 0 none, 1 user, 2 supervisor (R367) -/
  pending : Nat := 0
  /-- the handler that runs: 0 none, 1 user, 2 supervisor -/
  handler : Nat := 0
  /-- while a handler runs: the other slot was live at the entry and issues nothing until TRET (R362) -/
  frozen : Bool := false
  halted : Bool := false
  stepOnce : Bool := false
  retiring : Bool := false
  /-- the slots whose REGROUP has still to write its flag, with the absolute register that counts as G until then (R130) -/
  flagReserved : List (Bool × Nat) := []
  /-- the REGROUPs of the slots that have arrived -/
  regroup : List Regroup := []
  unitOps : List UnitOp := []
  posted : List Posted := []
  twin : Option Nat := none
  /-- instruction words prefetched for the gust, by 32-byte block of the domain address (R182, R279) -/
  prefetch : Tab (List Byte) := []
  /-- TRET 1: the slots whose next group runs only the lanes outside a mask, XDONE when TRET issued (R149, R193) -/
  replay : List (Bool × Word) := []
  /-- the replays of paths on the divergence stack, by the entry's index -/
  stackReplay : List (Nat × Word) := []
  /-- the slot and the group of the BKPT at which the gust has halted (R148) -/
  bkptAt : Option (Bool × BitVec 56) := none
  deriving DecidableEq, Repr

/-! ## Engines -/

/-- An accepted command (R195, R197); the grammar-mask case that has released a vocabulary task (R212: 0 MASKVA, 1 FALLVA,
2 deferred). -/
structure Cmd where
  num : Nat
  bytes : List Byte
  core : Nat
  supervisor : Bool
  mask : Option Nat := none
  deriving DecidableEq, Repr

/-- A started command (R327): whether its effect is done; for a command that swaps pages (R297), the step that it has
reached, G₁, and how many pages have been swapped; for a copy command that has begun, the parts that it has still to move,
and whether they are single bytes (R214); the task engine of a matrix task (R326). -/
structure Started where
  cmd : Cmd
  done : Bool := false
  phase : Nat := 0
  gen : Nat := 0
  pages : Nat := 0
  /-- the new page of REQNT's page in progress, and how many of its slots are converted (R297, R327) -/
  fresh : Option Nat := none
  slots : Nat := 0
  left : Option (Bool × List Nat) := none
  engine : Nat := 0
  deriving DecidableEq, Repr

/-- An engine context (R194, R195, R200). -/
structure Eng where
  front : Nat
  cls : Nat
  ctx : Nat
  accepted : Nat := 0
  timeline : Nat := 0
  queue : List Cmd := []
  started : List Started := []
  completed : List Nat := []
  faulted : Bool := false
  deriving DecidableEq, Repr

/-- A range-scoreboard entry (R198): its number 0 to 15, scratchpad bytes lo up to hi, owned by command num of an engine
context. -/
structure RsbEntry where
  ix : Nat
  lo : Nat
  hi : Nat
  eng : Nat
  num : Nat
  deriving DecidableEq, Repr

/-- A heap unit (R210). -/
structure Heap where
  pairs : List (Word × Nat) := []
  m : Word := 0xFF800000
  s : Word := 0
  seen : Nat := 0
  topk : Nat := 0
  topp : Word := 0
  status : Nat := 0
  deriving DecidableEq, Repr

/-- A write-combining entry (R338): peer, line or word address, kind (none a store, some an atomic: operation and size,
joinable), data bytes or operand, and the posted operations merged into it, as (gust key, id, lanes). -/
structure WcEntry where
  peer : Nat
  addr : Nat
  atomic : Option (Nat × Nat × Bool)
  bytes : List (Nat × Byte) := []
  /-- the granules of the line whose memory tag the entry sets (R190) -/
  tags : List Nat := []
  operand : DWord := 0
  comparand : DWord := 0
  time : Nat := 0
  part : Nat := 0
  posters : List (Nat × Nat × Word) := []
  deriving DecidableEq, Repr

/-- A quadrant (R323): the pointer P, the age of each of the 32 positions, and the positions a yielding gust stands
behind. -/
structure Quad where
  p : Nat := 0
  ages : Tab Nat := []
  behind : Tab (List Nat) := []
  deriving DecidableEq, Repr

/-- A context of a core in its save areas, or loaded from them (R370): its number, its graph instance, and its matrix tasks that had been accepted
and not issued, as (context, number, scratchpad interval). -/
structure Saved where
  n : Nat
  inst : Nat
  tasks : List (Nat × Nat × Option (Nat × Nat)) := []
  deriving DecidableEq, Repr

/-- A core (R14, R166, R198, R210, R338, R343). -/
structure Core where
  quads : List Quad := [{}, {}, {}, {}]
  scratch : Tab Byte := []
  accum : Tab Byte := []
  /-- lock numbers (bank·8 + bit) with the gust that holds each -/
  locks : Tab Nat := []
  rsb : List RsbEntry := []
  wcb : List WcEntry := []
  aw : Tab Nat := []
  /-- accepted matrix tasks in acceptance order, as (context, number) -/
  tasks : List (Nat × Nat) := []
  /-- tasks of contexts loaded again that wait for their range-scoreboard entries (R370): context, number and interval -/
  requeue : List (Nat × Nat × Option (Nat × Nat)) := []
  heaps : List Heap := [{}, {}, {}, {}]
  tlb : List Xlat := []
  icache : Tab (List Byte) := []
  retired : Bool := false
  /-- the fully loaded context that the shadow bank holds (R315) -/
  shadow : Option Saved := none
  /-- contexts of this core in save areas, the next to be loaded first; their gusts stand in State.gusts under keys of
  their number -/
  saved : List Saved := []
  deriving DecidableEq, Repr

/-- A cohort counter of a die barrier unit (R134). held lists the arrivals the unit holds in DRAIN, in order, each with
its gust and kind (0 BAR, 2 REGROUP, 1 BARARR); waiters are the gusts waiting for the phase; arrived, rising, the gusts
whose arrival the phase has counted. -/
structure Counter where
  front : Nat
  e : Nat
  a : Nat := 0
  s : Nat := 0
  dp : Nat := 0
  p : BitVec 16 := 0
  drain : Bool := false
  held : List (Nat × Bool × Nat) := []
  waiters : List (Nat × Bool × Nat) := []
  arrived : List Nat := []
  deriving DecidableEq, Repr

/-- A leave request (R328, R395): the partition, the context and number of the command (for an instruction, 1000000 plus twice
the gust's key plus its slot, and 0), the core, the cost, and whether it is granted. -/
structure LeaveReq where
  part : Nat
  eng : Nat
  num : Nat
  core : Nat
  cost : Nat
  granted : Bool := false
  deriving DecidableEq, Repr

/-- A compute die (R134, R294, R394 to R397). -/
structure Die where
  counters : Tab Counter := []
  tlb : List Xlat := []
  /-- tokens of the interval and how many are spent -/
  budget : Nat
  spent : Nat := 0
  /-- bit 8 of LEAVEQ (R239); set before the first interval after a reset, for which the spec gives no value (DESIGN CHOICE, log
  3) -/
  grantedAll : Bool := true
  /-- intervals without a grant while requests wait -/
  starved : Nat := 0
  halvings : Nat := 0
  leave : List LeaveReq := []
  /-- the partition that was granted leave last, and how often it has been in this turn of the round robin (R395) -/
  served : Nat := 0
  servedTimes : Nat := 0
  /-- the context of each copy engine that it served last (R327) -/
  copyLast : Tab Nat := []
  temp : Nat := 0
  deriving DecidableEq, Repr

/-! ## Fronts, instances and the schedule -/

/-- A cohort of a front (R13): open or closed, its counter. -/
structure Cohort where
  isOpen : Bool
  counter : Nat
  form : Nat
  first : Nat
  count : Nat
  step : Nat
  deriving DecidableEq, Repr

/-- A front (R12, R317, R322). -/
structure Front where
  frontId : Word
  part : Nat
  asid : Nat
  inst : Nat
  node : Nat
  die : Option Nat := none
  prio : Nat := 0
  preempt : Bool := false
  alloc : Nat := 8
  gbud : Nat := 0
  scratch : Nat := 0
  accum : Nat := 0
  mxctx : Nat := 0
  cpctx : Nat := 0
  lastLanes : Nat := 0
  gusts : Nat := 1
  placed : Nat := 0
  /-- the next GUSTID (R129) -/
  spawn : Nat := 1
  retired : Nat := 0
  entry : BitVec 56 := 0
  dieClass : Nat := 0
  cohorts : List Cohort := []
  shapes : BitVec 56 := 0
  twin : Bool := false
  uvec : BitVec 56 := 0
  svec : BitVec 56 := 0
  scratchBase : Tab Nat := []
  accumBase : Tab Nat := []
  /-- matrix contexts granted on each core: the physical numbers of contexts 0 up, then of context 15 -/
  mxPhys : Tab (List Nat) := []
  cpPhys : List Nat := []
  user : Word := 0
  /-- the front has been ended as a recovery action (R318) -/
  ended : Bool := false
  drained : Bool := false
  created : Nat := 0
  /-- posted operations of retired gusts that have not completed (R128) -/
  posted : List Posted := []
  /-- operations of retired gusts that the barrier unit has still to apply (R135), in order, each with the key of its gust -/
  unitOps : List (Nat × UnitOp) := []
  deriving DecidableEq, Repr

/-- The values of a node in force (R317). -/
structure Node where
  entry : BitVec 56
  gusts : Nat
  alloc : Nat
  gbud : Nat
  scratch : Nat
  accum : Nat
  dieClass : Nat
  preempt : Bool
  prio : Nat
  mxctx : Nat
  cpctx : Nat
  lastLanes : Nat
  preds : List Nat
  /-- declared ranges: base, length, W -/
  ranges : List (Nat × Nat × Bool)
  cohorts : List Cohort
  shapes : BitVec 56
  user : Word
  /-- 0 WAITING, 1 READY, 2 RUNNING, 3 DONE, 4 FAILED (R318) -/
  state : Nat := 0
  /-- the place of the moment at which the node became READY among such moments (R321, log 58) -/
  readyAt : Nat := 0
  deriving DecidableEq, Repr

/-- A graph instance (R316 to R319). -/
structure Inst where
  sched : Nat
  part : Nat
  asid : Nat
  order : Nat
  user : Word
  nodes : List Node
  slotEnd : Nat
  deriving DecidableEq, Repr

/-- A schedule entry (R312). -/
structure Sched where
  valid : Bool := false
  defer : Bool := false
  part : BitVec 4 := 0
  asid : BitVec 8 := 0
  slot : Word := 0
  start : DWord := 0
  period : Word := 0
  skips : BitVec 16 := 0
  defers : BitVec 16 := 0
  graph : BitVec 56 := 0
  next : DWord := 0
  inst : DWord := 0
  unfinished : Bool := false
  deferred : Bool := false
  deriving DecidableEq, Repr

/-! ## The hub -/

/-- A prefetch record that runs (R310, R311). -/
structure PfRec where
  part : Nat
  asid : Nat
  sched : Nat
  mark : Nat
  va : Nat
  pages : Nat
  tier : Nat
  deadline : Option Nat
  /-- the pages that are behind it, and the step of the page in progress: 0 not begun, 1 waiting for OLDEST, 2 copying,
  3 waiting for a pool; with its G₁ -/
  done : Nat := 0
  phase : Nat := 0
  gen : Nat := 0
  swapped : Bool := false
  finished : Bool := false
  deriving DecidableEq, Repr

/-- A reclaim-list page (R299): Listed with its generation, waiting for OLDEST of its address space. -/
structure Listed where
  asid : Nat
  pa : Nat
  size : Nat
  tier : Nat
  gen : Nat
  deriving DecidableEq, Repr

/-- A partition: its block of registers (12 Table 6, 13 Table 9), its pools and its reclaim list. -/
structure Part where
  running : Bool := false
  resetting : Bool := false
  wcAge : BitVec 7 := 8
  pfBase : List (BitVec 56) := List.replicate 8 0
  pfAs : List (BitVec 8) := List.replicate 8 0
  pfMiss : List Word := List.replicate 8 0
  /-- LAST(k); 256 at partition start (R310) -/
  pfLast : List Nat := List.replicate 8 256
  apBase : BitVec 44 := 0
  prange : List (DWord × DWord) := List.replicate 4 (0, 0)
  prstCause : Byte := 1
  wdog : Word := 0
  wdLeft : Word := 0
  haltEn : Bool := false
  /-- TWIN0 to TWIN7, one bit for each address space -/
  twin : BitVec 256 := 0
  uvec : Tab (BitVec 56) := []
  svec : Tab (BitVec 56) := []
  pools : List (List Nat) := List.replicate 6 []
  /-- when the vector of each empty pool was last raised (R302) -/
  poolTold : List (Option Nat) := List.replicate 6 none
  listed : List Listed := []
  deriving DecidableEq, Repr

/-- A loop queue (R230, R231). -/
structure LoopQueue where
  entries : List (List Byte) := []
  inFlight : List (List Byte) := []
  e : Word := 1
  dup : Nat := 0
  stopped : Bool := false
  deriving DecidableEq, Repr

/-- What the packet of a posted request writes at its home: a write-combining entry (R338), or a triple of RINGX, by the byte
runs of its destination (R347). -/
inductive Packet where
  | entry (e : WcEntry)
  | triple (runs : List (Nat × Nat)) (words : List Word)
  deriving DecidableEq, Repr

/-- A request or line sent to a peer and not yet answered or acknowledged (R341, R343, R345): seq is its place among the
packets sent to the peer on its plane (R336). posters names the posted operations that wait for it, engine the context and
number of the command (R347). -/
structure Request where
  id : Nat
  peer : Nat
  part : Nat
  plane : Nat
  line : Nat
  core : Nat
  /-- an allowance unit of the partition stands spent on it -/
  unit : Bool
  posters : List (Nat × Nat × Word)
  /-- the packet that the hub still holds: its home has not performed it -/
  packet : Option Packet := none
  engine : Option (Nat × Nat) := none
  /-- it waits in the hub: the peer's incarnations are not known, or a remap runs (R337, R344) -/
  heldInHub : Bool := false
  sentAt : Nat := 0
  seq : Nat := 0
  deriving DecidableEq, Repr

/-- The remap procedure (R336, R337): the planes that have failed, when it began and when the peers were last asked, the
reports that are missing, as (peer, plane), and the counts received, by peer·8 + plane. -/
structure Remap where
  failed : List Nat
  next : BitVec 24
  began : Nat
  asked : Nat
  waiting : List (Nat × Nat)
  counts : Tab Nat
  deriving DecidableEq, Repr

/-- The debug block (13 Table 12) and the DBGACC capture (13 Table 11). -/
structure Debug where
  en : Bool := false
  part : BitVec 4 := 0
  front : Word := 0
  gust : BitVec 16 := 0
  /-- DBGSTAT[1:0] -/
  st : BitVec 2 := 0
  reason : BitVec 4 := 0
  bkpt : Bool := false
  evFront : Word := 0
  evGust : BitVec 20 := 0
  /-- DBGLOC, as it was last brought up to date -/
  loc : BitVec 17 := 0
  wAddr : BitVec 44 := 0
  wData : Word := 0
  /-- the command that runs (0 none) -/
  cmd : Nat := 0
  capData : Word := 0
  capSt : BitVec 2 := 0
  deriving DecidableEq, Repr

/-- The security processor (14 Table 1). -/
structure Security where
  bootStat : Byte := 0
  featAcc : BitVec 128 := 0
  /-- the accepted set that the write of FEATACC3 has fixed (R392) -/
  featSet : BitVec 128 := 0
  featLock : Bool := false
  idKey : List Byte := []
  ownKeys : List (List Byte) := List.replicate 4 (List.replicate 64 0)
  instPa : BitVec 44 := 0
  instLen : Word := 0
  instStat : BitVec 3 := 0
  attNonce : List Byte := List.replicate 32 0
  attPa : BitVec 44 := 0
  attStat : BitVec 2 := 0
  /-- installed ranges: linked base, physical base, length (R390) -/
  ranges : List (Nat × Nat × Nat) := []
  m : List (List Byte) := List.replicate 8 (List.replicate 64 0)
  rollback : Word := 0
  bootNo : Nat := 0
  deriving DecidableEq, Repr

/-- The hub's registers (12 Table 5, 13 Table 9) and its records of the fabric. -/
structure Hub where
  remap : BitVec 24 := 0xFAC688
  planeStat : Byte := 0xFF
  peerId : BitVec 6 := 0
  domMask : DWord := 1
  share : List Byte := List.replicate 16 0
  leaveShare : List Byte := List.replicate 16 0
  poolShare : List Byte := List.replicate 16 0
  hbmShare : List Byte := List.replicate 16 0
  inc : List (BitVec 16) := List.replicate 16 0
  dropInc : Word := 0
  /-- LQOWN bytes that are not 0xFF -/
  lqOwn : Tab Byte := []
  ptpStat : BitVec 3 := 0
  now : DWord := 0
  /-- an offset that the clock has still to slew (R356) -/
  slew : Int := 0
  remapping : Option Remap := none
  /-- the incarnations received from each peer (R344) -/
  peerInc : Tab (List (BitVec 16)) := []
  requests : List Request := []
  nextReq : Nat := 0
  /-- request packets received and sent, by peer·8 + plane (R336) -/
  received : Tab Nat := []
  sentOn : Tab Nat := []
  /-- requests whose requester a partition reset has removed, and whose responses may still come (R345) -/
  lost : Nat := 0
  /-- when the last Sync message came (R356) -/
  lastSync : Nat := 0
  /-- PCI Express configuration space (R348) -/
  config : PciConfig := {}
  rstCause : Byte := 1
  rstCount : Word := 0
  /-- PCOREMAP bytes that are not 0xFF -/
  coreMap : Tab Byte := []
  pfRecs : Tab PfRec := []
  /-- loop queues: 2·pair forward, 2·pair + 1 return -/
  lq : Tab LoopQueue := []
  /-- pending MSI-X vectors, as function·16 + vector, and how often each has been delivered to the host (R350) -/
  msix : List Nat := []
  msixSent : Tab Nat := []
  /-- NOW when vector 0 of each function was last raised, and the functions that have records to raise it for (R350) -/
  msixLast : Tab Nat := []
  msixHeld : List Nat := []
  mW : Nat := 0
  /-- intervals of excursion (R396) -/
  excursion : Nat := 0
  /-- the trip that keeps the compute dies unpowered, by its reset cause: 0 none, 8 thermal, 13 supply (R381); its die and
  DETAIL (R376) -/
  trip : Nat := 0
  tripDie : Nat := 4
  tripDetail : List Byte := []
  deriving DecidableEq, Repr

/-! ## The whole machine -/

/-- A turn that the outside chooses: a position issues, with whether a debugger halt or a slot end falls due at the boundary
that ends its group (R366); or a step of opcode_table.json without an encoding happens. -/
inductive Turn where
  | issue (gust : Nat) (slotB : Bool) (cut : Bool := false)
  | event (i : Instr) (x : Input)
  deriving DecidableEq, Repr

/-- The state of the package. -/
structure State where
  gusts : Tab Gust
  /-- the twin of each twinned gust, by the gust's key (R372), and whether the twins stand in State.gusts at the moment -/
  twins : Tab Gust
  twinRun : Bool
  cores : Tab Core
  dies : List Die
  engs : Tab Eng
  fronts : Tab Front
  insts : Tab Inst
  sched : Tab Sched
  parts : List Part
  hub : Hub
  dbg : Debug
  sec : Security
  /-- memory by domain physical address: rising addresses, no listed byte 0 (R285) -/
  mem : List Host.Cell
  /-- the 16-byte granules whose memory tag is set (R190), rising -/
  memTags : List Nat
  /-- the poisoned 128-byte lines (R376), rising -/
  poison : List Nat
  /-- the gust slot that issues, and whether its slot B does -/
  cur : Nat
  curB : Bool
  /-- a debugger halt or a slot end falls due at the boundary that ends this step (R366) -/
  cut : Bool
  /-- what the current step's rule reads of the outside -/
  input : Input
  /-- what the last outside read returned -/
  busData : List Byte
  agenda : List Turn
  turn : Nat
  free : Nat
  nextFront : Nat
  nextInst : Nat
  nextPosted : Nat
  /-- the number of the next wait -/
  nextWait : Nat
  /-- the number of the next moment at which nodes become READY -/
  nextReady : Nat
  /-- a package reset holds the package: Configuration Request Retry Status (R382) -/
  inReset : Bool
  deriving DecidableEq, Repr

/-- Why the machine stops. Every stop is safe: it forbids a continuation and never invents a value. -/
inductive Fault where
  /-- an access of the outside to a physical address that no region of R286 holds; raised by memory reads and writes of
  steps whose rule names an address outside the map. Safe: the machine stops where the spec gives no location. -/
  | noSuchAddress (pa : Nat)
  deriving DecidableEq, Repr

/-- Why a step has no meaning in this state. -/
inductive Refusal where
  /-- an instruction whose meaning is not written. Safe: nothing happens. -/
  | notModelled (mnemonic : String)
  /-- exec of an instruction when no gust slot issues: the fetch that would bring it does not exist. Safe: nothing
  happens. -/
  | noIssuingGust
  /-- a step whose event cannot come about in this state (no such request, command, gust): the outside chose a turn that
  does not exist. Safe: nothing happens. -/
  | noSuchEvent
  deriving DecidableEq, Repr

/-- The outcome of a step of this machine. -/
abbrev Outcome := Host.Outcome State Fault Refusal

/-- The full token budget of a die: 4 for each core (R394). -/
def fullBudget (die : Nat) : Nat := if die < 2 then 384 else 256

/-- The package right after power-on (spec/12 Tables 5, 6; 13 Tables 9, 12; 14 Table 1; the rest by logs 2 to 5). -/
def State.reset : State where
  gusts := []
  twins := []
  twinRun := false
  cores := []
  dies := [{ budget := fullBudget 0 }, { budget := fullBudget 1 }, { budget := fullBudget 2 }, { budget := fullBudget 3 }]
  engs := []
  fronts := []
  insts := []
  sched := []
  parts := List.replicate 16 {}
  hub := {}
  dbg := {}
  sec := {}
  mem := []
  memTags := []
  poison := []
  cur := 0
  curB := false
  cut := false
  input := {}
  busData := []
  agenda := []
  turn := 0
  free := 0
  nextFront := 1
  nextInst := 0
  nextPosted := 0
  nextWait := 0
  nextReady := 0
  inReset := true

end Sys2Proof.Machine
end

