-- ==== Sys2Proof/Machine/Mem.lean ====
section
/-! DEFINITION. Memory: the bytes by domain physical address, the physical map (spec/10 R285 to R288, spec/12 R353), memory
tags and poison, and the fields of the host window that the hub alone writes. -/

namespace Sys2Proof.Machine

/-! ## Bytes -/

/-- What an address that is not listed reads as (log 2). -/
def memDefault : Byte := 0

/-- One byte of memory. -/
def memGet (m : List Host.Cell) (a : Nat) : Byte := tabGetD m a memDefault

/-- Writes one byte, keeping the canonical form. -/
def memSet (m : List Host.Cell) (a : Nat) (b : Byte) : List Host.Cell := if b = memDefault then tabDel m a else tabSet m a b

/-- Whether the keys of a table rise strictly, each at least lo. -/
def keysFrom {α : Type} : Nat → Tab α → Bool
  | _, [] => true
  | lo, (k, _) :: t => decide (lo ≤ k) && keysFrom (k + 1) t

/-- The canonical form of memory: rising addresses, no entry equal to what an unlisted address reads as. -/
def Memory.wf (m : List Host.Cell) : Bool := keysFrom 0 m && m.all fun c => c.2 != memDefault

/-- Writes bytes at consecutive addresses. -/
def memSetBytes : List Host.Cell → Nat → List Byte → List Host.Cell
  | m, _, [] => m
  | m, a, b :: bs => memSetBytes (memSet m a b) (a + 1) bs

/-- n bytes from an address up. -/
def memGetBytes (m : List Host.Cell) (a : Nat) : Nat → List Byte
  | 0 => []
  | n + 1 => memGet m a :: memGetBytes m (a + 1) n

/-- The number that bytes hold, least significant first (R3). -/
def natOfBytes : List Byte → Nat
  | [] => 0
  | b :: bs => b.toNat + 256 * natOfBytes bs

/-- n bytes of a number, least significant first (R3). -/
def bytesOf : Nat → Nat → List Byte
  | 0, _ => []
  | n + 1, x => BitVec.ofNat 8 x :: bytesOf n (x / 256)

/-- The n-byte number at an address. -/
def memNat (m : List Host.Cell) (a n : Nat) : Nat := natOfBytes (memGetBytes m a n)

/-- Bits hi to lo of a number (R43). -/
def bitsOf (x hi lo : Nat) : Nat := x / 2 ^ lo % 2 ^ (hi + 1 - lo)

/-- A set of numbers as a rising list. -/
def setAdd : List Nat → Nat → List Nat
  | [], n => [n]
  | k :: t, n => if n < k then n :: k :: t else if n = k then k :: t else k :: setAdd t n

/-! ## The physical map -/

/-- The regions of Table 1 of spec/10 (R286). -/
inductive Region where
  | hbm | hbf | host | window | onchip | unassigned
  deriving DecidableEq, Repr

/-- The region of a local physical address (R286). -/
def regionOf (pa : Nat) : Region :=
  if pa < 0x18000000000 then .hbm
  else if pa < 0x40000000000 then .unassigned
  else if pa < 0x80000000000 then .hbf
  else if pa < 0xC0000000000 then .host
  else if pa < 0xC0001000000 then .window
  else if pa < 0xD0000000000 then .unassigned
  else if pa < 0x100000000000 then .onchip
  else .unassigned

/-- The tier code of a region that a page table may name (R286). -/
def Region.tier? : Region → Option Nat
  | .hbm => some 0
  | .hbf => some 1
  | .host | .window => some 2
  | .onchip | .unassigned => none

/-- A domain physical address (R285). -/
def domainPa (peer pa : Nat) : Nat := peer * 2 ^ 44 + pa % 2 ^ 44
/-- The peer of a domain physical address (R285). -/
def peerOf (d : Nat) : Nat := d / 2 ^ 44
/-- The physical address within its peer (R285). -/
def localPa (d : Nat) : Nat := d % 2 ^ 44

/-- The own peer index. -/
def State.self (s : State) : Nat := s.hub.peerId.toNat
/-- The domain address of an own physical address. -/
def State.own (s : State) (pa : Nat) : Nat := domainPa s.self pa

/-- The base of the host window (R353). -/
def winBase : Nat := 0xC0000000000
/-- The partition area of a partition (R353, Table 7). -/
def partArea (q : Nat) : Nat := winBase + 0x100000 + q * 0x80000
/-- The address-space record of a space (R289, R353). -/
def asRec (q asid : Nat) : Nat := partArea q + 16 * asid
/-- The POP word of a pool (R302). -/
def poolPopPa (q i : Nat) : Nat := partArea q + 0x1000 + 16 * i
/-- The FILL word of a pool (R302). -/
def poolFillPa (q i : Nat) : Nat := poolPopPa q i + 8

/-- The pool whose POP word holds a byte, as (partition, pool) (R302). -/
def popWord? (pa : Nat) : Option (Nat × Nat) :=
  if winBase + 0x100000 ≤ pa ∧ pa < winBase + 0x900000 then
    let o := (pa - winBase - 0x100000) % 0x80000
    if 0x1000 ≤ o ∧ o < 0x1060 ∧ (o - 0x1000) % 16 < 8 then
      some ((pa - winBase - 0x100000) / 0x80000, (o - 0x1000) / 16)
    else none
  else none

/-- Whether an offset of a partition area is a field that only the hub writes (R353, Table 8: access HW, RS, RO; R289: GEN
and OLDEST). -/
def areaHwOnly (o : Nat) : Bool :=
  (decide (o < 0x1000) && decide (8 ≤ o % 16))
    || (decide (0x1000 ≤ o) && decide (o < 0x1060))
    || (decide (0x2000 ≤ o) && decide (o < 0x2004))
    || (decide (0x2008 ≤ o) && decide (o < 0x2010))
    || (decide (0x4000 ≤ o) && decide (o < 0x1C000))

/-- Whether a byte of the host window is one that only the hub writes (R288, R353, Tables 7 and 8). -/
def hubOnly (pa : Nat) : Bool :=
  if winBase ≤ pa ∧ pa < winBase + 0x1000000 then
    let o := pa - winBase
    if o < 0x10000 then true
    else if o < 0x11000 then areaHwOnly (o - 0x10000 + 0x2000)
    else if o < 0x21000 then true
    else if 0x100000 ≤ o ∧ o < 0x900000 then areaHwOnly ((o - 0x100000) % 0x80000)
    else false
  else false

/-- Reads one byte at a domain address: a POP word reads 0 (R302). -/
def State.readByte (s : State) (d : Nat) : Byte :=
  match popWord? (localPa d) with
  | some _ => 0
  | none => memGet s.mem d

/-- Reads n bytes at a domain address. -/
def State.readBytes (s : State) (d : Nat) : Nat → List Byte
  | 0 => []
  | n + 1 => s.readByte d :: s.readBytes (d + 1) n

/-- Reads an n-byte number at a domain address. -/
def State.readNat (s : State) (d n : Nat) : Nat := natOfBytes (s.readBytes d n)

/-- The hub's own write of bytes, with no other effect. -/
def State.hubWrite (s : State) (d : Nat) (bs : List Byte) : State := { s with mem := memSetBytes s.mem d bs }

/-- A write of one byte by a gust, an engine or the host: a hub-only field keeps its value (R353); the granule's memory
tag is cleared (R190). -/
def State.storeByte (s : State) (d : Nat) (b : Byte) : State :=
  if hubOnly (localPa d) then s
  else { s with mem := memSet s.mem d b, memTags := s.memTags.filter (· != d / 16) }

/-- Writes bytes one by one. -/
def State.storeBytesRaw (s : State) (d : Nat) : List Byte → State
  | [] => s
  | b :: bs => (s.storeByte d b).storeBytesRaw (d + 1) bs

/-- Whether any of n bytes at a domain address lies on a poisoned line (R376). -/
def State.poisoned (s : State) (d n : Nat) : Bool :=
  s.poison.any fun line => decide (line * 128 < d + n) && decide (d < line * 128 + 128)

/-- The memory tag of the granule at a domain address (R190). -/
def State.memTag (s : State) (d : Nat) : Bool := s.memTags.contains (d / 16)

/-- Sets or clears the memory tag of a granule (R190). -/
def State.setMemTag (s : State) (d : Nat) (t : Bool) : State :=
  { s with memTags := if t then setAdd s.memTags (d / 16) else s.memTags.filter (· != d / 16) }

/-! ## Lookups -/

def State.core (s : State) (c : Nat) : Core := tabGetD s.cores c {}
def State.setCore (s : State) (c : Nat) (x : Core) : State := { s with cores := tabSet s.cores c x }
def State.die (s : State) (d : Nat) : Die := s.dies.getD d { budget := 0 }
def State.setDie (s : State) (d : Nat) (x : Die) : State := { s with dies := listSet s.dies d x }
def State.part (s : State) (q : Nat) : Part := s.parts.getD q {}
def State.setPart (s : State) (q : Nat) (x : Part) : State := { s with parts := listSet s.parts q x }
def State.front? (s : State) (f : Nat) : Option Front := tabGet? s.fronts f
def State.setFront (s : State) (f : Nat) (x : Front) : State := { s with fronts := tabSet s.fronts f x }
def State.gust? (s : State) (k : Nat) : Option Gust := tabGet? s.gusts k
def State.setGust (s : State) (k : Nat) (x : Gust) : State := { s with gusts := tabSet s.gusts k x }
def State.eng? (s : State) (k : Nat) : Option Eng := tabGet? s.engs k
def State.setEng (s : State) (k : Nat) (x : Eng) : State := { s with engs := tabSet s.engs k x }

/-- The front of a gust. -/
def State.frontOf (s : State) (g : Gust) : Front :=
  (s.front? g.front).getD { frontId := 0, part := 0, asid := 0, inst := 0, node := 0 }

/-- A byte range of a core's scratchpad. -/
def Core.spBytes (c : Core) (a n : Nat) : List Byte := memGetBytes c.scratch a n
/-- The front's scratchpad base on a core (R322). -/
def Front.spBase (f : Front) (core : Nat) : Nat := tabGetD f.scratchBase core 0

/-- The core of a gust: the key of a resident gust is core·128 + slot (R354); that of a gust in save area n of its core is
(core + 320·n)·128 + slot, with n at least 1. -/
def coreOf (k : Nat) : Nat := k / 128 % 320
/-- The core of the issuing gust. -/
def State.curCore (s : State) : Nat := coreOf s.cur
/-- Whether a gust is resident in a bank of its core. -/
def resident (k : Nat) : Bool := k / 128 < 320
/-- The save area of a gust: 0 for a resident one. -/
def saveNo (k : Nat) : Nat := k / 128 / 320
/-- Whether a gust is in the active bank of its core. -/
def inActive (k : Nat) : Bool := resident k && k % 128 < 64
/-- The gust slot within its core: 0 to 63 the active bank, 64 to 127 the shadow bank (R354). -/
def slotOf (k : Nat) : Nat := k % 128
/-- The die of a core (R354). -/
def dieOf (c : Nat) : Nat := if c < 96 then 0 else if c < 192 then 1 else if c < 256 then 2 else 3
/-- Scratchpad bytes of a core (R354). -/
def scratchSize (c : Nat) : Nat := if c < 192 then 0x200000 else 0x100000
/-- Accumulator bytes of a core (R354). -/
def accumSize (c : Nat) : Nat := if c < 192 then 0x80000 else 0x40000

/-- The next free value (log 6). -/
def State.freshNat (s : State) : Nat × State := (Config.freeNat s.free, { s with free := s.free + 1 })
/-- The next free choice (log 6). -/
def State.freshBool (s : State) : Bool × State := (Config.freeBool s.free, { s with free := s.free + 1 })

/-- Advances NOW to t, never back (R356). -/
def State.toNow (s : State) (t : Nat) : State :=
  if s.hub.now.toNat < t then { s with hub := { s.hub with now := BitVec.ofNat 64 t } } else s

end Sys2Proof.Machine
end

