-- ==== Sys2Proof/Machine/Walk.lean ====
section
/-! DEFINITION. The page-table walk (spec/10 R289 to R293), and the writes of bytes that keep the installed ranges (spec/14
R390). -/

namespace Sys2Proof.Machine

/-- The bytes of a page of a size code: 0 for 64 KiB, 1 for 2 MiB, 2 for 1 GiB (R299). -/
def pageBytes (size : Nat) : Nat := if size = 0 then 0x10000 else if size = 1 then 0x200000 else 0x40000000

/-- The generation of an address space (R289). -/
def State.gen (s : State) (q asid : Nat) : Nat := memNat s.mem (s.own (asRec q asid + 8)) 4 % 2 ^ 24
/-- The oldest generation of an address space that a TLB holds (R289). -/
def State.oldest (s : State) (q asid : Nat) : Nat := memNat s.mem (s.own (asRec q asid + 12)) 4 % 2 ^ 24

/-- What a walk finds (R290, R293): nothing, a malformed entry (its PA and level), or a leaf with the PA of its entry. -/
inductive Walk where
  | absent
  | malformed (pa level : Nat)
  | leaf (x : Xlat) (entry level : Nat)
  deriving DecidableEq, Repr

/-- The VA bits that a level indexes (R290, Table 3). -/
def levelIndex (level va : Nat) : Nat :=
  match level with
  | 4 => bitsOf va 55 48
  | 3 => bitsOf va 47 39
  | 2 => bitsOf va 38 30
  | 1 => bitsOf va 29 21
  | _ => bitsOf va 20 16

/-- The alignment of the table of a level, its own size (R290, Table 3). -/
def tableSize (level : Nat) : Nat := if level = 4 then 4096 else if level = 0 then 512 else 8192

/-- The page size code of a leaf at a level (R290). -/
def leafSize (level : Nat) : Nat := level

/-- Whether a valid pointer entry at a level is malformed (R291, R293). -/
def badPointer (level w0 w1 : Nat) : Bool :=
  bitsOf w0 7 1 != 0 || bitsOf w0 63 44 != 0 || w1 != 0 || level == 0
    || (bitsOf w0 43 9 * 512) % tableSize (level - 1) != 0

/-- Whether a valid leaf entry at a level is malformed (R292, R293). -/
def badLeaf (s : State) (level w0 w1 : Nat) : Bool :=
  let pa := bitsOf w0 43 16 * 0x10000
  let tier := bitsOf w0 6 5
  let fmt := bitsOf w1 7 0
  let planes := bitsOf w1 11 8
  let blen := bitsOf w1 13 12
  3 ≤ level
    || bitsOf w0 15 11 != 0 || bitsOf w0 63 50 != 0 || bitsOf w0 10 9 == 3
    || pa % pageBytes (leafSize level) != 0
    || !(s.hub.domMask.getLsbD (bitsOf w0 49 44))
    || (regionOf pa).tier? != some tier
    || 2 ≤ fmt
    || (fmt == 0 && (planes != 0 || blen != 0))
    || (fmt == 1 && (planes < 2 || 8 < planes || blen == 0))
    || (tier == 1 && (bitsOf w0 2 2 == 1 || bitsOf w0 3 3 == 1))

/-- The translation that a leaf gives (R292). -/
def leafOf (q asid gen va level w0 w1 : Nat) : Xlat where
  part := q
  asid := asid
  vbase := va / pageBytes (leafSize level) * pageBytes (leafSize level)
  size := leafSize level
  gen := gen
  pa := bitsOf w0 43 16 * 0x10000
  peer := bitsOf w0 49 44
  r := bitsOf w0 1 1 == 1
  w := bitsOf w0 2 2 == 1
  a := bitsOf w0 3 3 == 1
  x := bitsOf w0 4 4 == 1
  tier := bitsOf w0 6 5
  cap := bitsOf w0 7 7 == 1
  mig := bitsOf w0 10 9
  fmt := bitsOf w1 7 0
  planes := bitsOf w1 11 8
  blen := bitsOf w1 13 12
  outl := bitsOf w1 14 14 == 1

/-- The walk from the table of a level (R290 to R293). -/
def walkFrom (s : State) (q asid gen va : Nat) : Nat → Nat → Walk
  | level, table =>
    let e := table + 16 * levelIndex level va
    let w0 := memNat s.mem (s.own e) 8
    let w1 := memNat s.mem (s.own (e + 8)) 8
    if bitsOf w0 0 0 = 0 then .absent
    else if bitsOf w0 8 8 = 1 then
      if badLeaf s level w0 w1 then .malformed e level else .leaf (leafOf q asid gen va level w0 w1) e level
    else if badPointer level w0 w1 then .malformed e level
    else
      match level with
      | 0 => .malformed e 0
      | n + 1 => walkFrom s q asid gen va n (bitsOf w0 43 9 * 512)

/-- The walk of a virtual address (R289, R290). A space whose VALID is 0 has no translation. -/
def State.walk (s : State) (q asid va : Nat) : Walk :=
  let w := memNat s.mem (s.own (asRec q asid)) 8
  if bitsOf w 0 0 = 0 then .absent
  else walkFrom s q asid (s.gen q asid) va 4 (bitsOf w 43 12 * 4096)

/-- The domain physical address that a translation gives (R285). -/
def Xlat.domain (x : Xlat) (va : Nat) : Nat := domainPa x.peer (x.pa + (va - x.vbase))

/-! ## Writes of bytes -/

/-- Whether a virtual address of an installed range (R390), in some address space, translates to n bytes at a domain
address. -/
def State.rangeAt (s : State) (r : Nat × Nat × Nat) (d n : Nat) : Bool :=
  (List.range (16 * 256)).any fun a => (List.range (r.2.2 / 0x10000 + 2)).any fun i =>
    let va := r.1 / 0x10000 * 0x10000 + i * 0x10000
    match s.walk (a / 256) (a % 256) va with
    | .leaf x _ _ =>
      let lo := max va r.1
      let hi := min (va + 0x10000) (r.1 + r.2.2)
      decide (lo < hi) && decide (d < x.domain lo + (hi - lo)) && decide (x.domain lo < d + n)
    | _ => false

/-- The installed ranges that a write of n bytes leaves installed (R390): those whose object it does not touch, neither at
INSTPA nor where an address space maps its linked range (log 64). -/
def keepRanges (s : State) (d n : Nat) : List (Nat × Nat × Nat) :=
  s.sec.ranges.filter fun r => !(decide (d < r.2.1 + r.2.2) && decide (r.2.1 < d + n)) && !(s.rangeAt r d n)

/-- A write of bytes by a gust, an engine or the host. -/
def State.storeBytes (s : State) (d : Nat) (bs : List Byte) : State :=
  let s' := s.storeBytesRaw d bs
  { s' with sec := { s'.sec with ranges := keepRanges s' d bs.length } }

/-- A write by the hub or the spill engine, which has no other effect than that of R390. -/
def State.hubStore (s : State) (d : Nat) (bs : List Byte) : State :=
  let s' := s.hubWrite d bs
  { s' with sec := { s'.sec with ranges := keepRanges s' d bs.length } }

end Sys2Proof.Machine
end

