-- ==== Sys2Proof/Machine/Records.lean ====
section
/-! DEFINITION. Error records (spec/13 R374 to R377), the queues they go to (spec/12 R353), and MSI-X (R350). -/

namespace Sys2Proof.Machine

/-- An error record before it is numbered (R374, Table 6). -/
structure ErrRec where
  cls : Nat
  code : Nat
  action : Nat
  /-- 0xFF for the package -/
  part : Nat
  akind : Nat := 0
  unit : Nat := 0
  die : Nat := 4
  num : Nat := 0
  ctx : Nat := 0xFFFFFFFF
  asid : Nat := 0
  gust : Option Nat := none
  front : Nat := 0
  addr : Nat := 0
  detail : List Byte := []
  /-- USER of the graph node that the record is about (R317) -/
  user : Nat := 0
  deriving DecidableEq, Repr

/-- The severity that Table 8 gives for a recovery action (R377). -/
def severity (action : Nat) : Nat :=
  match action with
  | 0 => 0 | 1 => 1 | 7 => 1 | 4 => 3 | 8 => 4 | 9 => 4 | _ => 2

/-- Pads or cuts a list of bytes to n. -/
def padTo (n : Nat) (bs : List Byte) : List Byte := (bs ++ List.replicate n 0).take n

/-- DETAIL of a record: its own bytes, with USER of the node in the last four where they are free (R317, log 54). -/
def ErrRec.details (r : ErrRec) : List Byte :=
  if r.detail.length ≤ 12 then padTo 12 r.detail ++ bytesOf 4 r.user else padTo 16 r.detail

/-- The 64 bytes of a record (R374). -/
def ErrRec.bytes (r : ErrRec) (now : Nat) (inc : Nat) (seq : Nat) : List Byte :=
  bytesOf 1 r.cls ++ bytesOf 1 (severity r.action) ++ bytesOf 2 r.code ++ bytesOf 1 r.action ++ bytesOf 1 r.part
    ++ bytesOf 1 r.akind ++ [0]
    ++ bytesOf 1 r.unit ++ bytesOf 1 r.die ++ bytesOf 2 r.num ++ bytesOf 4 r.ctx
    ++ bytesOf 1 r.asid ++ bytesOf 1 (if r.gust.isSome then 1 else 0) ++ bytesOf 2 (r.gust.getD 0) ++ bytesOf 4 r.front
    ++ bytesOf 8 r.addr ++ bytesOf 8 now ++ bytesOf 2 inc ++ [0, 0] ++ bytesOf 4 seq ++ r.details

/-- Whether a function exists (R348): the PF, or one of the virtual functions that SR-IOV enables. -/
def State.hasFn (s : State) (fn : Nat) : Bool := decide (fn ≤ s.hub.config.vfs)

/-- Whether a partition exists (R348): those with a virtual function, and with SR-IOV disabled partition 0 alone. -/
def State.hasPart (s : State) (q : Nat) : Bool := decide (q < max 1 s.hub.config.vfs)

/-- The function that serves a partition's queues (R348, R350): its virtual function; with SR-IOV disabled the PF. -/
def State.fnOf (s : State) (q : Nat) : Nat := if s.hub.config.vfs = 0 then 0 else q + 1

/-- Raises an MSI-X vector of a function: pending until it is delivered (R350). -/
def State.msi (s : State) (fn v : Nat) : State := { s with hub := { s.hub with msix := setAdd s.hub.msix (fn * 16 + v) } }

/-- Raises vector 0 of a function for a record, at most once per 10 µs: within 10 µs of the last time the raise is held back
(R350, log 72). -/
def State.tellQueue (s : State) (fn : Nat) : State :=
  match tabGet? s.hub.msixLast fn with
  | some t =>
    if s.hub.now.toNat < t + 10000 then { s with hub := { s.hub with msixHeld := setAdd s.hub.msixHeld fn } }
    else { s with hub := { s.hub with msixLast := tabSet s.hub.msixLast fn s.hub.now.toNat } }.msi fn 0
  | none => { s with hub := { s.hub with msixLast := tabSet s.hub.msixLast fn s.hub.now.toNat } }.msi fn 0

/-- The pending vectors are delivered to the host, and the raises of vector 0 that were held back fall due (R350, log 72). -/
def State.deliverMsi (s : State) : State :=
  let h := s.hub
  h.msixHeld.foldl State.tellQueue
    { s with hub := { h with msix := [], msixHeld := [],
                             msixSent := h.msix.foldl (fun t v => tabSet t v (tabGetD t v 0 + 1)) h.msixSent } }

/-- Raises an MSI-X vector of every function (R350). -/
def State.msiAll (s : State) (v : Nat) : State := (List.range (s.hub.config.vfs + 1)).foldl (fun t fn => t.msi fn v) s

/-- The control words and the ring of a queue: a partition's, or the package queue (R353). -/
def errQueue (part : Nat) : Nat × Nat :=
  if part < 16 then (partArea part + 0x2000, partArea part + 0x4000) else (winBase + 0x10000, winBase + 0x11000)

/-- Writes an error record: dropped and counted when the ring is full; MSI-X vector 0 (R353, R375). -/
def State.record (s : State) (r : ErrRec) : State :=
  let (ctl, ring) := errQueue r.part
  let prod := memNat s.mem (s.own ctl) 4
  let cons := memNat s.mem (s.own (ctl + 4)) 4
  if (prod + 2 ^ 32 - cons) % 2 ^ 32 ≥ 1024 then
    s.hubStore (s.own (ctl + 8)) (bytesOf 4 (memNat s.mem (s.own (ctl + 8)) 4 + 1))
  else
    let inc := if r.part < 16 then (s.hub.inc.getD r.part 0).toNat else 0
    let s1 := s.hubStore (s.own (ring + 64 * (prod % 1024))) (r.bytes s.hub.now.toNat inc prod)
    (s1.hubStore (s1.own ctl) (bytesOf 4 (prod + 1))).tellQueue (if r.part < 16 then s.fnOf r.part else 0)

/-- Writes a reclaim entry; none when the ring is full (R299, R353). -/
def State.reclaim? (s : State) (q pa size tier : Nat) : Option State :=
  let ctl := partArea q + 0x200C
  let prod := memNat s.mem (s.own ctl) 4
  let cons := memNat s.mem (s.own (ctl + 4)) 4
  if (prod + 2 ^ 32 - cons) % 2 ^ 32 ≥ 2048 then none
  else
    let s1 := s.hubStore (s.own (partArea q + 0x14000 + 16 * (prod % 2048)))
      (bytesOf 8 pa ++ bytesOf 1 (size + 4 * tier) ++ List.replicate 7 0)
    some ((s1.hubStore (s1.own ctl) (bytesOf 4 (prod + 1))).msi (s.fnOf q) 1)

end Sys2Proof.Machine
end

