-- ==== Sys2Proof/Machine/Nodes.lean ====
section
/-! DEFINITION. The states of graph nodes (spec/11 R318, R319). -/

namespace Sys2Proof.Machine

/-- Whether a node has neither finished nor failed. -/
def Node.unfinished (n : Node) : Bool := decide (n.state < 3)

/-- Whether declared ranges of two nodes overlap with W on one side (R319). -/
def Node.orders (m n : Node) : Bool :=
  m.ranges.any fun a => n.ranges.any fun b =>
    (a.2.2 || b.2.2) && decide (a.1 < b.1 + b.2.1) && decide (b.1 < a.1 + a.2.1)

/-- Whether an earlier instance of the partition holds a node back (R319). -/
def heldByEarlier (insts : Tab Inst) (x : Inst) (n : Node) : Bool :=
  insts.any fun e => e.2.part == x.part && decide (e.2.order < x.order) && e.2.nodes.any fun m => m.unfinished && m.orders n

/-- One node's new state (R318): a failed predecessor fails one that waits or is ready; with every predecessor done a waiting
one becomes ready. -/
def nextNode (insts : Tab Inst) (x : Inst) (now : Nat) (before : List Node) (n : Node) : Node :=
  if 2 ≤ n.state then n
  else
    let ps := n.preds.map fun i => ((before[i]?).map fun m => m.state).getD 0
    if ps.any (· == 4) then { n with state := 4 }
    else if n.state = 0 ∧ ps.all (· == 3) ∧ !(heldByEarlier insts x n) then { n with state := 1, readyAt := now }
    else n

/-- The nodes of an instance after one pass in index order. -/
def passNodes (insts : Tab Inst) (x : Inst) (now : Nat) : List Node → List Node → List Node
  | before, [] => before
  | before, n :: ns => passNodes insts x now (before ++ [nextNode insts x now before n]) ns

/-- One pass over the instances: node states, and the instances that have finished leave (R318). -/
def State.passInsts (s : State) : State :=
  let insts := s.insts.map fun (e : Nat × Inst) => (e.1, { e.2 with nodes := passNodes s.insts e.2 s.nextReady [] e.2.nodes })
  let done := insts.filter fun e => !(e.2.nodes.any Node.unfinished)
  { s with insts := insts.filter fun e => e.2.nodes.any Node.unfinished
           sched := done.foldl (fun t e => tabMod t e.2.sched fun x => { x with unfinished := false }) s.sched }

/-- Passes until nothing changes, at most one more than there are instances. -/
def State.passes (s : State) : Nat → State
  | 0 => s
  | n + 1 => let t := s.passInsts; if t.insts = s.insts then s else t.passes n

/-- The states of the nodes brought up to date (R318, R319), in one moment. -/
def State.settleNodes (s : State) : State := { s.passes (s.insts.length + 2) with nextReady := s.nextReady + 1 }

end Sys2Proof.Machine
end

