-- ==== Sys2Proof/Machine/Translate.lean ====
section
/-! DEFINITION. Address translation: malformed entries, TLBs and generations (spec/10 R289 to R296). -/

namespace Sys2Proof.Machine

/-- Whether a TLB entry serves an address: the tag and the current generation (R294). -/
def Xlat.hits (x : Xlat) (q asid gen va : Nat) : Bool :=
  x.part == q && x.asid == asid && x.gen == gen && x.vbase ≤ va && va < x.vbase + pageBytes x.size

/-- The first entry that serves an address. -/
def tlbHit (t : List Xlat) (q asid gen va : Nat) : Option Xlat := t.find? fun x => x.hits q asid gen va

/-- Adds an entry to a TLB of a size unless it is there; a full TLB loses the one that has been there longest (log 59). -/
def tlbFill (size : Nat) (t : List Xlat) (x : Xlat) : List Xlat := if t.contains x then t else (x :: t).take size

/-- The entries of a core's and of a die's TLB (R294). -/
def coreTlb : Nat := 2048
def dieTlb : Nat := 65536

/-- A translation filled into the TLBs of a core and its die; a leaf whose MIG is not 0 is never placed (R294). -/
def State.fill (s : State) (core : Nat) (x : Xlat) : State :=
  if x.mig != 0 then s
  else
    let c := s.core core
    let d := s.die (dieOf core)
    let s1 := s.setCore core { c with tlb := tlbFill coreTlb c.tlb x }
    s1.setDie (dieOf core) { d with tlb := tlbFill dieTlb d.tlb x }

/-- The record of a malformed entry (R293). -/
def State.malformedRecord (s : State) (q asid pa level : Nat) : State :=
  s.record { cls := 0x02, code := 0x11, action := 0, part := q, akind := 2, die := 4, asid := asid, addr := pa,
             detail := bytesOf 1 level }

/-- What a walk gives a reader: its leaf, and the record of a malformed entry. -/
def State.walkServed (s : State) (q asid va : Nat) : State × Option Xlat :=
  match s.walk q asid va with
  | .absent => (s, none)
  | .malformed pa level => (s.malformedRecord q asid pa level, none)
  | .leaf x _ _ => (s, some x)

/-- Translation for a core (R294, R295). A TLB entry of the current generation that differs from the table's entry may or
may not be in use still: a free choice (log 6). -/
def State.translate (s : State) (core q asid va : Nat) : State × Option Xlat :=
  let gen := s.gen q asid
  let hit :=
    match tlbHit (s.core core).tlb q asid gen va with
    | some x => some x
    | none => tlbHit (s.die (dieOf core)).tlb q asid gen va
  let fresh :=
    match s.walk q asid va with
    | .leaf x _ _ => some x
    | _ => none
  match hit with
  | some x =>
    if fresh = some x then (s.fill core x, some x)
    else
      let (b, s1) := s.freshBool
      if b then (s1.fill core x, some x)
      else
        match s1.walkServed q asid va with
        | (s2, some y) => (s2.fill core y, some y)
        | (s2, none) => (s2, none)
  | none =>
    match s.walkServed q asid va with
    | (s2, some y) => (s2.fill core y, some y)
    | (s2, none) => (s2, none)

/-- Raises the generation of an address space once (R295); none: the raise waits until OLDEST advances. -/
def State.raiseGen? (s : State) (q asid : Nat) : Option State :=
  let g := (s.gen q asid + 1) % 2 ^ 24
  if (g + 2 ^ 24 - s.oldest q asid) % 2 ^ 24 = 2 ^ 23 then none
  else some (s.hubStore (s.own (asRec q asid + 8)) (bytesOf 4 g))

/-- Whether generation g is older than c (R295). -/
def genOlder (g c : Nat) : Bool :=
  let d := (c + 2 ^ 24 - g) % 2 ^ 24
  1 ≤ d && d < 2 ^ 23

end Sys2Proof.Machine
end

