-- ==== Sys2Proof/WellFormed.lean ====
section
/-! DEFINITION. Which groups are legal (spec/03 R80 to R90): the operand kinds of R84, what each row of the opcode map
accepts (R85), and the check of FLT.ILLEGAL in the order of Table 6. The causes that depend on the machine (6, 7) take
what they depend on as arguments. -/

namespace Sys2Proof

/-- Operand kinds of register fields (R84, Table 1); had is the HADX block of g registers (R117); spare is a field of kind
src by default (R85) that the instruction's rule does not read (R192: CAPTAG's SB). -/
inductive Kind where
  | src | dst | pair | quad | cmd | block8 | block | mask | maskDst | zero | idx | spare
  | raw (lo hi : Nat)
  | had (g : Nat)
  deriving DecidableEq, Repr

/-- The cause code that a field value raises as an operand of a kind, if any (R84, R90: cause 3 for a nonzero zero-kind
field, cause 5 for a value outside the kind). -/
def Kind.cause (k : Kind) (v : Nat) : Option Nat :=
  match k with
  | .src | .idx | .spare => if v < 128 then none else some 5
  | .dst | .block => if v ≤ 119 then none else some 5
  | .pair => if v % 2 = 0 ∧ v ≤ 118 then none else some 5
  | .quad => if v % 4 = 0 ∧ v ≤ 116 then none else some 5
  | .cmd => if v ≤ 104 then none else some 5
  | .block8 => if v ≤ 112 then none else some 5
  | .mask => if v ≤ 7 then none else some 5
  | .maskDst => if 1 ≤ v ∧ v ≤ 7 then none else some 5
  | .zero => if v = 0 then none else some 3
  | .raw lo hi => if lo ≤ v ∧ v ≤ hi then none else some 5
  | .had g => if g ≠ 0 ∧ v + g ≤ 120 then none else some 5

/-- What a row of the opcode map accepts (R81, R82, R85). -/
structure Sig where
  pfxM : Bool := true
  pred : Bool := true
  scopes : List Nat := [0]
  rnd : Bool := false
  join : Bool := false
  drift : Bool := false
  track : Bool := false
  spawn : Bool := false
  pfxI : Bool := false
  wOk : Bool := true
  sb : Kind := .src
  sa : Kind := .src
  d : Kind := .dst
  reserved : Nat := 0
  feature : Nat := 0
  deriving DecidableEq, Repr

/-- A group seen as its prefix words, its W bit, its register fields and its row's signature. -/
structure View where
  p : Pfx
  w : BitVec 1
  sb : BitVec 7
  sa : BitVec 7
  d : BitVec 7
  sig : Sig
  deriving DecidableEq, Repr

/-- SCOPE values of a form that orders only when o is set (R155, Table 1). -/
def acqScopes (hi : Nat) (o : Bool) : List Nat := if o then List.range (hi + 1) else [0]

/-- The kind of the D field of a load or store of size K (R87: K 5 a pair, K 6 a quad). -/
def sizeKind (k : BitVec 3) : Kind := if k = 5 then .pair else if k = 6 then .quad else .dst

/-- The K values of ST and SPST (R87). -/
def storeSize (k : BitVec 3) : Bool := k = 0 || k = 2 || k = 4 || k = 5 || k = 6

/-- The SYS offsets of spec/01 Table 9. -/
def sysRegListed (off : Nat) : Bool := (off ≤ 0x00A) || (0x00C ≤ off && off ≤ 0x019)

/-- The system registers read into a pair (R39): NOW, XPC, XFPC, XADDR, FRAME. -/
def sysReg64 (off : Nat) : Bool := off = 0x00A || off = 0x010 || off = 0x011 || off = 0x012 || off = 0x018

/-- The registers that MTS may write (R39, R89): GBUD, FLAGS, TEN and the X registers. -/
def sysRegWritable (off : Nat) : Bool := off = 0x005 || off = 0x008 || off = 0x009 || (0x010 ≤ off && off ≤ 0x017)

/-- The registers g of the SB value of HADX (R117); 0 for an SB outside 1 to 3. -/
def hadRegs (sb : Nat) : Nat := if sb = 1 then 2 else if sb = 2 then 4 else if sb = 3 then 8 else 0

/-- The Q values that name a queue (R194, Table 1): class and context. -/
def queueOk (q : BitVec 8) : Bool :=
  let ctx := q.toNat % 32
  match q.toNat / 32 with
  | 0 => ctx < 16
  | 1 => true
  | 2 => ctx < 8
  | 3 => ctx = 0
  | _ => false

/-- The view of a group: its row of the opcode map (R85). -/
def Instr.view : Instr → View
  | .iadd p f => ⟨p, f.w, f.sb, f.sa, f.d, {}⟩
  | .isub p f => ⟨p, f.w, f.sb, f.sa, f.d, {}⟩
  | .imul p f => ⟨p, f.w, f.sb, f.sa, f.d, {}⟩
  | .imulh p f => ⟨p, f.w, f.sb, f.sa, f.d, {}⟩
  | .imulhn p f => ⟨p, f.w, f.sb, f.sa, f.d, {}⟩
  | .imad p f => ⟨p, f.w, f.sb, f.sa, f.d, {}⟩
  | .imin p f => ⟨p, f.w, f.sb, f.sa, f.d, {}⟩
  | .imax p f => ⟨p, f.w, f.sb, f.sa, f.d, {}⟩
  | .iminn p f => ⟨p, f.w, f.sb, f.sa, f.d, {}⟩
  | .imaxn p f => ⟨p, f.w, f.sb, f.sa, f.d, {}⟩
  | .iabs p f => ⟨p, f.w, f.sb, f.sa, f.d, { sb := .zero }⟩
  | .and p f => ⟨p, f.w, f.sb, f.sa, f.d, {}⟩
  | .or p f => ⟨p, f.w, f.sb, f.sa, f.d, {}⟩
  | .xor p f => ⟨p, f.w, f.sb, f.sa, f.d, {}⟩
  | .andn p f => ⟨p, f.w, f.sb, f.sa, f.d, {}⟩
  | .shl p f => ⟨p, f.w, f.sb, f.sa, f.d, {}⟩
  | .shr p f => ⟨p, f.w, f.sb, f.sa, f.d, {}⟩
  | .sar p f => ⟨p, f.w, f.sb, f.sa, f.d, {}⟩
  | .rotl p f => ⟨p, f.w, f.sb, f.sa, f.d, {}⟩
  | .popc p f => ⟨p, f.w, f.sb, f.sa, f.d, { sb := .zero }⟩
  | .clz p f => ⟨p, f.w, f.sb, f.sa, f.d, { sb := .zero }⟩
  | .ctz p f => ⟨p, f.w, f.sb, f.sa, f.d, { sb := .zero }⟩
  | .brev p f => ⟨p, f.w, f.sb, f.sa, f.d, { sb := .zero }⟩
  | .sel p f => ⟨p, f.w, f.sb, f.sa, f.d, {}⟩
  | .bfx p f => ⟨p, f.w, f.sb, f.sa, f.d, {}⟩
  | .bfxs p f => ⟨p, f.w, f.sb, f.sa, f.d, {}⟩
  | .bfi p f => ⟨p, f.w, f.sb, f.sa, f.d, {}⟩
  | .icmp p _ f => ⟨p, f.w, f.sb, f.sa, f.d, { d := .maskDst, wOk := false }⟩
  | .iaddi p f => ⟨p, f.w, 0, f.sa, f.d, { sb := .zero, pfxI := true }⟩
  | .andi p f => ⟨p, f.w, 0, f.sa, f.d, { sb := .zero, pfxI := true }⟩
  | .ori p f => ⟨p, f.w, 0, f.sa, f.d, { sb := .zero, pfxI := true }⟩
  | .xori p f => ⟨p, f.w, 0, f.sa, f.d, { sb := .zero, pfxI := true }⟩
  | .shli p f => ⟨p, f.w, 0, f.sa, f.d, { sb := .zero, reserved := f.hi.toNat }⟩
  | .shri p f => ⟨p, f.w, 0, f.sa, f.d, { sb := .zero, reserved := f.hi.toNat }⟩
  | .sari p f => ⟨p, f.w, 0, f.sa, f.d, { sb := .zero, reserved := f.hi.toNat }⟩
  | .ldi p f => ⟨p, f.w, 0, f.sa, f.d, { sb := .zero, pfxI := true, sa := .zero }⟩
  | .add64 p f => ⟨p, f.w, f.sb, f.sa, f.d, { d := .pair, sa := .pair, sb := .pair, wOk := false }⟩
  | .sub64 p f => ⟨p, f.w, f.sb, f.sa, f.d, { d := .pair, sa := .pair, sb := .pair, wOk := false }⟩
  | .mad64 p f => ⟨p, f.w, f.sb, f.sa, f.d, { d := .pair, wOk := false }⟩
  | .cmp64 p _ f => ⟨p, f.w, f.sb, f.sa, f.d, { d := .maskDst, sa := .pair, sb := .pair, wOk := false }⟩
  | .add64i p f => ⟨p, f.w, 0, f.sa, f.d, { sb := .zero, d := .pair, sa := .pair, wOk := false, pfxI := true }⟩
  | .fadd p f => ⟨p, f.w, f.sb, f.sa, f.d, { rnd := true, drift := true }⟩
  | .fsub p f => ⟨p, f.w, f.sb, f.sa, f.d, { rnd := true, drift := true }⟩
  | .fmul p f => ⟨p, f.w, f.sb, f.sa, f.d, { rnd := true, drift := true }⟩
  | .ffma p f => ⟨p, f.w, f.sb, f.sa, f.d, { rnd := true }⟩
  | .fmin p f => ⟨p, f.w, f.sb, f.sa, f.d, {}⟩
  | .fmax p f => ⟨p, f.w, f.sb, f.sa, f.d, {}⟩
  | .fabs p f => ⟨p, f.w, f.sb, f.sa, f.d, { sb := .zero }⟩
  | .fneg p f => ⟨p, f.w, f.sb, f.sa, f.d, { sb := .zero }⟩
  | .fclass p f => ⟨p, f.w, f.sb, f.sa, f.d, { sb := .zero }⟩
  | .frnd p f => ⟨p, f.w, f.sb, f.sa, f.d, { sb := .zero, rnd := true }⟩
  | .fscale p f => ⟨p, f.w, f.sb, f.sa, f.d, { rnd := true }⟩
  | .fcmp p _ f => ⟨p, f.w, f.sb, f.sa, f.d, { d := .maskDst, wOk := false }⟩
  | .frcp p f => ⟨p, f.w, f.sb, f.sa, f.d, { sb := .zero, rnd := true }⟩
  | .frsq p f => ⟨p, f.w, f.sb, f.sa, f.d, { sb := .zero, rnd := true }⟩
  | .fsqrt p f => ⟨p, f.w, f.sb, f.sa, f.d, { sb := .zero, rnd := true }⟩
  | .fexp2 p f => ⟨p, f.w, f.sb, f.sa, f.d, { sb := .zero, rnd := true }⟩
  | .flog2 p f => ⟨p, f.w, f.sb, f.sa, f.d, { sb := .zero, rnd := true }⟩
  | .ftanh p f => ⟨p, f.w, f.sb, f.sa, f.d, { sb := .zero, rnd := true }⟩
  | .fsigm p f => ⟨p, f.w, f.sb, f.sa, f.d, { sb := .zero, rnd := true }⟩
  | .cvtfi p f => ⟨p, f.w, f.sb, f.sa, f.d, { sb := .zero, rnd := true }⟩
  | .cvtfiN p f => ⟨p, f.w, f.sb, f.sa, f.d, { sb := .zero, rnd := true }⟩
  | .cvtif p f => ⟨p, f.w, f.sb, f.sa, f.d, { sb := .zero, rnd := true }⟩
  | .cvtifN p f => ⟨p, f.w, f.sb, f.sa, f.d, { sb := .zero, rnd := true }⟩
  | .cvtbf p f => ⟨p, f.w, f.sb, f.sa, f.d, { sb := .zero }⟩
  | .cvtfb p f => ⟨p, f.w, f.sb, f.sa, f.d, { sb := .zero }⟩
  | .cvte4 p f => ⟨p, f.w, f.sb, f.sa, f.d, { sb := .zero }⟩
  | .cvte4f p f => ⟨p, f.w, f.sb, f.sa, f.d, { sb := .zero }⟩
  | .cvti4 p f => ⟨p, f.w, f.sb, f.sa, f.d, {}⟩
  | .shflIdx p f => ⟨p, f.w, f.sb, f.sa, f.d, {}⟩
  | .shflUp p f => ⟨p, f.w, f.sb, f.sa, f.d, {}⟩
  | .shflDown p f => ⟨p, f.w, f.sb, f.sa, f.d, {}⟩
  | .shflXor p f => ⟨p, f.w, f.sb, f.sa, f.d, {}⟩
  | .radd p f => ⟨p, f.w, f.sb, f.sa, f.d, { sb := .zero }⟩
  | .raddF p f => ⟨p, f.w, f.sb, f.sa, f.d, { sb := .zero }⟩
  | .rmax p f => ⟨p, f.w, f.sb, f.sa, f.d, { sb := .zero }⟩
  | .rmaxN p f => ⟨p, f.w, f.sb, f.sa, f.d, { sb := .zero }⟩
  | .rmaxF p f => ⟨p, f.w, f.sb, f.sa, f.d, { sb := .zero }⟩
  | .rmin p f => ⟨p, f.w, f.sb, f.sa, f.d, { sb := .zero }⟩
  | .rminN p f => ⟨p, f.w, f.sb, f.sa, f.d, { sb := .zero }⟩
  | .rminF p f => ⟨p, f.w, f.sb, f.sa, f.d, { sb := .zero }⟩
  | .scana p f => ⟨p, f.w, f.sb, f.sa, f.d, { sb := .zero }⟩
  | .scanaF p f => ⟨p, f.w, f.sb, f.sa, f.d, { sb := .zero }⟩
  | .bcast p f => ⟨p, f.w, f.sb, f.sa, f.d, { sb := .zero }⟩
  | .mkl p f => ⟨p, f.w, f.sb, f.sa, f.d, {}⟩
  | .mkg p f => ⟨p, f.w, f.sb, f.sa, f.d, { sb := .zero }⟩
  | .tag p f => ⟨p, f.w, f.sb, f.sa, f.d, { sb := .zero }⟩
  | .qplane p f => ⟨p, f.w, f.sb, f.sa, f.d, {}⟩
  | .hadx p f => ⟨p, f.w, f.sb, f.sa, f.d, { sb := .raw 1 3, sa := .had (hadRegs f.sb.toNat), d := .had (hadRegs f.sb.toNat), wOk := false }⟩
  | .dqx p f => ⟨p, f.w, f.sb, f.sa, f.d, {}⟩
  | .rand p f => ⟨p, f.w, f.sb, f.sa, f.d, { sa := .pair, sb := .pair }⟩
  | .bra p f => ⟨p, 0, 0, 0, 0, { sb := .zero, sa := .zero, d := .zero, pfxM := false, reserved := f.c.toNat + f.mr.toNat }⟩
  | .brc p _ => ⟨p, 0, 0, 0, 0, { sb := .zero, sa := .zero, d := .zero, pfxM := false }⟩
  | .brd p _ => ⟨p, 0, 0, 0, 0, { sb := .zero, sa := .zero, d := .zero, join := true, pred := false }⟩
  | .call p f => ⟨p, 0, 0, 0, 0, { sb := .zero, sa := .zero, d := .zero, pfxM := false, reserved := f.c.toNat + f.mr.toNat }⟩
  | .recon p f => ⟨p, f.w, f.sb, f.sa, f.d, { sb := .zero, sa := .zero, d := .zero, wOk := false, pfxM := false }⟩
  | .ret p f => ⟨p, f.w, f.sb, f.sa, f.d, { sb := .zero, sa := .pair, d := .zero, wOk := false, pfxM := false }⟩
  | .jmpr p f => ⟨p, f.w, f.sb, f.sa, f.d, { sb := .zero, sa := .pair, d := .zero, wOk := false, pfxM := false }⟩
  | .exit p f => ⟨p, f.w, f.sb, f.sa, f.d, { sb := .zero, sa := .zero, d := .zero, wOk := false, pfxM := false }⟩
  | .spawn p f => ⟨p, f.w, f.sb, f.sa, f.d, { sa := .block8, sb := .pair, spawn := true, pred := false }⟩
  | .regroup p f => ⟨p, f.w, f.sb, f.sa, f.d, { sb := .zero, feature := 2, pfxM := false }⟩
  | .voteAny p f => ⟨p, f.w, f.sb, f.sa, f.d, { sa := .mask, sb := .zero }⟩
  | .voteAll p f => ⟨p, f.w, f.sb, f.sa, f.d, { sa := .mask, sb := .zero }⟩
  | .voteBallot p f => ⟨p, f.w, f.sb, f.sa, f.d, { sb := .zero, d := .maskDst, wOk := false }⟩
  | .voteCount p f => ⟨p, f.w, f.sb, f.sa, f.d, { sa := .mask, sb := .zero }⟩
  | .voteRank p f => ⟨p, f.w, f.sb, f.sa, f.d, { sa := .mask, sb := .zero }⟩
  | .elect p f => ⟨p, f.w, f.sb, f.sa, f.d, { sa := .zero, sb := .zero, d := .maskDst, wOk := false }⟩
  | .mand p f => ⟨p, f.w, f.sb, f.sa, f.d, { sa := .mask, sb := .mask, d := .maskDst, wOk := false }⟩
  | .mor p f => ⟨p, f.w, f.sb, f.sa, f.d, { sa := .mask, sb := .mask, d := .maskDst, wOk := false }⟩
  | .mxor p f => ⟨p, f.w, f.sb, f.sa, f.d, { sa := .mask, sb := .mask, d := .maskDst, wOk := false }⟩
  | .mnot p f => ⟨p, f.w, f.sb, f.sa, f.d, { sa := .mask, sb := .zero, d := .maskDst, wOk := false }⟩
  | .mmov p f => ⟨p, f.w, f.sb, f.sa, f.d, { sa := .mask, sb := .zero, d := .maskDst, wOk := false }⟩
  | .mpopc p f => ⟨p, f.w, f.sb, f.sa, f.d, { sa := .mask, sb := .zero }⟩
  | .bar p f => ⟨p, f.w, f.sb, f.sa, f.d, { sa := .raw 0 3, sb := .zero, d := .zero, wOk := false, pfxM := false }⟩
  | .bararr p f => ⟨p, f.w, f.sb, f.sa, f.d, { sa := .raw 0 3, sb := .zero, d := .zero, wOk := false, pfxM := false }⟩
  | .barwt p f => ⟨p, f.w, f.sb, f.sa, f.d, { sa := .raw 0 3, sb := .zero, d := .zero, wOk := false, pfxM := false }⟩
  | .cjoin p f => ⟨p, f.w, f.sb, f.sa, f.d, { sb := .spare, pfxM := false }⟩
  | .cleave p f => ⟨p, f.w, f.sb, f.sa, f.d, { sa := .raw 0 3, sb := .zero, d := .zero, wOk := false, pfxM := false }⟩
  | .ld p f => ⟨p, 0, f.sb, f.sa, f.d, { sa := .pair, sb := .idx, pfxI := true, scopes := acqScopes 5 (f.o == 1), d := sizeKind f.k }⟩
  | .ldDf p f => ⟨p, 0, f.sb, f.sa, f.d, { sa := .pair, sb := .idx, pfxI := true, feature := 1 }⟩
  | .ldu p f => ⟨p, 0, f.sb, f.sa, f.d, { sa := .pair, sb := .idx, pfxI := true, scopes := acqScopes 5 (f.o == 1), d := sizeKind f.k }⟩
  | .lduDf p f => ⟨p, 0, f.sb, f.sa, f.d, { sa := .pair, sb := .idx, pfxI := true, feature := 1 }⟩
  | .ldx p f => ⟨p, 0, f.sb, f.sa, f.d, { sa := .pair, sb := .idx, pfxI := true, scopes := acqScopes 5 (f.acq == 1) }⟩
  | .ldraw p f => ⟨p, 0, f.sb, f.sa, f.d, { sa := .pair, sb := .idx, pfxI := true, scopes := acqScopes 5 (f.acq == 1), d := sizeKind f.k }⟩
  | .st p f => ⟨p, 0, f.sb, f.sa, f.d, { sa := .pair, sb := .idx, pfxI := true, track := true, scopes := acqScopes 5 (f.o == 1), d := sizeKind f.k }⟩
  | .spld p f => ⟨p, 0, f.sb, f.sa, f.d, { sb := .idx, pfxI := true, d := sizeKind f.k }⟩
  | .spst p f => ⟨p, 0, f.sb, f.sa, f.d, { sb := .idx, pfxI := true, d := sizeKind f.k }⟩
  | .ldlk p f => ⟨p, 0, f.sb, f.sa, f.d, { sb := .idx, pfxI := true }⟩
  | .stul p f => ⟨p, 0, f.sb, f.sa, f.d, { sb := .idx, pfxI := true }⟩
  | .spa p f => ⟨p, 0, f.sb, f.sa, f.d, { sb := .idx, pfxI := true }⟩
  | .atom p f => ⟨p, 0, f.sb, f.sa, f.d, { sa := .pair, d := .zero, pfxI := true, track := true, scopes := [0, 1, 2, 3, 4] }⟩
  | .atomr p f => ⟨p, 0, f.sb, f.sa, f.d, { sa := .pair, pfxI := true, scopes := [0, 1, 2, 3, 4] }⟩
  | .atomXchg p f => ⟨p, 0, f.sb, f.sa, f.d, { sa := .pair, sb := .src, d := .zero, pfxI := true, scopes := [0, 1, 2, 3, 4], track := true }⟩
  | .atomCas p f => ⟨p, 0, f.sb, f.sa, f.d, { sa := .pair, sb := .src, d := .dst, pfxI := true, scopes := [0, 1, 2, 3, 4], track := true }⟩
  | .atomrXchg p f => ⟨p, 0, f.sb, f.sa, f.d, { sa := .pair, sb := .src, d := .dst, pfxI := true, scopes := [0, 1, 2, 3, 4] }⟩
  | .atomrCas p f => ⟨p, 0, f.sb, f.sa, f.d, { sa := .pair, sb := .src, d := .dst, pfxI := true, scopes := [0, 1, 2, 3, 4] }⟩
  | .atomAdd64 p f => ⟨p, 0, f.sb, f.sa, f.d, { sa := .pair, sb := .pair, d := .zero, pfxI := true, scopes := [0, 1, 2, 3, 4], track := true }⟩
  | .atomrAdd64 p f => ⟨p, 0, f.sb, f.sa, f.d, { sa := .pair, sb := .pair, d := .pair, pfxI := true, scopes := [0, 1, 2, 3, 4] }⟩
  | .atomrXchg64 p f => ⟨p, 0, f.sb, f.sa, f.d, { sa := .pair, sb := .pair, d := .pair, pfxI := true, scopes := [0, 1, 2, 3, 4] }⟩
  | .atomrCas64 p f => ⟨p, 0, f.sb, f.sa, f.d, { sa := .pair, sb := .pair, d := .pair, pfxI := true, scopes := [0, 1, 2, 3, 4] }⟩
  | .fenceAcq p f => ⟨p, f.w, f.sb, f.sa, f.d, { sa := .zero, sb := .zero, d := .zero, wOk := false, pred := false, scopes := [1, 2, 3, 4, 5] }⟩
  | .fenceRel p f => ⟨p, f.w, f.sb, f.sa, f.d, { sa := .zero, sb := .zero, d := .zero, wOk := false, pred := false, scopes := [1, 2, 3, 4, 5] }⟩
  | .fenceAr p f => ⟨p, f.w, f.sb, f.sa, f.d, { sa := .zero, sb := .zero, d := .zero, wOk := false, pred := false, scopes := [1, 2, 3, 4, 5] }⟩
  | .isync p f => ⟨p, f.w, f.sb, f.sa, f.d, { sa := .zero, sb := .zero, d := .zero, wOk := false, pfxM := false }⟩
  | .isyncRange p f => ⟨p, f.w, f.sb, f.sa, f.d, { sa := .pair, d := .zero, wOk := false, pfxM := false }⟩
  | .hflush p f => ⟨p, f.w, f.sb, f.sa, f.d, { sa := .pair, d := .zero, wOk := false, pred := false, track := true }⟩
  | .pref p f => ⟨p, f.w, f.sb, f.sa, f.d, { sa := .pair, d := .zero, wOk := false, pfxM := false }⟩
  | .waittl p f => ⟨p, 0, 0, f.sa, f.d, { sb := .zero, sa := .pair, scopes := [0, 1, 2, 3, 4], pred := false }⟩
  | .waitsb p f => ⟨p, f.w, f.sb, f.sa, f.d, { sa := .raw 0 5, sb := .raw 0 63, d := .zero, wOk := false, pfxM := false }⟩
  | .rsbq p f => ⟨p, f.w, f.sb, f.sa, f.d, {}⟩
  | .awrd p f => ⟨p, f.w, f.sb, f.sa, f.d, { sb := .zero }⟩
  | .braw p _ => ⟨p, 0, 0, 0, 0, { sb := .zero, sa := .zero, d := .zero, pfxM := false }⟩
  | .capld p f => ⟨p, 0, f.sb, f.sa, f.d, { sa := .pair, sb := .idx, d := .quad, pfxI := true, scopes := acqScopes 4 (f.o == 1) }⟩
  | .capst p f => ⟨p, 0, f.sb, f.sa, f.d, { sa := .pair, sb := .idx, d := .quad, pfxI := true, scopes := acqScopes 4 (f.o == 1) }⟩
  | .capnar p f => ⟨p, f.w, f.sb, f.sa, f.d, { sa := .quad, d := .quad, wOk := false }⟩
  | .capchk p f => ⟨p, f.w, f.sb, f.sa, f.d, { sa := .quad }⟩
  | .captag p f => ⟨p, f.w, f.sb, f.sa, f.d, { sa := .quad, sb := .spare }⟩
  | .capmk p f => ⟨p, f.w, f.sb, f.sa, f.d, { sa := .quad, sb := .spare, d := .quad, wOk := false }⟩
  | .push p f => ⟨p, 0, 0, f.sa, f.d, { sb := .zero, sa := .cmd }⟩
  | .pushCore p f => ⟨p, 0, 0, f.sa, f.d, { sb := .zero, sa := .cmd }⟩
  | .pushDie p f => ⟨p, 0, 0, f.sa, f.d, { sb := .zero, sa := .cmd }⟩
  | .pushPkg p f => ⟨p, 0, 0, f.sa, f.d, { sb := .zero, sa := .cmd }⟩
  | .pushq p f => ⟨p, 0, 0, f.sa, f.d, { sb := .zero, sa := .zero }⟩
  | .tlrd p f => ⟨p, 0, 0, f.sa, f.d, { sb := .zero, sa := .zero, d := .pair }⟩
  | .kvres p f => ⟨p, f.w, f.sb, f.sa, f.d, { d := .pair, scopes := [3, 4], sa := .quad, wOk := false, feature := 3 }⟩
  | .kvapp p f => ⟨p, f.w, f.sb, f.sa, f.d, { sb := .pair, d := .block, sa := .quad, wOk := false, feature := 3 }⟩
  | .kvpub p f => ⟨p, f.w, f.sb, f.sa, f.d, { sb := .pair, d := .zero, scopes := [2, 3, 4], sa := .quad, wOk := false, feature := 3 }⟩
  | .kvacq p f => ⟨p, f.w, f.sb, f.sa, f.d, { sb := .pair, d := .pair, scopes := [2, 3, 4], sa := .quad, wOk := false, feature := 3 }⟩
  | .kvseal p f => ⟨p, f.w, f.sb, f.sa, f.d, { sb := .pair, sa := .quad, wOk := false, feature := 3 }⟩
  | .kvg p f => ⟨p, f.w, f.sb, f.sa, f.d, { sb := .pair, d := .pair, sa := .quad, wOk := false, feature := 3 }⟩
  | .kvqk p f => ⟨p, f.w, f.sb, f.sa, f.d, { sb := .pair, d := .block, sa := .quad, wOk := false, feature := 3 }⟩
  | .kvav p f => ⟨p, f.w, f.sb, f.sa, f.d, { sb := .pair, d := .block, sa := .quad, wOk := false, feature := 3 }⟩
  | .kvprom p f => ⟨p, f.w, f.sb, f.sa, f.d, { sb := .pair, d := .block, sa := .quad, wOk := false, feature := 3 }⟩
  | .kvrm p f => ⟨p, f.w, f.sb, f.sa, f.d, { sb := .pair, sa := .quad, wOk := false, feature := 3 }⟩
  | .lqsend p f => ⟨p, f.w, f.sb, f.sa, f.d, { sa := .quad, feature := 4 }⟩
  | .lqrecv p f => ⟨p, f.w, f.sb, f.sa, f.d, { sa := .quad, feature := 4 }⟩
  | .lqpeek p f => ⟨p, f.w, f.sb, f.sa, f.d, { sa := .quad, sb := .spare, feature := 4 }⟩
  | .heaprd p f => ⟨p, f.w, f.sb, f.sa, f.d, { sa := .raw 0 3, wOk := false, feature := 5 }⟩
  | .sdraw p f => ⟨p, f.w, f.sb, f.sa, f.d, { wOk := false, feature := 5 }⟩
  | .pncommit p f => ⟨p, f.w, f.sb, f.sa, f.d, { wOk := false, feature := 5 }⟩
  | .dlwait p f => ⟨p, f.w, f.sb, f.sa, f.d, { sa := .pair, sb := .pair, d := .pair, wOk := false, feature := 5 }⟩
  | .pfmark p f => ⟨p, f.w, f.sb, f.sa, f.d, { d := .zero, wOk := false, pfxM := false, feature := 6 }⟩
  | .leaveq p f => ⟨p, f.w, f.sb, f.sa, f.d, { sa := .spare, sb := .spare, pfxM := false }⟩
  | .mfs p f => ⟨p, 0, 0, f.sa, f.d, { sb := .zero, sa := .zero, d := (if sysReg64 f.off.toNat then .pair else .dst) }⟩
  | .mts p f => ⟨p, 0, 0, f.sa, f.d, { sb := .zero, d := .zero, sa := (if sysReg64 f.off.toNat then .pair else .src) }⟩
  | .nop p f => ⟨p, 0, 0, f.sa, f.d, { sb := .zero, d := .zero, sa := .zero, pfxM := false }⟩
  | .yield p f => ⟨p, 0, 0, f.sa, f.d, { sb := .zero, d := .zero, sa := .zero, pfxM := false }⟩
  | .wbase p f => ⟨p, 0, 0, f.sa, f.d, { sb := .zero, d := .zero, pfxM := false }⟩
  | .trap p f => ⟨p, 0, 0, f.sa, f.d, { sb := .zero, d := .zero, sa := .raw 0 127, pfxM := false }⟩
  | .tret p f => ⟨p, 0, 0, f.sa, f.d, { sb := .zero, d := .zero, sa := .raw 0 1, pfxM := false }⟩
  | .svc p f => ⟨p, 0, 0, f.sa, f.d, { sb := .zero, d := .zero, sa := .raw 0 127, pfxM := false }⟩
  | .tfence p f => ⟨p, 0, 0, f.sa, f.d, { sb := .zero, d := .zero, sa := .zero, pfxM := false }⟩
  | .flclr p f => ⟨p, 0, 0, f.sa, f.d, { sb := .zero, d := .zero, sa := .zero }⟩
  | .bkpt p f => ⟨p, 0, 0, f.sa, f.d, { sb := .zero, d := .zero, sa := .raw 0 127, pfxM := false }⟩
  | .illz p => ⟨p, 0, 0, 0, 0, { sb := .zero, sa := .zero, d := .zero, pfxM := false }⟩
  | .ill p => ⟨p, 0, 0, 0, 0, { sb := .zero, sa := .zero, d := .zero, pfxM := false }⟩
  | .gustRetire _ => ⟨{}, 0, 0, 0, 0, {}⟩
  | .driftArrival _ _ => ⟨{}, 0, 0, 0, 0, {}⟩
  | .loadReply _ _ => ⟨{}, 0, 0, 0, 0, {}⟩
  | .postedCompletion _ _ => ⟨{}, 0, 0, 0, 0, {}⟩
  | .trapEntry _ _ _ => ⟨{}, 0, 0, 0, 0, {}⟩
  | .pendingEntryComplete _ => ⟨{}, 0, 0, 0, 0, {}⟩
  | .wcAgeDrain _ _ => ⟨{}, 0, 0, 0, 0, {}⟩
  | .allowanceRefill => ⟨{}, 0, 0, 0, 0, {}⟩
  | .ackReceive => ⟨{}, 0, 0, 0, 0, {}⟩
  | .requestPacketReceive => ⟨{}, 0, 0, 0, 0, {}⟩
  | .incarnationNotice => ⟨{}, 0, 0, 0, 0, {}⟩
  | .requestTimeout => ⟨{}, 0, 0, 0, 0, {}⟩
  | .planeFail => ⟨{}, 0, 0, 0, 0, {}⟩
  | .quiesceNotice => ⟨{}, 0, 0, 0, 0, {}⟩
  | .remapWrite => ⟨{}, 0, 0, 0, 0, {}⟩
  | .dommaskWrite => ⟨{}, 0, 0, 0, 0, {}⟩
  | .dropincRead => ⟨{}, 0, 0, 0, 0, {}⟩
  | .lqownWrite => ⟨{}, 0, 0, 0, 0, {}⟩
  | .lqEntryArrival => ⟨{}, 0, 0, 0, 0, {}⟩
  | .commandStart _ => ⟨{}, 0, 0, 0, 0, {}⟩
  | .leaveGrant _ => ⟨{}, 0, 0, 0, 0, {}⟩
  | .governorInterval => ⟨{}, 0, 0, 0, 0, {}⟩
  | .taskIssue _ => ⟨{}, 0, 0, 0, 0, {}⟩
  | .maskHoldRelease _ _ => ⟨{}, 0, 0, 0, 0, {}⟩
  | .maskDeadline _ _ => ⟨{}, 0, 0, 0, 0, {}⟩
  | .dlwaitDeadline _ _ => ⟨{}, 0, 0, 0, 0, {}⟩
  | .commandComplete _ _ => ⟨{}, 0, 0, 0, 0, {}⟩
  | .mxtask _ _ => ⟨{}, 0, 0, 0, 0, {}⟩
  | .mxconv _ _ => ⟨{}, 0, 0, 0, 0, {}⟩
  | .cpy _ _ => ⟨{}, 0, 0, 0, 0, {}⟩
  | .cpy2d _ _ => ⟨{}, 0, 0, 0, 0, {}⟩
  | .gather _ _ => ⟨{}, 0, 0, 0, 0, {}⟩
  | .scatter _ _ => ⟨{}, 0, 0, 0, 0, {}⟩
  | .fill _ _ => ⟨{}, 0, 0, 0, 0, {}⟩
  | .reqnt _ _ => ⟨{}, 0, 0, 0, 0, {}⟩
  | .xpose _ _ => ⟨{}, 0, 0, 0, 0, {}⟩
  | .hostfl _ _ => ⟨{}, 0, 0, 0, 0, {}⟩
  | .ringx _ _ => ⟨{}, 0, 0, 0, 0, {}⟩
  | .lqfwd _ _ => ⟨{}, 0, 0, 0, 0, {}⟩
  | .migrate _ _ => ⟨{}, 0, 0, 0, 0, {}⟩
  | .graphpost _ _ => ⟨{}, 0, 0, 0, 0, {}⟩
  | .oldestAdvance _ _ => ⟨{}, 0, 0, 0, 0, {}⟩
  | .prefetchRecord _ => ⟨{}, 0, 0, 0, 0, {}⟩
  | .prefetchDeadline _ => ⟨{}, 0, 0, 0, 0, {}⟩
  | .poolPop _ _ => ⟨{}, 0, 0, 0, 0, {}⟩
  | .poolPush => ⟨{}, 0, 0, 0, 0, {}⟩
  | .scheduleTick => ⟨{}, 0, 0, 0, 0, {}⟩
  | .scheduleEntryWrite => ⟨{}, 0, 0, 0, 0, {}⟩
  | .slotEnd _ => ⟨{}, 0, 0, 0, 0, {}⟩
  | .spillContext _ => ⟨{}, 0, 0, 0, 0, {}⟩
  | .frontCreate => ⟨{}, 0, 0, 0, 0, {}⟩
  | .gustPlace => ⟨{}, 0, 0, 0, 0, {}⟩
  | .frontComplete _ => ⟨{}, 0, 0, 0, 0, {}⟩
  | .bar4Access => ⟨{}, 0, 0, 0, 0, {}⟩
  | .hostWindowAccess => ⟨{}, 0, 0, 0, 0, {}⟩
  | .preset => ⟨{}, 0, 0, 0, 0, {}⟩
  | .watchdogExpire => ⟨{}, 0, 0, 0, 0, {}⟩
  | .powerOn => ⟨{}, 0, 0, 0, 0, {}⟩
  | .pcieFundamentalReset => ⟨{}, 0, 0, 0, 0, {}⟩
  | .pcieHotReset => ⟨{}, 0, 0, 0, 0, {}⟩
  | .vfFlr => ⟨{}, 0, 0, 0, 0, {}⟩
  | .pfFlr => ⟨{}, 0, 0, 0, 0, {}⟩
  | .thermalTrip => ⟨{}, 0, 0, 0, 0, {}⟩
  | .supplyFaultTrip => ⟨{}, 0, 0, 0, 0, {}⟩
  | .securityViolation => ⟨{}, 0, 0, 0, 0, {}⟩
  | .fatalInternalError => ⟨{}, 0, 0, 0, 0, {}⟩
  | .hbmEccError => ⟨{}, 0, 0, 0, 0, {}⟩
  | .hbfReadError => ⟨{}, 0, 0, 0, 0, {}⟩
  | .coreSramError => ⟨{}, 0, 0, 0, 0, {}⟩
  | .dieLinkError => ⟨{}, 0, 0, 0, 0, {}⟩
  | .pcieLinkError => ⟨{}, 0, 0, 0, 0, {}⟩
  | .ptpSync => ⟨{}, 0, 0, 0, 0, {}⟩
  | .ptpHoldover => ⟨{}, 0, 0, 0, 0, {}⟩
  | .dbgacc => ⟨{}, 0, 0, 0, 0, {}⟩
  | .dbgenWrite => ⟨{}, 0, 0, 0, 0, {}⟩
  | .dbgTargetWrite => ⟨{}, 0, 0, 0, 0, {}⟩
  | .dbgstatWrite => ⟨{}, 0, 0, 0, 0, {}⟩
  | .haltFront => ⟨{}, 0, 0, 0, 0, {}⟩
  | .resumeFront => ⟨{}, 0, 0, 0, 0, {}⟩
  | .stepGust => ⟨{}, 0, 0, 0, 0, {}⟩
  | .readWindowWord => ⟨{}, 0, 0, 0, 0, {}⟩
  | .writeWindowWord => ⟨{}, 0, 0, 0, 0, {}⟩
  | .resetPartition => ⟨{}, 0, 0, 0, 0, {}⟩
  | .resetPackage => ⟨{}, 0, 0, 0, 0, {}⟩
  | .drainFront => ⟨{}, 0, 0, 0, 0, {}⟩
  | .instgo => ⟨{}, 0, 0, 0, 0, {}⟩
  | .attgo => ⟨{}, 0, 0, 0, 0, {}⟩
  | .attParamWrite => ⟨{}, 0, 0, 0, 0, {}⟩
  | .feataccWrite => ⟨{}, 0, 0, 0, 0, {}⟩
  | .registerWrite => ⟨{}, 0, 0, 0, 0, {}⟩
  | .illegalWord _ _ => ⟨{}, 0, 0, 0, 0, {}⟩
  | .fetchFault _ _ _ => ⟨{}, 0, 0, 0, 0, {}⟩
  | .receivedCountReport => ⟨{}, 0, 0, 0, 0, {}⟩
  | .remapAnswerTimeout => ⟨{}, 0, 0, 0, 0, {}⟩
  | .supplyRailRecovery => ⟨{}, 0, 0, 0, 0, {}⟩
  | .thermalTripRecovery => ⟨{}, 0, 0, 0, 0, {}⟩
  | .installationComplete => ⟨{}, 0, 0, 0, 0, {}⟩
  | .attestationReportWritten => ⟨{}, 0, 0, 0, 0, {}⟩

/-- Whether every value that selects the instruction within its major is assigned (R85 to R89): K, O, C, Q, SYS. False
for the steps without an encoding. -/
def Instr.assigned : Instr → Bool
  | .iadd _ _ => true
  | .isub _ _ => true
  | .imul _ _ => true
  | .imulh _ _ => true
  | .imulhn _ _ => true
  | .imad _ _ => true
  | .imin _ _ => true
  | .imax _ _ => true
  | .iminn _ _ => true
  | .imaxn _ _ => true
  | .iabs _ _ => true
  | .and _ _ => true
  | .or _ _ => true
  | .xor _ _ => true
  | .andn _ _ => true
  | .shl _ _ => true
  | .shr _ _ => true
  | .sar _ _ => true
  | .rotl _ _ => true
  | .popc _ _ => true
  | .clz _ _ => true
  | .ctz _ _ => true
  | .brev _ _ => true
  | .sel _ _ => true
  | .bfx _ _ => true
  | .bfxs _ _ => true
  | .bfi _ _ => true
  | .icmp _ c _ => decide (c.toNat < 10)
  | .iaddi _ _ => true
  | .andi _ _ => true
  | .ori _ _ => true
  | .xori _ _ => true
  | .shli _ _ => true
  | .shri _ _ => true
  | .sari _ _ => true
  | .ldi _ _ => true
  | .add64 _ _ => true
  | .sub64 _ _ => true
  | .mad64 _ _ => true
  | .cmp64 _ c _ => decide (c.toNat < 10)
  | .add64i _ _ => true
  | .fadd _ _ => true
  | .fsub _ _ => true
  | .fmul _ _ => true
  | .ffma _ _ => true
  | .fmin _ _ => true
  | .fmax _ _ => true
  | .fabs _ _ => true
  | .fneg _ _ => true
  | .fclass _ _ => true
  | .frnd _ _ => true
  | .fscale _ _ => true
  | .fcmp _ c _ => decide (c.toNat < 8)
  | .frcp _ _ => true
  | .frsq _ _ => true
  | .fsqrt _ _ => true
  | .fexp2 _ _ => true
  | .flog2 _ _ => true
  | .ftanh _ _ => true
  | .fsigm _ _ => true
  | .cvtfi _ _ => true
  | .cvtfiN _ _ => true
  | .cvtif _ _ => true
  | .cvtifN _ _ => true
  | .cvtbf _ _ => true
  | .cvtfb _ _ => true
  | .cvte4 _ _ => true
  | .cvte4f _ _ => true
  | .cvti4 _ _ => true
  | .shflIdx _ _ => true
  | .shflUp _ _ => true
  | .shflDown _ _ => true
  | .shflXor _ _ => true
  | .radd _ _ => true
  | .raddF _ _ => true
  | .rmax _ _ => true
  | .rmaxN _ _ => true
  | .rmaxF _ _ => true
  | .rmin _ _ => true
  | .rminN _ _ => true
  | .rminF _ _ => true
  | .scana _ _ => true
  | .scanaF _ _ => true
  | .bcast _ _ => true
  | .mkl _ _ => true
  | .mkg _ _ => true
  | .tag _ _ => true
  | .qplane _ _ => true
  | .hadx _ _ => true
  | .dqx _ _ => true
  | .rand _ _ => true
  | .bra _ _ => true
  | .brc _ f => decide (f.c.toNat < 4)
  | .brd _ f => decide (f.c.toNat < 2)
  | .call _ _ => true
  | .recon _ _ => true
  | .ret _ _ => true
  | .jmpr _ _ => true
  | .exit _ _ => true
  | .spawn _ _ => true
  | .regroup _ _ => true
  | .voteAny _ _ => true
  | .voteAll _ _ => true
  | .voteBallot _ _ => true
  | .voteCount _ _ => true
  | .voteRank _ _ => true
  | .elect _ _ => true
  | .mand _ _ => true
  | .mor _ _ => true
  | .mxor _ _ => true
  | .mnot _ _ => true
  | .mmov _ _ => true
  | .mpopc _ _ => true
  | .bar _ _ => true
  | .bararr _ _ => true
  | .barwt _ _ => true
  | .cjoin _ _ => true
  | .cleave _ _ => true
  | .ld _ f => decide (f.k.toNat < 7) && f.o != 2
  | .ldDf _ f => decide (f.k.toNat < 5)
  | .ldu _ f => decide (f.k.toNat < 7) && f.o != 2
  | .lduDf _ f => decide (f.k.toNat < 5)
  | .ldx _ _ => true
  | .ldraw _ f => decide (4 ≤ f.k.toNat) && decide (f.k.toNat < 7)
  | .st _ f => storeSize f.k && f.o != 2
  | .spld _ f => decide (f.k.toNat < 7)
  | .spst _ f => storeSize f.k
  | .ldlk _ _ => true
  | .stul _ _ => true
  | .spa _ f => decide (f.k.toNat < 5)
  | .atom _ f => f.o != 3
  | .atomr _ f => f.o != 3
  | .atomXchg _ f => decide (f.o.toNat < 2)
  | .atomCas _ f => decide (f.o.toNat < 2)
  | .atomrXchg _ f => decide (f.o.toNat < 2)
  | .atomrCas _ f => decide (f.o.toNat < 2)
  | .atomAdd64 _ f => f.o != 3
  | .atomrAdd64 _ f => f.o != 3
  | .atomrXchg64 _ f => decide (f.o.toNat < 2)
  | .atomrCas64 _ f => decide (f.o.toNat < 2)
  | .fenceAcq _ _ => true
  | .fenceRel _ _ => true
  | .fenceAr _ _ => true
  | .isync _ _ => true
  | .isyncRange _ _ => true
  | .hflush _ _ => true
  | .pref _ _ => true
  | .waittl _ f => queueOk f.q && decide (f.q.toNat < 96)
  | .waitsb _ _ => true
  | .rsbq _ _ => true
  | .awrd _ _ => true
  | .braw _ _ => true
  | .capld _ f => decide (f.o.toNat < 2)
  | .capst _ f => decide (f.o.toNat < 2)
  | .capnar _ _ => true
  | .capchk _ _ => true
  | .captag _ _ => true
  | .capmk _ _ => true
  | .push _ f => queueOk f.q
  | .pushCore _ f => queueOk f.q
  | .pushDie _ f => queueOk f.q
  | .pushPkg _ f => queueOk f.q
  | .pushq _ f => queueOk f.q
  | .tlrd _ f => queueOk f.q && decide (f.q.toNat < 96)
  | .kvres _ _ => true
  | .kvapp _ _ => true
  | .kvpub _ _ => true
  | .kvacq _ _ => true
  | .kvseal _ _ => true
  | .kvg _ _ => true
  | .kvqk _ _ => true
  | .kvav _ _ => true
  | .kvprom _ _ => true
  | .kvrm _ _ => true
  | .lqsend _ _ => true
  | .lqrecv _ _ => true
  | .lqpeek _ _ => true
  | .heaprd _ _ => true
  | .sdraw _ _ => true
  | .pncommit _ _ => true
  | .dlwait _ _ => true
  | .pfmark _ _ => true
  | .leaveq _ _ => true
  | .mfs _ f => sysRegListed f.off.toNat
  | .mts _ f => sysRegListed f.off.toNat
  | .nop _ _ => true
  | .yield _ _ => true
  | .wbase _ _ => true
  | .trap _ _ => true
  | .tret _ _ => true
  | .svc _ _ => true
  | .tfence _ _ => true
  | .flclr _ _ => true
  | .bkpt _ _ => true
  | .illz _ => true
  | .ill _ => true
  | .gustRetire _ => false
  | .driftArrival _ _ => false
  | .loadReply _ _ => false
  | .postedCompletion _ _ => false
  | .trapEntry _ _ _ => false
  | .pendingEntryComplete _ => false
  | .wcAgeDrain _ _ => false
  | .allowanceRefill => false
  | .ackReceive => false
  | .requestPacketReceive => false
  | .incarnationNotice => false
  | .requestTimeout => false
  | .planeFail => false
  | .quiesceNotice => false
  | .remapWrite => false
  | .dommaskWrite => false
  | .dropincRead => false
  | .lqownWrite => false
  | .lqEntryArrival => false
  | .commandStart _ => false
  | .leaveGrant _ => false
  | .governorInterval => false
  | .taskIssue _ => false
  | .maskHoldRelease _ _ => false
  | .maskDeadline _ _ => false
  | .dlwaitDeadline _ _ => false
  | .commandComplete _ _ => false
  | .mxtask _ _ => false
  | .mxconv _ _ => false
  | .cpy _ _ => false
  | .cpy2d _ _ => false
  | .gather _ _ => false
  | .scatter _ _ => false
  | .fill _ _ => false
  | .reqnt _ _ => false
  | .xpose _ _ => false
  | .hostfl _ _ => false
  | .ringx _ _ => false
  | .lqfwd _ _ => false
  | .migrate _ _ => false
  | .graphpost _ _ => false
  | .oldestAdvance _ _ => false
  | .prefetchRecord _ => false
  | .prefetchDeadline _ => false
  | .poolPop _ _ => false
  | .poolPush => false
  | .scheduleTick => false
  | .scheduleEntryWrite => false
  | .slotEnd _ => false
  | .spillContext _ => false
  | .frontCreate => false
  | .gustPlace => false
  | .frontComplete _ => false
  | .bar4Access => false
  | .hostWindowAccess => false
  | .preset => false
  | .watchdogExpire => false
  | .powerOn => false
  | .pcieFundamentalReset => false
  | .pcieHotReset => false
  | .vfFlr => false
  | .pfFlr => false
  | .thermalTrip => false
  | .supplyFaultTrip => false
  | .securityViolation => false
  | .fatalInternalError => false
  | .hbmEccError => false
  | .hbfReadError => false
  | .coreSramError => false
  | .dieLinkError => false
  | .pcieLinkError => false
  | .ptpSync => false
  | .ptpHoldover => false
  | .dbgacc => false
  | .dbgenWrite => false
  | .dbgTargetWrite => false
  | .dbgstatWrite => false
  | .haltFront => false
  | .resumeFront => false
  | .stepGust => false
  | .readWindowWord => false
  | .writeWindowWord => false
  | .resetPartition => false
  | .resetPackage => false
  | .drainFront => false
  | .instgo => false
  | .attgo => false
  | .attParamWrite => false
  | .feataccWrite => false
  | .registerWrite => false
  | .illegalWord _ _ => false
  | .fetchFault _ _ _ => false
  | .receivedCountReport => false
  | .remapAnswerTimeout => false
  | .supplyRailRecovery => false
  | .thermalTripRecovery => false
  | .installationComplete => false
  | .attestationReportWritten => false

/-- The first cause some list of checks raises. -/
def firstCause : List (Option Nat) → Option Nat
  | [] => none
  | none :: cs => firstCause cs
  | some c :: _ => some c

/-- The majors whose SB is an index (R76): with a PFX.I it must be 127. -/
def Instr.immNeedsNoIndex : Instr → Bool
  | .ld .. | .ldDf .. | .ldu .. | .lduDf .. | .ldx .. | .ldraw .. | .st .. | .spld .. | .spst .. | .ldlk .. | .stul ..
  | .spa .. | .capld .. | .capst .. => true
  | _ => false

/-- Cause 4, prefix misuse (R90, Table 6): a prefix that the instruction does not accept, a PFX.I before an indexed
M-format word, a BRD without PFX.M or with AUX = 0. A word with an unassigned value is no instruction that could refuse a
prefix: it has cause 2 (DEDUCED, log 13). -/
def Instr.pfxMisuse (i : Instr) : Bool :=
  let v := i.view
  (i.assigned && ((v.p.m.isSome && !v.sig.pfxM) || (v.p.i.isSome && !v.sig.pfxI)))
    || (v.p.i.isSome && i.immNeedsNoIndex && v.sb != 127)
    || (v.sig.join && (match v.p.m with | none => true | some m => m.aux == 0))

/-- The PFX.M in force: every field zero when the group has none (R81). -/
def Pfx.eff (p : Pfx) : PfxM := p.m.getD ⟨0, 0, 0, 0, 0⟩

/-- Whether a PFX.M holds a nonzero field that its row does not use, or an unaccepted SCOPE or AUX value (R81, R82). -/
def Sig.pfxUnused (g : Sig) (m : PfxM) : Bool :=
  (!g.pred && (m.mask != 0 || m.neg != 0))
    || !(g.scopes.contains m.scope.toNat)
    || (!g.rnd && m.rnd != 0)
    || (!g.join
        && ((m.aux.extractLsb' 8 8 != 0)
          || (!g.spawn && m.aux.extractLsb' 4 4 != 0)
          || (!g.track && m.aux.extractLsb' 1 3 != 0) || (m.aux.extractLsb' 1 3 == 7)
          || (!g.drift && m.aux.extractLsb' 0 1 != 0)))

/-- Causes 3 and 5 of an instruction that no field kind of R84 states: CAPNAR with D = SA (R192), an MTS to a register
that MTS cannot write (R39, R89). -/
def Instr.extraCause : Instr → Option Nat
  | .capnar _ f => if f.d = f.sa then some 5 else none
  | .mts _ f => if sysRegWritable f.off.toNat then none else some 5
  | _ => none

/-- The cause that the words alone determine (R90, Table 6, orders 1 to 7); none: the group is legal as far as its words
say. -/
def Instr.wordCause (i : Instr) : Option Nat :=
  let v := i.view
  firstCause
    [ (if i.pfxMisuse then some 4 else none),
      (match i with | .illz _ => some 8 | .ill _ => some 9 | .illegalWord _ c => some c | _ => none),
      (if i.assigned then none else some 2),
      (if v.sig.reserved ≠ 0 ∨ (v.w = 1 ∧ !v.sig.wOk) then some 3 else none),
      (match v.sig.sb.cause v.sb.toNat with | some 3 => some 3 | _ => none),
      (match v.sig.sa.cause v.sa.toNat with | some 3 => some 3 | _ => none),
      (match v.sig.d.cause v.d.toNat with | some 3 => some 3 | _ => none),
      (if v.sig.pfxUnused v.p.eff then some 3 else none),
      v.sig.sb.cause v.sb.toNat, v.sig.sa.cause v.sa.toNat, v.sig.d.cause v.d.toNat,
      i.extraCause ]

/-- A well-formed instruction: one that has an encoding, and whose words are a legal group. -/
def Instr.wf (i : Instr) : Bool := i.wordCause.isNone

end Sys2Proof
end

