-- ==== Sys2Proof/Machine/Operands.lean ====
section
/-! DEFINITION. Operands: tags and lane values, the register window and the trap bank, latches, masks, the write mask, and the
register write of R43 (spec/01 R15 to R25, R37, R38). -/

namespace Sys2Proof.Machine

/-! ## Values -/

/-- The tag code of a value (R21, Table 4). -/
def Val.tag : Val → Nat
  | .g _ => 0
  | .u _ => 1
  | .l _ _ => 2
  | .d _ _ => 3

/-- Whether a value counts towards GCNT: tag G or D (R25). -/
def Val.wide : Val → Bool
  | .g _ | .d _ _ => true
  | .u _ | .l _ _ => false

/-- Lane l of a value (R21, Table 4); of a drift record, of its general storage. -/
def Val.lane (v : Val) (l : Nat) : Word :=
  match v with
  | .g xs => laneGet xs l
  | .u x => x
  | .l b t => b + BitVec.ofNat 32 l * t
  | .d _ xs => laneGet xs l

/-- Whether a value is U. -/
def Val.isU : Val → Bool
  | .u _ => true
  | _ => false

/-- The symbol of a drift record. -/
def Val.sym? : Val → Option Nat
  | .d r _ => some r.sym
  | _ => none

/-- Lane l of a value in a gust: 0 outside LMASK (R8). -/
def Gust.lane (g : Gust) (v : Val) (l : Nat) : Word := if inMask g.lmask l then v.lane l else 0

/-- A G value from its lanes, 0 outside LMASK (R8). -/
def Gust.mkG (g : Gust) (f : Nat → Word) : Val := .g (column fun l => if inMask g.lmask l then f l else 0)

/-! ## Slots, registers, masks -/

def Gust.slot (g : Gust) (b : Bool) : Slot := if b then g.b else g.a
def Gust.setSlot (g : Gust) (b : Bool) (x : Slot) : Gust := if b then { g with b := x } else { g with a := x }
/-- A slot is live when its mask is nonzero (R9). -/
def Slot.live (x : Slot) : Bool := x.mask != 0

/-- Whether a window register field names the trap bank: v0 to v15 while a handler runs (R38). -/
def Gust.inTrapBank (g : Gust) (n : Nat) : Bool := g.handler != 0 && n < 16

/-- Whether a window register field names a register of the allocation or of the trap bank (R15, R38). -/
def Gust.windowOk (g : Gust) (n : Nat) : Bool := g.inTrapBank n || g.wb + n < g.alloc

/-- The register that field value n names (R15, R38). -/
def Gust.reg (g : Gust) (n : Nat) : Val :=
  if g.inTrapBank n then tabGetD g.trapBank n (.u 0) else tabGetD g.regs (g.wb + n) (.u 0)

/-- Stores a value in the register that field value n names. -/
def Gust.setReg (g : Gust) (n : Nat) (v : Val) : Gust :=
  if g.inTrapBank n then { g with trapBank := tabSet g.trapBank n v } else { g with regs := tabSet g.regs (g.wb + n) v }

/-- The register window of a gust at this moment. -/
def Gust.window (g : Gust) : Window := { wb := g.wb, trap := g.handler != 0 }

/-- A gust seen through the register window of another moment (R15, R38). -/
def Gust.seenBy (g : Gust) (w : Window) : Gust := { g with wb := w.wb, handler := if w.trap then 1 else 0 }

/-- What f does to a gust through the register window of another moment: WBASE and a handler of the other slot have moved the
fields since, not the registers that a group named when it issued. -/
def Gust.through (g : Gust) (w : Window) (f : Gust → Gust) : Gust := { f (g.seenBy w) with wb := g.wb, handler := g.handler }

/-- The capability tag of the quad that holds field value n (R37). -/
def Gust.capTag (g : Gust) (n : Nat) : Bool :=
  if g.inTrapBank n then g.trapCapTags.contains (n / 4) else g.capTags.contains ((g.wb + n) / 4)

/-- Sets or clears the capability tag of the quad that holds field value n (R37). -/
def Gust.setCapTag (g : Gust) (n : Nat) (t : Bool) : Gust :=
  if g.inTrapBank n then
    { g with trapCapTags := if t then setAdd g.trapCapTags (n / 4) else g.trapCapTags.filter (· != n / 4) }
  else
    { g with capTags := if t then setAdd g.capTags ((g.wb + n) / 4) else g.capTags.filter (· != (g.wb + n) / 4) }

/-- Whether a table's value counts towards GCNT. -/
def wideCount (t : Tab Val) : Nat := (t.filter fun e => e.2.wide).length

/-- Whether an absolute register counts as G for a REGROUP that has still to write its flag (R130). -/
def Gust.reserved (g : Gust) (n : Nat) : Bool := g.flagReserved.any fun e => e.2 == n

/-- GCNT: the registers of tag G or D (R25), and the reservations of REGROUP (R130). -/
def Gust.gcnt (g : Gust) : Nat :=
  wideCount g.regs + (((g.flagReserved.map fun e => e.2).dedup).filter fun n => !(tabGetD g.regs n (.u 0)).wide).length

/-- Mask register m_k; m0 reads all ones (R34). -/
def Gust.maskReg (g : Gust) (k : Nat) : Word := if k = 0 then 0xFFFFFFFF else g.masks.getD (k - 1) 0

/-- Writes mask register m_k, k from 1 to 7. -/
def Gust.setMask (g : Gust) (k : Nat) (m : Word) : Gust := { g with masks := listSet g.masks (k - 1) m }

/-- Latch L_k of a slot, k from 1 to 8 (R17). -/
def Slot.latch (x : Slot) (k : Nat) : Latch := x.latches.getD (k - 1) (.empty 1)

/-- The operand that a source field names (R17): a register of the window or a latch. -/
def Gust.src (g : Gust) (b : Bool) (f : Nat) : Val :=
  if f < 120 then g.reg f
  else
    match (g.slot b).latch (f - 119) with
    | .val v => v
    | .empty _ => .u 0

/-! ## What a group names -/

/-- Registers that a field of a kind names, as a first register and a count (R84). -/
def kindRegs (k : Kind) (v : Nat) : List (Nat × Nat) :=
  match k with
  | .src | .dst | .block | .spare => if v < 120 then [(v, 1)] else []
  | .idx => if v < 120 then [(v, 1)] else []
  | .pair => [(v, 2)]
  | .quad => [(v, 4)]
  | .cmd => [(v, 16)]
  | .block8 => [(v, 8)]
  | .had n => [(v, n)]
  | .mask | .maskDst | .zero | .raw _ _ => []

/-- The latch that a field of a kind reads, 1 to 8 (R17, R76: an index field of 127 names none). -/
def kindLatch (k : Kind) (v : Nat) : Option Nat :=
  match k with
  | .src => if 120 ≤ v then some (v - 119) else none
  | .idx => if 120 ≤ v ∧ v < 127 then some (v - 119) else none
  | _ => none

/-- The window registers that a group names. -/
def namedRegs (i : Instr) : List (Nat × Nat) :=
  let v := i.view
  kindRegs v.sig.sb v.sb.toNat ++ kindRegs v.sig.sa v.sa.toNat ++ kindRegs v.sig.d v.d.toNat

/-- The registers of a field that a group reads or writes: none for a spare field (R192). -/
def kindUses (k : Kind) (v : Nat) : List (Nat × Nat) := if k = .spare then [] else kindRegs k v

/-- The window registers that a group reads or writes. -/
def usedRegs (i : Instr) : List (Nat × Nat) :=
  let v := i.view
  kindUses v.sig.sb v.sb.toNat ++ kindUses v.sig.sa v.sa.toNat ++ kindUses v.sig.d v.d.toNat

/-- The latches that a group reads. -/
def latchesRead (i : Instr) : List Nat :=
  let v := i.view
  (kindLatch v.sig.sa v.sa.toNat).toList ++ (kindLatch v.sig.sb v.sb.toNat).toList

/-- Whether every register of a run is in the window (R15). -/
def Gust.runOk (g : Gust) (r : Nat × Nat) : Bool := (List.range r.2).all fun j => g.windowOk (r.1 + j)

/-- The symbol of the first drift record in a run of registers. -/
def Gust.runDrift (g : Gust) (r : Nat × Nat) : Option Nat := (List.range r.2).findSome? fun j => (g.reg (r.1 + j)).sym?

/-- The symbol that a group waits for before it may use its operands as plain values (R30). A destination that W = 1 leaves
unwritten is among them: L1 holds what Wr would store there, the old value of D expanded (R93), and R24 speaks of a write alone
(DESIGN CHOICE, log 74). -/
def Gust.driftOf (g : Gust) (b : Bool) (i : Instr) : Option Nat :=
  match (usedRegs i).findSome? g.runDrift with
  | some s => some s
  | none => (latchesRead i).findSome? fun k => match (g.slot b).latch k with | .val v => v.sym? | .empty _ => none

/-- The cause of FLT.LATCH of a group: that of the first empty latch it reads (R20). -/
def Gust.latchCause (g : Gust) (b : Bool) (i : Instr) : Option Nat :=
  (latchesRead i).findSome? fun k => match (g.slot b).latch k with | .val _ => none | .empty c => some c

/-! ## The issuing group -/

/-- The group that issues: its instruction, the gust before it, the gust that its operands are read from (R372: for an access
of a twin its primary, else the gust itself), its slot, Active() (R22), the group's address and the address of the next group
(R72), and the wait that the slot comes out of. -/
structure Ctx where
  i : Instr
  g : Gust
  lead : Gust
  b : Bool
  wm : Word
  pc : BitVec 56
  next : BitVec 56
  prev : Option Wait
  deriving DecidableEq, Repr

/-- How many words a group takes (R72). -/
def groupWords (i : Instr) : Nat :=
  match i with
  | .illegalWord ws _ => ws.length
  | _ => (if i.view.p.m.isSome then 1 else 0) + (if i.view.p.i.isSome then 1 else 0) + 1

/-- The predicate of a group (R22): the PFX.M mask register, negated when NEG is set. -/
def Gust.predicate (g : Gust) (m : PfxM) : Word :=
  let r := g.maskReg m.mask.toNat
  if m.neg = 1 then ~~~r else r

/-- The context of the group that issues. -/
def mkCtx (i : Instr) (g : Gust) (b : Bool) : Ctx where
  i := i
  g := g
  lead := g
  b := b
  wm := (g.slot b).mask &&& g.predicate i.view.p.eff
  pc := (g.slot b).pc
  next := (g.slot b).pc + BitVec.ofNat 56 (4 * groupWords i)
  prev := (g.slot b).wait

/-- Why a group does not complete with its body: a fault or trap with the state its rule leaves, a wait, or an arrival at a
barrier whose unit has already done with the slot what its rule says (R134). -/
inductive Stop where
  | fault (s : State) (r : TrapReq)
  /-- a fault of some lanes of a blocking access whose other lanes' replies are out (R153) -/
  | late (s : State) (r : TrapReq) (rep : Reply)
  | wait (s : State) (w : Wait)
  | arrived (s : State)
  deriving DecidableEq, Repr

/-- The mask of the executing slot. -/
def Ctx.smask (c : Ctx) : Word := (c.g.slot c.b).mask

/-- A fault that is no memory fault (R362): XMASK is the slot's mask. -/
def Ctx.fault (c : Ctx) (s : State) (code cause : Nat) : Stop := .fault s { code := code, cause := cause, xmask := c.smask }

/-- The source operand of a field. -/
def Ctx.src (c : Ctx) (f : BitVec 7) : Val := c.lead.src c.b f.toNat
/-- Lane l of the source operand of a field (R8, R43). -/
def Ctx.rd (c : Ctx) (f : BitVec 7) (l : Nat) : Word := c.lead.lane (c.src f) l
/-- Lane l of a pair (R16). -/
def Ctx.rd64 (c : Ctx) (f : BitVec 7) (l : Nat) : DWord :=
  DWord.mk (c.lead.lane (c.lead.reg (f.toNat + 1)) l) (c.lead.lane (c.lead.reg f.toNat) l)
/-- Lane l of a pair whose first field is n (R16). -/
def Ctx.rdPair (c : Ctx) (n l : Nat) : DWord := DWord.mk (c.lead.lane (c.lead.reg (n + 1)) l) (c.lead.lane (c.lead.reg n) l)
/-- The lowest lane of Active() (R120, R152). -/
def Ctx.low (c : Ctx) : Nat := lowLane c.wm

/-! ## Writing registers -/

/-- The value that Wr stores (R22 to R24): nothing changes under an empty write mask; a partial write gives G. -/
def Gust.stored (g : Gust) (wm : Word) (old new : Val) : Val :=
  if wm = 0 then old
  else if wm = g.lmask then new
  else g.mkG fun l => if inMask wm l then new.lane l else old.lane l

/-- Stores a value by Wr under a write mask, with the capability tag of the quad cleared (R37, R43). -/
def Gust.write1 (g : Gust) (wm : Word) (n : Nat) (v : Val) : Gust :=
  if wm = 0 then g else (g.setReg n (g.stored wm (g.reg n) v)).setCapTag n false

/-- Stores several values by Wr under one write mask (R16). -/
def Gust.writeAll (g : Gust) (wm : Word) : List (Nat × Val) → Gust
  | [] => g
  | (n, v) :: ws => (g.write1 wm n v).writeAll wm ws

/-- The change that a write makes to GCNT, as growth and loss (R25). -/
def Gust.growth (g : Gust) (wm : Word) (n : Nat) (v : Val) : Nat × Nat :=
  if g.inTrapBank n then (0, 0)
  else
    let o := (g.reg n).wide || g.reserved (g.wb + n)
    let w := (g.stored wm (g.reg n) v).wide || g.reserved (g.wb + n)
    (if w && !o then 1 else 0, if o && !w then 1 else 0)

/-- Whether writes would raise GCNT above GBUD (R25). -/
def Gust.overBudget (g : Gust) (wm : Word) (ws : List (Nat × Val)) : Bool :=
  let grow := (ws.map fun w => (g.growth wm w.1 w.2).1).sum
  let lose := (ws.map fun w => (g.growth wm w.1 w.2).2).sum
  decide (lose < grow) && decide (g.gbud < g.gcnt + (grow - lose))

end Sys2Proof.Machine
end

