-- ==== Sys2Proof/Machine/SaveArea.lean ====
section
/-! DEFINITION. Save areas (spec/01 R41, R42, spec/13 R367, R370 Table 5): the bytes that the spill engine writes for a context,
and the context that it reads back. -/

namespace Sys2Proof.Machine

/-! ## Registers and latches (R42) -/

/-- A drift record as its 16 bytes (R27, Table 6). -/
def Drift.bytes (r : Drift) : List Byte :=
  bytesOf 1 r.sym ++ bytesOf 1 r.kind ++ [0, 0] ++ bytesOf 4 r.a.toNat ++ bytesOf 8 r.b.toNat

/-- A register or latch record: its tag byte, then its payload (R42). -/
def Val.record (v : Val) : List Byte :=
  bytesOf 1 v.tag ++
    match v with
    | .g xs => lanes.flatMap fun l => bytesOf 4 (laneGet xs l).toNat
    | .u x => bytesOf 4 x.toNat
    | .l b t => bytesOf 4 b.toNat ++ bytesOf 4 t.toNat
    | .d r _ => r.bytes

/-- A latch's record: an empty one is the byte 0x80 (R42). -/
def Latch.record (x : Latch) : List Byte := match x with | .empty _ => [0x80] | .val v => v.record

/-- Zero bytes up to a multiple of 64. -/
def padded (bs : List Byte) : List Byte := bs ++ List.replicate ((64 - bs.length % 64) % 64) 0

/-- The register section (R42). -/
def Gust.registerSection (g : Gust) : List Byte :=
  padded (((List.range g.alloc).flatMap fun n => (tabGetD g.regs n (.u 0)).record)
    ++ ((List.range 8).flatMap fun n => (g.a.latch (n + 1)).record) ++ ((List.range 8).flatMap fun n => (g.b.latch (n + 1)).record)
    ++ (List.range 16).flatMap fun n => (tabGetD g.trapBank n (.u 0)).record)

/-- The number in n bytes of a save area. -/
def areaNat (bs : List Byte) (off n : Nat) : Nat := natOfBytes ((bs.drop off).take n)
/-- The word at an offset of a save area. -/
def areaWord (bs : List Byte) (off : Nat) : Word := BitVec.ofNat 32 (areaNat bs off 4)

/-- The value of a record, and the bytes behind it; the general storage under a drift record is what the register holds
(log 8). -/
def takeVal (bs : List Byte) (under : List Word) : Val × List Byte :=
  let w := fun i => areaWord bs (1 + 4 * i)
  match areaNat bs 0 1 % 4 with
  | 0 => (.g (column w), bs.drop 129)
  | 1 => (.u (w 0), bs.drop 5)
  | 2 => (.l (w 0) (w 1), bs.drop 9)
  | _ => (.d ⟨areaNat bs 1 1 % 8, areaNat bs 2 1, w 1, BitVec.ofNat 64 (areaNat bs 9 8)⟩ under, bs.drop 17)

/-- The general storage of a value. -/
def Val.storage (v : Val) : List Word := match v with | .g xs | .d _ xs => xs | _ => []

/-- Registers n up to n + count of a table, read from their records; a register that holds U 0 is not listed. -/
def takeRegs (old : Tab Val) : Nat → Nat → List Byte → Tab Val × List Byte
  | 0, _, bs => ([], bs)
  | count + 1, n, bs =>
    let v := takeVal bs (tabGetD old n (.u 0)).storage
    let r := takeRegs old count (n + 1) v.2
    (if v.1 = .u 0 then r.1 else (n, v.1) :: r.1, r.2)

/-- Latches read from their records: an empty one reports cause 1 (log 42). -/
def takeLatches (old : List Latch) : Nat → Nat → List Byte → List Latch × List Byte
  | 0, _, bs => ([], bs)
  | count + 1, n, bs =>
    let under := match old.getD n (.empty 1) with | .val v => v.storage | .empty _ => []
    let v : Latch × List Byte :=
      if areaNat bs 0 1 = 0x80 then (.empty 1, bs.drop 1) else let x := takeVal bs under; (.val x.1, x.2)
    let r := takeLatches old count (n + 1) v.2
    (v.1 :: r.1, r.2)

/-! ## The fixed part (R41, Table 10) -/

/-- The code of a wait reason (R41, R325). -/
def Wait.reason : Wait → Nat
  | .reply _ | .replySlot _ | .form _ | .fence _ _ | .flush _ | .counterFull _ | .heap _ | .lock _ | .leave => 1
  | .landed _ _ | .drift _ | .symbol | .quiet => 2
  | .headwind _ => 3
  | .barrier .. | .drain .. | .held .. => 4
  | .sb _ _ => 5
  | .timeline _ _ | .dlwait .. => 6
  | .range _ _ => 7

/-- The wait reason of a gust: that of slot A when it waits, otherwise of slot B (log 8); 0 none. -/
def Gust.reason (g : Gust) : Nat :=
  match g.a.wait, g.b.wait with
  | some w, _ | none, some w => w.reason
  | none, none => 0

/-- Whether a gust waits: every live slot of it does. -/
def Gust.waits (g : Gust) : Bool :=
  (g.a.live || g.b.live) && (!g.a.live || g.a.wait.isSome) && (!g.b.live || g.b.wait.isSome)

/-- The state of a context (R41, R367): 0 runnable, 1 waiting, 2 halted, 3 in a handler, 4 in a handler and halted. -/
def Gust.contextState (g : Gust) : Nat :=
  if g.handler ≠ 0 then (if g.halted then 4 else 3) else if g.halted then 2 else if g.waits then 1 else 0

/-- The number whose bit n is p n, for n below a bound. -/
def bitSet (p : Nat → Bool) (n : Nat) : Nat := ((List.range n).map fun i => if p i then 2 ^ i else 0).sum

/-- Latch validity of a slot. -/
def Slot.validity (x : Slot) : Nat := bitSet (fun n => match x.latch (n + 1) with | .val _ => true | .empty _ => false) 8

/-- The attributes of a symbol: uniform load, signed, size. -/
def Sym.attributes (y : Sym) : Nat := (if y.uniform then 1 else 0) + (if y.signed then 2 else 0) + 4 * y.size

/-- The 32 words of a symbol's buffer: raw loaded bits once the reply has landed, zero above the load size. -/
def Sym.buffer (y : Sym) : List Byte :=
  lanes.flatMap fun l => bytesOf 4 (if y.state = 2 then (laneGet y.raw l).toNat % 2 ^ (8 * 2 ^ y.size) else 0)

/-- The trap-return record: zeros outside a handler with no pending entry (R367). -/
def Gust.trapRecord (g : Gust) : List Byte :=
  match g.trapRet with
  | none => List.replicate 32 0
  | some t =>
    bytesOf 8 t.pc.toNat ++ bytesOf 4 t.mask.toNat ++ bytesOf 4 0 ++ bytesOf 8 t.join.toNat
      ++ bytesOf 1 (if t.slotB then 1 else 0) ++ bytesOf 1 t.kind ++ List.replicate 6 0

/-- Bytes 0x010 to 0x07F: slots, window and budget, memberships, masks, counters. -/
def Gust.controlPart (g : Gust) : List Byte :=
  bytesOf 8 g.a.pc.toNat ++ bytesOf 8 g.a.join.toNat ++ bytesOf 8 g.b.pc.toNat ++ bytesOf 8 g.b.join.toNat
    ++ bytesOf 4 g.a.mask.toNat ++ bytesOf 4 g.b.mask.toNat ++ bytesOf 4 g.lmask.toNat
    ++ bytesOf 1 g.dsp ++ bytesOf 1 (if g.nextB then 1 else 0) ++ bytesOf 1 g.a.validity ++ bytesOf 1 g.b.validity
    ++ bytesOf 2 g.wb ++ bytesOf 2 g.alloc ++ bytesOf 2 g.gbud ++ bytesOf 2 g.gcnt
    ++ ([0, 1, 2, 3].flatMap fun i => bytesOf 2 (g.members.getD i 0).toNat)
    ++ ((List.range 8).flatMap fun k => bytesOf 4 (g.maskReg k).toNat)
    ++ ((List.range 6).flatMap fun c => bytesOf 1 (g.posted.filter fun p => p.counter == some c).length)
    ++ bytesOf 1 g.ten.toNat ++ bytesOf 1 g.pending ++ bytesOf 8 0

/-- Bytes 0x080 to 0x0DF: flags, capability tags, the X registers. -/
def Gust.statusPart (g : Gust) : List Byte :=
  ([g.fNX, g.fUF, g.fOF, g.fDZ, g.fNV].flatMap fun w => bytesOf 4 w.toNat)
    ++ bytesOf 1 (bitSet (g.trapCapTags.contains ·) 4) ++ List.replicate 11 0
    ++ bytesOf 16 (bitSet (g.capTags.contains ·) 128) ++ bytesOf 8 g.xpc.toNat ++ bytesOf 8 g.xfpc.toNat ++ bytesOf 8 0
    ++ ([g.xmask, g.xother, g.xdone, g.xcause, g.xdest, 0].flatMap fun w => bytesOf 4 w.toNat)

/-- Bytes 0x0E0 to 0x6FF: the symbols, the trap-return record, XADDR. -/
def Gust.symbolPart (g : Gust) : List Byte :=
  let y := fun n => g.syms.getD n {}
  ((List.range 8).flatMap fun n => bytesOf 1 (y n).state) ++ ((List.range 8).flatMap fun n => bytesOf 1 (y n).attributes)
    ++ List.replicate 16 0 ++ ((List.range 8).flatMap fun n => bytesOf 4 (y n).mask.toNat) ++ g.trapRecord
    ++ List.replicate 192 0 ++ ((List.range 8).flatMap fun n => (y n).buffer)
    ++ lanes.flatMap fun l => bytesOf 8 (g.xaddr.getD l 0).toNat

/-- The 1792 bytes of the fixed part (R41, Table 10), for a record of a length. -/
def Gust.fixedPart (g : Gust) (frontId : Word) (len : Nat) : List Byte :=
  bytesOf 2 1 ++ bytesOf 1 g.contextState ++ bytesOf 1 g.reason ++ bytesOf 4 g.gustId ++ bytesOf 4 frontId.toNat ++ bytesOf 4 len
    ++ g.controlPart ++ g.statusPart ++ g.symbolPart

/-- The task section (R370, Table 5): the count, each task's context and timeline number, padded to 64 bytes (log 8), then the
64-byte records in acceptance order; nothing without tasks. -/
def taskSection (ts : List (Nat × Nat × List Byte)) : List Byte :=
  if ts.isEmpty then []
  else padded (bytesOf 4 ts.length ++ ts.flatMap fun t => bytesOf 4 t.1 ++ bytesOf 4 t.2.1) ++ ts.flatMap fun t => t.2.2

/-- The bytes of a context's save area. -/
def Gust.saveBytes (g : Gust) (frontId : Word) (ts : List (Nat × Nat × List Byte)) : List Byte :=
  let tail := g.registerSection ++ taskSection ts
  g.fixedPart frontId (0x700 + tail.length) ++ tail

/-! ## Writing and reading -/

/-- FRONTID of a gust's front. -/
def State.frontIdOf (s : State) (g : Gust) : Word := match s.front? g.front with | some f => f.frontId | none => 0

/-- A gust and, when it has one, its twin (R372). -/
def State.withTwin (s : State) (k : Nat) (g : Gust) : List Gust := g :: (tabGet? s.twins k).toList

/-- The record length of a save area (R41). -/
def State.saveLength (s : State) (g : Gust) : Nat := s.readNat (s.own (g.saveArea + 0xC)) 4

/-- The spill engine's write of a context's save area, and of its twin's (R370). -/
def State.writeSave (s : State) (k : Nat) (g : Gust) (ts : List (Nat × Nat × List Byte)) : State :=
  (s.withTwin k g).foldl (fun t h => t.hubStore (t.own h.saveArea) (h.saveBytes (s.frontIdOf g) ts)) s

/-- What happens to a swapped-out context is written to its save area (R137, R385). -/
def State.resave (s : State) (k : Nat) : State :=
  if resident k then s
  else
    match s.gust? k with
    | some g => (s.withTwin k g).foldl
        (fun t h => t.hubStore (t.own h.saveArea) (h.fixedPart (s.frontIdOf g) (s.saveLength h) ++ h.registerSection)) s
    | none => s

/-- The reply of a drift load written into the saved symbol buffer, and the symbol's state (R33). -/
def State.landSaved (s : State) (k : Nat) (g : Gust) (n : Nat) (y : Sym) : State :=
  (s.withTwin k g).foldl (fun t h =>
    (t.hubStore (t.own (h.saveArea + 0xE0 + n)) (bytesOf 1 y.state)).hubStore (t.own (h.saveArea + 0x200 + 128 * n)) y.buffer) s

/-- The symbol of a number as a save area holds it. -/
def savedSym (bs : List Byte) (n : Nat) (y : Sym) : Sym :=
  let at' := areaNat bs (0xE8 + n) 1
  let st := areaNat bs (0xE0 + n) 1
  { y with state := st, mask := areaWord bs (0x100 + 4 * n), uniform := at' % 2 == 1, signed := at' / 2 % 2 == 1,
           size := at' / 4 % 4, raw := if st = 2 then column fun l => areaWord bs (0x200 + 128 * n + 4 * l) else y.raw }

/-- The trap-return record of a save area (R367), with the barrier wait that the trap interrupted. -/
def savedTrap (bs : List Byte) (kept : Option KeptWait) : Option TrapRet :=
  let kind := areaNat bs 0x139 1
  if kind = 0 then none
  else
    some { slotB := areaNat bs 0x138 1 == 1, pc := BitVec.ofNat 56 (areaNat bs 0x120 8), mask := areaWord bs 0x128,
           join := BitVec.ofNat 56 (areaNat bs 0x130 8), kind := kind, kept := kept }

/-- A slot as a save area holds it at offsets; what Table 10 does not hold of it stays. -/
def savedSlot (bs : List Byte) (x : Slot) (pc join mask : Nat) (ls : List Latch) : Slot :=
  { x with pc := BitVec.ofNat 56 (areaNat bs pc 8), join := BitVec.ofNat 56 (areaNat bs join 8), mask := areaWord bs mask,
           latches := ls, wait := if areaNat bs 3 1 = 0 then none else x.wait }

/-- A context as its save area holds it (R42): a state that Table 10 and the register section do not hold is g's. -/
def Gust.ofSave (g : Gust) (bs : List Byte) : Gust :=
  let alloc := areaNat bs 0x42 2
  let regs := takeRegs g.regs alloc 0 (bs.drop 0x700)
  let la := takeLatches g.a.latches 8 0 regs.2
  let lb := takeLatches g.b.latches 8 0 la.2
  let bank := takeRegs g.trapBank 16 0 lb.2
  let st := areaNat bs 2 1
  let trap := savedTrap bs (g.trapRet.bind fun t => t.kept)
  { g with
    gustId := areaNat bs 4 4
    a := savedSlot bs g.a 0x10 0x18 0x30 la.1
    b := savedSlot bs g.b 0x20 0x28 0x34 lb.1
    lmask := areaWord bs 0x38
    dsp := areaNat bs 0x3C 1
    nextB := areaNat bs 0x3D 1 == 1
    wb := areaNat bs 0x40 2
    alloc := alloc
    gbud := areaNat bs 0x44 2
    members := [0, 1, 2, 3].map fun i => BitVec.ofNat 16 (areaNat bs (0x48 + 2 * i) 2)
    masks := (List.range 7).map fun k => areaWord bs (0x54 + 4 * k)
    ten := BitVec.ofNat 5 (areaNat bs 0x76 1)
    pending := areaNat bs 0x77 1
    fNX := areaWord bs 0x80
    fUF := areaWord bs 0x84
    fOF := areaWord bs 0x88
    fDZ := areaWord bs 0x8C
    fNV := areaWord bs 0x90
    trapCapTags := (List.range 4).filter fun k => (areaNat bs 0x94 1).testBit k
    capTags := (List.range 128).filter fun q => (areaNat bs 0xA0 16).testBit q
    xpc := BitVec.ofNat 64 (areaNat bs 0xB0 8)
    xfpc := BitVec.ofNat 64 (areaNat bs 0xB8 8)
    xmask := areaWord bs 0xC8
    xother := areaWord bs 0xCC
    xdone := areaWord bs 0xD0
    xcause := areaWord bs 0xD4
    xdest := areaWord bs 0xD8
    syms := (List.range 8).map fun n => savedSym bs n (g.syms.getD n {})
    trapRet := trap
    handler := if st = 3 ∨ st = 4 then (match trap with | some t => t.kind | none => 0) else 0
    halted := st == 2 || st == 4
    xaddr := lanes.map fun l => BitVec.ofNat 64 (areaNat bs (0x600 + 8 * l) 8)
    regs := regs.1
    trapBank := bank.1 }

/-- The spill engine's read of a context's save area (R42, R370). -/
def State.readSave (s : State) (k : Nat) : State :=
  match s.gust? k with
  | some g => s.setGust k (g.ofSave (s.readBytes (s.own g.saveArea) (s.saveLength g)))
  | none => s

end Sys2Proof.Machine
end

