-- ==== Sys2Proof/Machine/Quads.lean ====
section
/-! DEFINITION. The layout of capabilities (spec/06 R189) and the quads that hold them (spec/01 R37). -/

namespace Sys2Proof.Machine

/-- A capability as a number of 128 bits (R189: bits [32k+31:32k] in register 4q+k). -/
abbrev Cap := Nat

def capKind (x : Cap) : Nat := bitsOf x 2 0
def capPerm (x : Cap) : Nat := bitsOf x 11 4
def capSpec (x : Cap) : Nat := bitsOf x 31 16
def capWord1 (x : Cap) : Nat := bitsOf x 63 32
/-- BASE of kinds 0 and 1. -/
def capBase (x : Cap) : Nat := bitsOf x 87 32
/-- LEN of kinds 0 and 1, in bytes. -/
def capLen (x : Cap) : Nat := bitsOf x 127 96 * 64
/-- POSLO of kind 2. -/
def capPosLo (x : Cap) : Nat := bitsOf x 95 64
/-- POSHI of kind 2. -/
def capPosHi (x : Cap) : Nat := bitsOf x 127 96
/-- The descriptor address of kind 2. -/
def capDesc (x : Cap) : Nat := bitsOf x 59 32 * 2 ^ 28 + capSpec x * 2 ^ 12
/-- The loop queue of kind 3. -/
def capQueue (x : Cap) : Nat := bitsOf x 21 16

/-- Whether a quad is malformed (R189). -/
def capMalformed (x : Cap) : Bool :=
  4 ≤ capKind x || bitsOf x 3 3 != 0 || bitsOf x 15 12 != 0
    || (match capKind x with
        | 0 => bitsOf x 11 6 != 0 || capSpec x != 0 || bitsOf x 37 32 != 0 || bitsOf x 95 88 != 0
        | 1 => bitsOf x 11 6 != 0 || bitsOf x 31 28 != 0 || bitsOf x 37 32 != 0 || bitsOf x 95 88 != 0
        | 2 => bitsOf x 11 8 != 0 || bitsOf x 63 60 != 0 || decide (capPosHi x < capPosLo x)
        | _ => bitsOf x 11 6 != 0 || bitsOf x 31 22 != 0 || bitsOf x 127 32 != 0)

/-- The quad of a field, in lane l. -/
def Ctx.quad (c : Ctx) (f : BitVec 7) (l : Nat) : Cap :=
  (c.rdPair f.toNat l).toNat + 2 ^ 64 * (c.rdPair (f.toNat + 2) l).toNat

end Sys2Proof.Machine
end

