-- ==== Sys2Proof/Machine/Twin.lean ====
section
/-! DEFINITION. What a group sends out of its core (spec/06 R151, spec/13 R373): effective addresses, data, and the CRC-32C that
twinned gusts compare. -/

namespace Sys2Proof.Machine

/-- EA[l] of a load or store (R151): the pair SA plus the sign-extended index SB, or the 36-bit immediate. -/
def Ctx.ea (c : Ctx) (sa sb : BitVec 7) (l : Nat) : DWord :=
  let idx : DWord :=
    match c.i.view.p.i with
    | some h => BitVec.ofInt 64 (h ++ (0 : BitVec 11) : BitVec 36).toInt
    | none => if sb = 127 then 0 else (c.rd sb l).signExtend 64
  c.rd64 sa l + idx

/-- EA[l] of an atomic (R151): SA plus the immediate when one is present. -/
def Ctx.eaAtomic (c : Ctx) (sa : BitVec 7) (l : Nat) : DWord :=
  match c.i.view.p.i with
  | some h => c.rd64 sa l + BitVec.ofInt 64 (h ++ (0 : BitVec 11) : BitVec 36).toInt
  | none => c.rd64 sa l

/-- The bytes of an access of size K (R87, R156). -/
def sizeOf (k : Nat) : Nat :=
  match k with
  | 0 | 1 => 1
  | 2 | 3 => 2
  | 4 => 4
  | 5 => 8
  | _ => 16

/-- The registers of an access of size K. -/
def regsOf (k : Nat) : Nat := if k = 5 then 2 else if k = 6 then 4 else 1

/-- Lane l of an atomic's operand, 4 or 8 bytes (R171). -/
def Ctx.operand (c : Ctx) (f : BitVec 7) (size l : Nat) : DWord :=
  if size = 8 then c.rd64 f l else (c.rd f l).zeroExtend 64

/-- The bytes that lane l of the data registers stores (R159). -/
def Ctx.dataBytes (c : Ctx) (d : BitVec 7) (k l : Nat) : List Byte :=
  ((List.range (regsOf k)).flatMap fun j => bytesOf 4 (c.lead.lane (c.lead.reg (d.toNat + j)) l).toNat).take (sizeOf k)

/-! ## CRC-32C -/

/-- n steps of CRC-32C (Castagnoli, reflected). -/
def crcSteps : Nat → Word → Word
  | 0, c => c
  | n + 1, c => crcSteps n (if c.getLsbD 0 then c >>> 1 ^^^ 0x82F63B78 else c >>> 1)

/-- CRC-32C of bytes: initial value and final XOR of all ones (R373). -/
def crc32c (bs : List Byte) : Word := ~~~(bs.foldl (fun c b => crcSteps 8 (c ^^^ b.zeroExtend 32)) 0xFFFFFFFF)

/-! ## What a group does outside its registers (R372, R373) -/

/-- Whether an instruction sends something out of the core that a twinned gust compares first (R373): the push of a BRD is a
store as well. -/
def leavesCore : Instr → Bool
  | .st .. | .atom .. | .atomr .. | .atomXchg .. | .atomCas .. | .atomrXchg .. | .atomrCas .. | .atomAdd64 ..
  | .atomrAdd64 .. | .atomrXchg64 .. | .atomrCas64 .. | .capst .. | .kvres .. | .kvapp .. | .kvpub .. | .kvseal ..
  | .kvprom .. | .push .. | .pushCore .. | .pushDie .. | .pushPkg .. | .lqsend .. | .brd .. => true
  | _ => false

/-- Whether an instruction accesses memory, the scratchpad, a queue or an engine (R372). -/
def accesses : Instr → Bool
  | .ld .. | .ldDf .. | .ldu .. | .lduDf .. | .ldx .. | .ldraw .. | .st .. | .spld .. | .spst .. | .ldlk .. | .stul .. | .spa ..
  | .atom .. | .atomr .. | .atomXchg .. | .atomCas .. | .atomrXchg .. | .atomrCas .. | .atomAdd64 .. | .atomrAdd64 ..
  | .atomrXchg64 .. | .atomrCas64 .. | .isyncRange .. | .hflush .. | .pref .. | .waittl .. | .rsbq .. | .awrd .. | .capld ..
  | .capst .. | .push .. | .pushCore .. | .pushDie .. | .pushPkg .. | .pushq .. | .tlrd .. | .kvres .. | .kvapp .. | .kvpub ..
  | .kvacq .. | .kvseal .. | .kvg .. | .kvqk .. | .kvav .. | .kvprom .. | .kvrm .. | .lqsend .. | .lqrecv .. | .lqpeek ..
  | .heaprd .. | .sdraw .. | .pncommit .. | .dlwait .. | .leaveq .. => true
  | _ => false

/-- The address and data of lane l of an atomic: its operand of a size, and for a compare the comparand. -/
def Ctx.sentAtomic (c : Ctx) (f : OForm) (size : Nat) (cas : Bool) (l : Nat) : List Byte :=
  bytesOf 8 (c.eaAtomic f.sa l).toNat ++ bytesOf size (c.operand f.sb size l).toNat
    ++ if cas then bytesOf size (c.operand f.d size l).toNat else []

/-- The words of lane l of n registers from field value r on. -/
def Ctx.runWords (c : Ctx) (r n l : Nat) : List Byte :=
  (List.range n).flatMap fun j => bytesOf 4 (c.lead.lane (c.lead.reg (r + j)) l).toNat

/-- The words of lane l of every register that a group names. -/
def Ctx.namedWords (c : Ctx) (l : Nat) : List Byte := (namedRegs c.i).flatMap fun r => c.runWords r.1 r.2 l

/-- What lane l of a group sends: its effective address and its data bytes; of a form without an effective address, the
words of the registers that it names (log 65). -/
def Ctx.sentLane (c : Ctx) (l : Nat) : List Byte :=
  match c.i with
  | .st _ f => bytesOf 8 (c.ea f.sa f.sb l).toNat ++ c.dataBytes f.d f.k.toNat l
  | .atom _ f | .atomr _ f => bytesOf 8 (c.eaAtomic f.sa l).toNat ++ bytesOf 4 (c.operand f.sb 4 l).toNat
  | .atomXchg _ f | .atomrXchg _ f => c.sentAtomic f 4 false l
  | .atomCas _ f | .atomrCas _ f => c.sentAtomic f 4 true l
  | .atomAdd64 _ f | .atomrAdd64 _ f | .atomrXchg64 _ f => c.sentAtomic f 8 false l
  | .atomrCas64 _ f => c.sentAtomic f 8 true l
  | .capst _ f => if l = c.low then bytesOf 8 (c.ea f.sa f.sb l).toNat ++ c.dataBytes f.d 6 l else []
  | _ => c.namedWords l

/-! ### The vectors of KVAPP (R220, R223) -/

/-- The odd register of CTL in the lowest lane. -/
def Ctx.ctl (c : Ctx) (sb : BitVec 7) : Nat := (c.lead.lane (c.lead.reg (sb.toNat + 1)) c.low).toNat
/-- The count; 0 reads as 1. -/
def ctlCount (x : Nat) : Nat := if bitsOf x 31 16 = 0 then 1 else bitsOf x 31 16

/-- The registers of KVAPP's vectors, 2·count·G, by the descriptor as the tables map it; none where it cannot be read. -/
def Ctx.vectorRegs (c : Ctx) (s : State) (f : RForm) : Nat :=
  let fr := s.frontOf c.g
  let va := capDesc (c.quad f.sa c.low)
  match s.walk fr.part fr.asid va with
  | .leaf x _ _ =>
    let g := 2 ^ ((s.readByte (x.domain va + 4)).toNat % 4)
    2 * g * min (32 / g) (ctlCount (c.ctl f.sb))
  | _ => 0

/-! ### The push of a BRD (R40, R124) -/

/-- The address of divergence-stack entry i (R40). -/
def Gust.stackAddr (g : Gust) (i : Nat) : Nat := g.frame.toNat + 16 * i

/-- Whether a wait ends by an event of its own, so that the slot that waits keeps it (R325). -/
def Wait.byEvent : Wait → Bool
  | .reply _ | .landed _ _ | .barrier .. | .drain .. => true
  | _ => false

/-- The record that a push stores for a slot (R40): the PC at which it goes on, its mask, its join offset. -/
def recordBytes (y : Slot) : List Byte :=
  let pc := if (y.wait.map Wait.byEvent) = some true then y.waitNext else y.pc
  bytesOf 8 pc.toNat ++ bytesOf 4 y.mask.toNat ++ bytesOf 4 ((y.join - pc).toNat)

/-- What a BRD's push sends: its address and its record; nothing when it does not split, or finds the other slot free. -/
def Ctx.sentPush (c : Ctx) (f : BForm) : List Byte :=
  let m := c.g.maskReg f.mr.toNat
  let t := c.smask &&& (if f.c = 0 then m else ~~~m)
  let y := c.g.slot (!c.b)
  if t = 0 ∨ t = c.smask ∨ !y.live then [] else bytesOf 8 (c.g.stackAddr c.g.dsp) ++ recordBytes y

/-! ### The CRC of a group (R373) -/

/-- What a group sends, over the lanes of its write mask in ascending order (R373); the entry of an LQSEND is that of its
lowest lane (R233), the vectors of a KVAPP those that its control pair and its descriptor give (R223). -/
def Ctx.sent (c : Ctx) (s : State) : List Byte :=
  match c.i with
  | .brd _ f => c.sentPush f
  | .kvapp _ f => (lanesOf c.wm).flatMap fun l => c.namedWords l ++ c.runWords f.d.toNat (c.vectorRegs s f) l
  | .lqsend _ f =>
    if c.wm = 0 then []
    else
      let a := (c.rd f.sb c.low).toNat
      (lanesOf c.wm).flatMap c.namedWords ++ bytesOf 8 a
        ++ (s.core s.curCore).spBytes ((s.frontOf c.g).spBase s.curCore + a) 512
  | _ => (lanesOf c.wm).flatMap c.sentLane

/-- The CRC-32C over what a group sends (R373). -/
def Ctx.crc (c : Ctx) (s : State) : Word := crc32c (c.sent s)

/-! ## Twinned gusts (R372) -/

/-- The gust whose operands a group of the issuing gust takes: while the twins run, an access takes those of the primary, since
it is performed once (R372, log 65). -/
def State.leadOf (s : State) (i : Instr) (g : Gust) : Gust :=
  if s.twinRun && accesses i then (tabGet? s.twins s.cur).getD g else g

/-- The context of the group that the issuing gust issues. -/
def State.groupCtx (s : State) (i : Instr) (g : Gust) : Ctx := { mkCtx i (s.leadOf i g) s.curB with g := g }

/-- The state in which each twin stands in its primary's place. -/
def State.swapTwins (s : State) : State :=
  { s with
    gusts := s.gusts.map fun e => (e.1, (tabGet? s.twins e.1).getD e.2)
    twins := s.twins.filterMap fun e => (s.gust? e.1).map fun g => (e.1, g)
    twinRun := !s.twinRun }

/-- The twin of a gust that has just been launched: the same values, with a save area of its own (log 65). -/
def Gust.launchTwin (g : Gust) : Gust := { g with saveArea := g.saveArea + 0x10000 }

/-- A state with the twins of its twinned gusts: what u has under the same key, for a gust that u's twins do not know the
twin at its launch. -/
def State.pairTwins (s u : State) (known : Tab Gust) : State :=
  { s with twins := (s.gusts.filter fun e => e.2.twin.isSome).map fun e =>
      (e.1, match (u.gust? e.1) with
        | some h => if known.any fun x => x.2.front == h.front && x.2.gustId == h.gustId then h else e.2.launchTwin
        | none => e.2.launchTwin) }

/-- A step of the machine for its gusts and for their twins (R372): both run the same groups, on the same memory; what a
twin does besides its own state is what its primary does. -/
def twinned (f : State → Outcome) (s : State) : Outcome :=
  match f s with
  | .next t =>
    if s.twins.isEmpty then .next (t.pairTwins t [])
    else
      match f s.swapTwins with
      | .next u => .next (t.pairTwins u s.twins)
      | _ => .next (t.pairTwins s.swapTwins s.twins)
  | r => r

end Sys2Proof.Machine
end

