-- ==== Sys2Proof/Machine/Ops.lean ====
section
/-! DEFINITION. The shared operations of the machine: taking a fault or trap and returning from it (spec/13 R357 to R365),
the end of a front, Settle and the divergence stack (spec/05 R125, spec/01 R40), the die barrier unit (R134), retirement
(R128), and the execution of one group (spec/01 R18, spec/03 R90, R91, spec/13 R359). -/

namespace Sys2Proof.Machine

/-! ## Fronts -/

/-- Sets the state of a node (R318); readyAt is the moment when it becomes READY. -/
def State.setNode (s : State) (inst node st : Nat) : State :=
  { s with
    insts := tabMod s.insts inst fun x =>
      { x with nodes := match x.nodes[node]? with
                        | some n => listSet x.nodes node { n with state := st, readyAt := s.nextReady }
                        | none => x.nodes }
    nextReady := s.nextReady + 1 }

/-- Releases the lock set of a gust (R169). -/
def State.releaseLocks (s : State) (k : Nat) : State :=
  let c := s.core (coreOf k)
  if c.locks.any (fun e => e.2 == k) then s.setCore (coreOf k) { c with locks := c.locks.filter fun e => e.2 != k } else s

/-- Discards the commands of a context that have not started, with their scoreboard entries, tasks and leave requests (R200,
R380). -/
def State.discardQueue (s : State) (e : Nat) : State :=
  match s.eng? e with
  | none => s
  | some x =>
    let gone := x.queue.map fun c => c.num
    let s1 := s.setEng e { x with queue := [] }
    { s1 with
      cores := s1.cores.map fun c => (c.1,
        { c.2 with rsb := c.2.rsb.filter fun r => !(r.eng == e && gone.contains r.num),
                   tasks := c.2.tasks.filter fun t => !(t.1 == e && gone.contains t.2) })
      dies := s1.dies.map fun d => { d with leave := d.leave.filter fun r => !(r.eng == e && gone.contains r.num) } }

/-- The context number by which a slot of a gust asks for leave (R202, R395): one of no engine. -/
def leaveKey (k : Nat) (b : Bool) : Nat := 1000000 + 2 * k + if b then 1 else 0

/-- Ends a front as a recovery action (R318, R366, R377 action 3): its gusts stop, its lock sets are released, its commands
that have not started are discarded, its node becomes FAILED, and the states of nodes follow. -/
def State.endFront (s : State) (f : Nat) : State :=
  match s.front? f with
  | none => s
  | some fr =>
    if fr.ended then s
    else
      let mine := s.gusts.filter fun e => e.2.front == f
      let posted := (mine.map fun e => e.2.posted).flatten
      let s1 := mine.foldl (fun (t : State) (e : Nat × Gust) => t.releaseLocks e.1) s
      let asked := fun (r : LeaveReq) => mine.any fun (e : Nat × Gust) => r.eng == leaveKey e.1 false || r.eng == leaveKey e.1 true
      let s2 := { s1 with gusts := s1.gusts.filter fun e => e.2.front != f
                          dies := s1.dies.map fun (d : Die) => { d with leave := d.leave.filter fun r => !(asked r) } }
      let s3 := ((s2.engs.filter fun e => e.2.front == f).map fun e => e.1).foldl State.discardQueue s2
      let s4 := s3.setFront f { fr with ended := true, posted := fr.posted ++ posted }
      (s4.setNode fr.inst fr.node 4).settleNodes

/-! ## Faults and traps -/

/-- The handler kind of a fault code (R357): 1 user, 2 supervisor. -/
def handlerKind (code : Nat) : Nat :=
  if code = 0x04 ∨ code = 0x08 ∨ code = 0x09 ∨ code = 0x0A ∨ code = 0x0B ∨ code = 0x12 ∨ code = 0x13 then 2 else 1

/-- The class of the record of an unhandled fault (R375). -/
def faultClass (code : Nat) : Nat :=
  if code = 0x07 then 0x03
  else if code = 0x08 ∨ code = 0x09 ∨ code = 0x0A then 0x02
  else if code = 0x0B then 0x06
  else if code = 0x10 then 0x04
  else if code = 0x13 then 0x0C
  else 0x01

/-- The record of a gust's fault that ends its front (R364, R375): class and code, the group, its masks and, for a fault
with addresses, the address of the lowest lane of XMASK. -/
def State.gustRecord (s : State) (k : Nat) (g : Gust) (cls code : Nat) (pc : BitVec 56) (xmask xdone : Word)
    (addr : Option Nat) : State :=
  let fr := s.frontOf g
  s.record { cls := cls, code := code, action := 3, part := fr.part, akind := if addr.isSome then 1 else 0, unit := 0,
             die := dieOf (coreOf k), num := coreOf k, asid := fr.asid, gust := some g.gustId, front := fr.frontId.toNat,
             addr := addr.getD 0,
             detail := bytesOf 8 pc.toNat ++ bytesOf 4 xmask.toNat ++ bytesOf 4 xdone.toNat }

/-- All latches of a slot empty (R19). -/
def Slot.noLatches (x : Slot) : Slot := { x with latches := List.replicate 8 (.empty 1) }

/-- The mask that a replay of a slot leaves out, when one is due (R149, R193). -/
def Gust.replayOf (g : Gust) (b : Bool) : Option Word := (g.replay.find? fun e => e.1 == b).map fun e => e.2

/-- The replay of a slot's path goes with the path to entry i of the divergence stack (R149, R193). -/
def Gust.pushReplay (g : Gust) (b : Bool) (i : Nat) : Gust :=
  { g with replay := g.replay.filter fun e => e.1 != b
           stackReplay := g.stackReplay ++ (g.replayOf b).toList.map fun d => (i, d) }

/-- The replay of the path in entry i of the divergence stack goes with the path to a slot. -/
def Gust.popReplay (g : Gust) (b : Bool) (i : Nat) : Gust :=
  { g with replay := g.replay ++ (g.stackReplay.filter fun e => e.1 == i).map fun e => (b, e.2)
           stackReplay := g.stackReplay.filter fun e => e.1 != i }

/-- The replay of the path that slot A holds once slot B's path has joined it (R125): what either has still to leave out. -/
def Gust.joinReplay (g : Gust) : Gust :=
  match g.replayOf false, g.replayOf true with
  | none, none => g
  | x, y => { g with replay := [(false, x.getD 0 ||| y.getD 0)] }

/-- The replays and REGROUPs of a gust without those of a slot. -/
def Gust.dropSlot (g : Gust) (b : Bool) : Gust :=
  { g with replay := g.replay.filter fun e => e.1 != b
           flagReserved := g.flagReserved.filter fun e => e.1 != b
           regroup := g.regroup.filter fun r => r.slotB != b }

/-- Whether a wait is one for a phase of a cohort, or for its counter to return to OPEN (R134). -/
def Wait.atBarrier : Wait → Bool
  | .barrier .. | .drain .. => true
  | _ => false

/-- The barrier wait of a slot, which a trap keeps (R150). -/
def Slot.keptWait (x : Slot) : Option KeptWait :=
  match x.wait with
  | some w => if w.atBarrier then some ⟨some w, x.waitNext⟩ else none
  | none => none

/-- Steps 1 to 3 of trap entry (R362): the X registers and the trap-return record, with the barrier wait that the trap
interrupts (R150). A replay of the slot ends, one of the other slot stands. -/
def Gust.recordTrap (g : Gust) (b : Bool) (r : TrapReq) : Gust :=
  let kept := (g.slot b).keptWait
  let g := if kept.isSome then { g with replay := g.replay.filter fun e => e.1 != b } else g.dropSlot b
  Gust.setSlot { g with
    xpc := (g.slot b).pc.zeroExtend 64
    xcause := BitVec.ofNat 32 (r.code * 65536 + r.cause)
    xmask := r.xmask
    xother := r.xother
    xdone := r.xdone
    xaddr := r.xaddr.getD g.xaddr
    trapRet := some ⟨b, (g.slot b).pc, (g.slot b).mask, (g.slot b).join, handlerKind r.code, kept⟩
    pending := handlerKind r.code } b { g.slot b with wait := none, pages := none }

/-- Steps 4 to 6 of trap entry (R362): latches empty, the trap bank mapped, the slot at the vector with the lanes of XMASK
OR XOTHER. -/
def Gust.enterHandler (g : Gust) (uvec svec : BitVec 56) : Gust :=
  match g.trapRet with
  | none => { g with pending := 0 }
  | some t =>
    let g1 := { g with a := g.a.noLatches, b := g.b.noLatches, handler := g.pending, pending := 0,
                       frozen := (g.slot (!t.slotB)).live }
    g1.setSlot t.slotB { g1.slot t.slotB with
      pc := if g.pending = 1 then uvec else svec
      mask := g.xmask ||| g.xother
      join := 0 }

/-- Whether an entry stays pending at this boundary (R366): the gust is halted or not resident in the active bank, or a halt
or a slot end falls due with it. -/
def State.holdsEntry (s : State) (k : Nat) (g : Gust) : Bool := g.halted || s.cut || !inActive k

/-- A fault or trap of a slot of a gust (R361 to R364): without a vector, or inside a handler, the front ends with a record;
otherwise steps 1 to 3 of the entry, and steps 4 to 6 unless it is held. -/
def State.faultAs (s : State) (k : Nat) (b : Bool) (r : TrapReq) (held : Bool) : State :=
  match s.gust? k with
  | none => s
  | some g =>
    let fr := s.frontOf g
    let addr := r.xaddr.map fun xs => (xs.getD (lowLane r.xmask) 0).toNat
    if g.handler ≠ 0 ∨ g.pending ≠ 0 then
      (s.endFront g.front).gustRecord k g 0x01 0x0002 (g.slot b).pc r.xmask r.xdone addr
    else if (if handlerKind r.code = 1 then fr.uvec else fr.svec) = 0 then
      (s.endFront g.front).gustRecord k g (faultClass r.code) (r.code * 256 + r.cause) (g.slot b).pc r.xmask r.xdone addr
    else
      let g1 := g.recordTrap b r
      s.setGust k (if held then g1 else g1.enterHandler fr.uvec fr.svec)

/-- Taking a fault or trap that falls due for a slot of a gust (R366). -/
def State.takeFault (s : State) (k : Nat) (b : Bool) (r : TrapReq) : State :=
  s.faultAs k b r (match s.gust? k with | some g => s.holdsEntry k g | none => false)

/-- A fault of some lanes of a blocking access whose other lanes' replies are out (R153, R366): steps 1 to 3, the entry
pending and the slot waiting, with the translations that its unperformed lanes hold (R296). -/
def State.faultAndWait (s : State) (k : Nat) (b : Bool) (r : TrapReq) (rep : Reply) : State :=
  let held := (s.gust? k).bind fun g => (g.slot b).pages
  let s1 := s.faultAs k b r true
  match s1.gust? k with
  | some g =>
    s1.setGust k (g.setSlot b { g.slot b with wait := some (.reply { rep with faulted := true }), pages := held })
  | none => s1

/-- The barrier wait that a slot takes up again when its handler leaves (R150): while XPC names the group that waited. -/
def Gust.keptAt (g : Gust) : Option (TrapRet × KeptWait) :=
  match g.trapRet with
  | some t => if g.xpc = t.pc.zeroExtend 64 then t.kept.map fun w => (t, w) else none
  | none => none

/-- Where a trapped slot goes on when its handler leaves it for a group (R149, R150): a barrier wait resumes, or the slot goes
on behind the barrier once its phase has completed (log 68). -/
def Gust.resumeSlot (g : Gust) (x : Slot) (pc : BitVec 56) : Slot :=
  match g.keptAt with
  | none => { x with pc := pc }
  | some (t, k) =>
    match k.wait with
    | some w => { x with pc := t.pc, wait := some w, waitNext := k.next }
    | none => { x with pc := k.next }

/-- Leaving a handler (R365): the trapped slot gets its mask and join back and continues at a given group; the registers
and the other slot return; the latches of both slots are empty. A handler that ran on in the other slot leaves it empty. -/
def Gust.leaveHandler (g : Gust) (b : Bool) (pc : BitVec 56) : Gust :=
  match g.trapRet with
  | none => g
  | some t =>
    let g1 := { g with a := g.a.noLatches, b := g.b.noLatches, handler := 0, frozen := false, trapRet := none }
    let g2 := if b = t.slotB then g1 else g1.setSlot b { g1.slot b with mask := 0 }
    g2.setSlot t.slotB (g.resumeSlot { g2.slot t.slotB with mask := t.mask, join := t.join, wait := none } pc)

/-! ## Features (R392, R393) -/

/-- FEATAVAIL: what the part has, bits 12 to 127 reserved and 0 (R6, R393). -/
def featAvail : BitVec 128 := Config.featAvail &&& 0xFFF

/-- FEATAVAIL as it is published: not before bring-up is done (R388). -/
def State.available (s : State) : BitVec 128 := if s.sec.bootStat = 1 then featAvail else 0

/-- The accepted set (R392): what was written ANDed with FEATAVAIL, with bit 0 forced to 1; the write that sets FEATLOCK
has stored the result. -/
def State.features (s : State) : BitVec 128 :=
  (if s.sec.featLock then s.sec.featSet else s.sec.featAcc &&& s.available) ||| 1

/-- Whether a feature bit is accepted (R393); bit 0, the base set, always is. -/
def State.hasFeature (s : State) (n : Nat) : Bool := n == 0 || s.features.getLsbD n

/-- Whether the page of a translation has a value that needs a feature bit which is not accepted (R393, Table 3): TIER 1,
OUTL, or a PA of another package. -/
def State.lacksFeature (s : State) (x : Xlat) : Bool :=
  (x.tier == 1 && !s.hasFeature 6) || (x.peer != s.self && !s.hasFeature 7) || (x.outl && !s.hasFeature 9)

/-! ## The divergence stack and Settle -/

/-- Reads entry i of the divergence stack (R40): PC, mask, join; or the fault that the read would raise. -/
def State.readEntry (s : State) (k : Nat) (g : Gust) (i : Nat) :
    State × Except (Nat × Nat) (BitVec 56 × Word × BitVec 56) :=
  let fr := s.frontOf g
  let va := g.stackAddr i
  match s.translate (coreOf k) fr.part fr.asid va with
  | (s1, none) => (s1, .error (0x08, 2))
  | (s1, some x) =>
    let d := x.domain va
    if s1.lacksFeature x then (s1, .error (0x01, 7))
    else if x.mig = 2 then (s1, .error (0x08, 3))
    else if !x.r then (s1, .error (0x09, 1))
    else if s1.poisoned d 16 then (s1, .error (0x0B, 1))
    else
      let pc := s1.readNat d 8
      let off : Int := (BitVec.ofNat 32 (s1.readNat (d + 12) 4)).toInt
      (s1, .ok (BitVec.ofNat 56 pc, BitVec.ofNat 32 (s1.readNat (d + 8) 4), BitVec.ofNat 56 pc + BitVec.ofInt 56 off))

/-- TopJoin (R125), 0 on an empty stack; or the fault of reading the entry. -/
def State.topJoin (s : State) (k : Nat) (g : Gust) : State × Except (Nat × Nat) (BitVec 56) :=
  if g.dsp = 0 then (s, .ok 0)
  else
    match s.readEntry k g (g.dsp - 1) with
    | (s1, .ok (_, _, j)) => (s1, .ok j)
    | (s1, .error e) => (s1, .error e)

/-- A pop that cannot read its entry ends the front (R40). -/
def State.popFailed (s : State) (k : Nat) (g : Gust) (e : Nat × Nat) : State :=
  let addr := g.stackAddr (g.dsp - 1)
  (s.endFront g.front).gustRecord k g (if e.1 = 0x0B then 0x06 else if e.1 = 0x01 then 0x01 else 0x02) (e.1 * 256 + e.2) 0 0 0
    (some addr)

/-- Whether a slot is at its join (R125). -/
def Slot.atJoin (x : Slot) : Bool := x.live && x.join != 0 && x.pc == x.join

/-- Pops the top of the stack into a slot; the latches of both slots become empty (R125). -/
def State.popInto (s : State) (k : Nat) (g : Gust) (b : Bool) : State × Bool :=
  match s.readEntry k g (g.dsp - 1) with
  | (s1, .ok (pc, m, j)) =>
    let g1 := Gust.popReplay { g with dsp := g.dsp - 1, a := g.a.noLatches, b := g.b.noLatches } b (g.dsp - 1)
    (s1.setGust k (g1.setSlot b { g1.slot b with pc := pc, mask := m, join := j, wait := none }), true)
  | (s1, .error e) => (s1.popFailed k g e, false)

/-- One turn of Settle (R125): the state and whether the loop continues. -/
def State.settleOnce (s : State) (k : Nat) : State × Bool :=
  match s.gust? k with
  | none => (s, false)
  | some g =>
    if g.a.live && g.b.live then
      if g.a.atJoin && g.b.atJoin && g.a.join == g.b.join then
        match s.topJoin k g with
        | (s1, .error e) => (s1.popFailed k g e, false)
        | (s1, .ok j) =>
          let a := { g.a with pc := g.a.join, mask := g.a.mask ||| g.b.mask, join := j, wait := none }
          (s1.setGust k { g.joinReplay with a := a.noLatches, b := { g.b.noLatches with mask := 0, wait := none } }, true)
      else (s, false)
    else if g.a.live || g.b.live then
      let b := g.b.live
      if (g.slot b).atJoin then
        match s.topJoin k g with
        | (s1, .error e) => (s1.popFailed k g e, false)
        | (s1, .ok j) =>
          if 0 < g.dsp ∧ j = (g.slot b).join then s1.popInto k g (!b)
          else (s1.setGust k (g.setSlot b { g.slot b with join := j }), true)
      else (s, false)
    else if 0 < g.dsp then s.popInto k g false
    else (s.setGust k { g with retiring := true }, false)

/-- Settle (R125); fuel bounds its turns by what 64 stack entries can take. -/
def State.settle (s : State) (k : Nat) : Nat → State
  | 0 => s
  | n + 1 =>
    match s.settleOnce k with
    | (s1, true) => s1.settle k n
    | (s1, false) => s1

/-- Settle with enough fuel for any gust. -/
def State.settled (s : State) (k : Nat) : State := s.settle k 264

/-! ## Waiting slots -/

/-- Ends a wait: the waiting group completes, a yield point with no register result (R19, R325), and with it a replay of the
slot (R149). -/
def State.finishWaiting (s : State) (k : Nat) (b : Bool) : State :=
  match s.gust? k with
  | none => s
  | some g =>
    let x := g.slot b
    let g1 := { g with replay := g.replay.filter fun e => e.1 != b }
    (s.setGust k (g1.setSlot b { x.noLatches with pc := x.waitNext, wait := none, pages := none })).settled k

/-- The trap-return record of a gust whose handler runs in slot b, or is to run there, when it keeps a barrier wait (R150);
a barrier at which the handler itself waits comes first. -/
def Gust.keeping (g : Gust) (b : Bool) : Option (TrapRet × KeptWait) :=
  match g.trapRet with
  | some t =>
    if t.slotB = b ∧ ((g.slot b).wait.map Wait.atBarrier) ≠ some true then t.kept.map fun w => (t, w) else none
  | none => none

/-- The phase that a slot waits for has completed (R134): the slot goes on behind its barrier, one whose wait a trap has
interrupted when its handler leaves it (R150). -/
def State.passBarrier (s : State) (k : Nat) (b : Bool) : State :=
  match s.gust? k with
  | none => s
  | some g =>
    match g.keeping b with
    | some (t, w) => s.setGust k { g with trapRet := some { t with kept := some { w with wait := none } } }
    | none => if ((g.slot b).wait.map Wait.atBarrier) = some true then s.finishWaiting k b else s

/-- Whether a slot still waits for a phase, or the handler that has interrupted it keeps the wait (R134, R150). -/
def State.waitsAtBarrier (s : State) (k : Nat) (b : Bool) : Bool :=
  match s.gust? k with
  | none => false
  | some g =>
    match g.keeping b with
    | some (_, w) => w.wait.isSome
    | none => (g.slot b).wait.map Wait.atBarrier == some true

/-! ## The die barrier unit -/

/-- A cohort counter (R134). -/
def State.counter? (s : State) (die n : Nat) : Option Counter := tabGet? (s.die die).counters n
def State.setCounter (s : State) (die n : Nat) (c : Counter) : State :=
  s.setDie die { s.die die with counters := tabSet (s.die die).counters n c }

/-- The cohort that a membership slot names, when it is valid (R13). -/
def Gust.memberOf (g : Gust) (slot : Nat) : Option Nat :=
  let m := g.members.getD slot 0
  if m.getLsbD 15 then some (m.toNat % 256) else none

/-- The counter of a cohort of a gust's front, as (die, counter). -/
def State.cohortCounter (s : State) (g : Gust) (i : Nat) : Option (Nat × Nat) :=
  let fr := s.frontOf g
  match fr.die, fr.cohorts[i]? with
  | some d, some c => some (d, c.counter)
  | _, _ => none

/-- The registers of a REGROUP's live range, by window-relative index. -/
def Regroup.range (r : Regroup) : List Nat := (List.range r.count).map (r.first + ·)

/-- The slot that is live, of a gust with exactly one. -/
def Gust.liveSlot (g : Gust) : Bool := g.b.live

/-- Whether a pair would make register n of the survivor G (R132). -/
def pairMakesG (g h : Gust) (n : Nat) : Bool :=
  match g.reg n, h.reg n with
  | .u x, .u y => x != y
  | _, _ => true

/-- NewGCNT (R131): the registers of g of tag G or D, and those of the range that become G. The reservation of g's flag is no
part of it, as the flag of a survivor is written in full (R132, 18_prog_regroup Table 6). -/
def newGcnt (g h : Gust) (r : Regroup) : Nat :=
  wideCount g.regs + (r.range.filter fun n => !(g.reg n).wide && pairMakesG g h n).length

/-- The arrived REGROUP of a slot. -/
def Gust.regroupOf (g : Gust) (b : Bool) : Option Regroup := g.regroup.find? fun r => r.slotB == b

/-- The arrived REGROUP by which a gust takes part in the pairing (R131): that of its live slot, when it is eligible, its
phase has not passed while the gust was out, and no trap has interrupted its wait (R150, log 68). -/
def Gust.pairing (g : Gust) : Option Regroup :=
  (g.regroupOf g.liveSlot).filter fun r => r.eligible && r.flag.isNone && g.trapRet.isNone

/-- Whether a survivor can pair with a donor (R131). -/
def canPair (g h : Gust) (rg : Regroup) : Bool :=
  decide (popCount (g.slot g.liveSlot).mask + popCount (h.slot h.liveSlot).mask ≤ 32)
    && decide (newGcnt g h rg ≤ g.gbud)
    && decide (h.wb + rg.first + rg.count ≤ h.alloc)

/-- The pairs of a core's participants in ascending GUSTID (R131); fuel is their number. -/
def pairUp : Nat → List (Nat × Gust) → List (Nat × Nat)
  | _, [] => []
  | 0, _ => []
  | n + 1, (k, g) :: rest =>
    match g.pairing with
    | none => pairUp n rest
    | some rg =>
      match rest.find? fun e => canPair g e.2 rg with
      | some e => (k, e.1) :: pairUp n (rest.filter fun x => x.1 != e.1)
      | none => pairUp n rest

/-- Where the survivor's new lane l comes from (R132): lane i of the survivor, or of the donor. -/
def pairLane (g h : Gust) (l : Nat) : Option (Bool × Nat) :=
  let own := lanesOf (g.slot g.liveSlot).mask
  let other := lanesOf (h.slot h.liveSlot).mask
  if l < own.length then some (false, own.getD l 0)
  else if l < own.length + other.length then some (true, other.getD (l - own.length) 0)
  else none

/-- A mask whose bits move with their lanes (R132). -/
def pairMask (g h : Gust) (a b : Word) : Word :=
  maskOf fun l => match pairLane g h l with
    | some (false, i) => inMask a i
    | some (true, i) => inMask b i
    | none => false

/-- The survivor after the migration (R132), before its flag. -/
def mergePair (g h : Gust) (rg : Regroup) : Gust :=
  let n := popCount (g.slot g.liveSlot).mask + popCount (h.slot h.liveSlot).mask
  let g0 := { g with lmask := lowMask n, renumbered := true }
  let moved := fun (t : Gust) (r : Nat) =>
    let v : Val :=
      match g.reg r, h.reg r with
      | .u x, .u y => if x = y then .u x else g0.mkG fun l => match pairLane g h l with
          | some (false, _) => x | some (true, _) => y | none => 0
      | v, w => g0.mkG fun l => match pairLane g h l with
          | some (false, i) => g.lane v i | some (true, i) => h.lane w i | none => 0
    (t.setReg r v).setCapTag r false
  let g1 := rg.range.foldl moved g0
  { g1 with
    a := { pc := (g.slot g.liveSlot).waitNext, mask := lowMask n, join := 0 }
    b := {}
    masks := (List.range 7).map fun i => pairMask g h (g.masks.getD i 0) (h.masks.getD i 0)
    fNX := pairMask g h g.fNX h.fNX
    fUF := pairMask g h g.fUF h.fUF
    fOF := pairMask g h g.fOF h.fOF
    fDZ := pairMask g h g.fDZ h.fDZ
    fNV := pairMask g h g.fNV h.fNV
    regroup := []
    flagReserved := [] }

/-- Writes the flag of a REGROUP into the register that it named at its issue, when it has one (R132, R15). -/
def Gust.writeFlag (g : Gust) (m : Word) (rg : Regroup) (flag : Word) : Gust :=
  match rg.dest with
  | some n => g.through rg.window fun h => h.write1 m n (.u flag)
  | none => g

/-- A gust continues after the REGROUP of a slot with a flag in D (R132), written under the mask that the slot had; a gust
that is swapped out receives its flag when it resumes. -/
def State.regroupFlag (s : State) (k : Nat) (b : Bool) (flag : Nat) : State :=
  match s.gust? k with
  | none => s
  | some g =>
    match g.regroupOf b with
    | none => s
    | some rg =>
      if inActive k then
        (s.setGust k ((g.dropSlot b).writeFlag rg.mask rg (BitVec.ofNat 32 flag))).passBarrier k b
      else
        s.setGust k { g with regroup := g.regroup.map fun r => if r.slotB == b then { r with flag := some flag } else r }

/-- The flags of the REGROUPs whose phase completed while a gust was swapped out (R132). -/
def State.lateFlags (s : State) (k : Nat) : State :=
  [false, true].foldl (fun t b =>
    match (t.gust? k).bind fun g => (g.regroupOf b).bind fun r => r.flag with
    | some n => t.regroupFlag k b n
    | none => t) s

/-- Forms one pair: the survivor takes flag 0, the donor retires (R132). -/
def State.formPair (s : State) (kg kh : Nat) : State :=
  match s.gust? kg, s.gust? kh with
  | some g, some h =>
    match g.pairing with
    | none => s
    | some rg =>
      let m := mergePair g h rg
      let s1 := s.setGust kg (m.writeFlag m.lmask rg 0)
      s1.setGust kh { h with a := { h.a with mask := 0, wait := none }, b := { h.b with mask := 0, wait := none },
                             regroup := [], flagReserved := [], retiring := true }
  | _, _ => s

/-- The pairing of the participants of one core (R131, R132). -/
def State.regroupCore (s : State) (arrived : List (Nat × Bool)) (core : Nat) : State :=
  let here := arrived.filter fun e => coreOf e.1 == core && inActive e.1
  let ps := here.filterMap fun e =>
    match s.gust? e.1 with
    | some g => if e.2 == g.liveSlot && g.pairing.isSome then some (e.1, g) else none
    | none => none
  let sorted := ps.foldl (fun acc e => (acc.takeWhile fun x => x.2.gustId < e.2.gustId) ++
    e :: acc.dropWhile fun x => x.2.gustId < e.2.gustId) []
  let pairs := pairUp sorted.length sorted
  let s1 := pairs.foldl (fun t e => t.formPair e.1 e.2) s
  sorted.foldl (fun t e =>
    if pairs.any fun p => p.1 == e.1 || p.2 == e.1 then t else t.regroupFlag e.1 e.2.liveSlot 1) s1

/-- Completes the REGROUPs of a phase (R131, R132): ineligible gusts take flag 2, swapped-out gusts and those in a trap
flag 1. -/
def State.regroupPhase (s : State) (arrived : List (Nat × Bool)) : State :=
  let s1 := arrived.foldl (fun t e =>
    match (t.gust? e.1).bind fun g => (g.regroupOf e.2).map fun r => (g, r) with
    | some (g, r) =>
      if !r.eligible then t.regroupFlag e.1 e.2 2
      else if inActive e.1 && g.trapRet.isNone then t else t.regroupFlag e.1 e.2 1
    | none => t) s
  (arrived.map fun e => coreOf e.1).dedup.foldl (fun t c => t.regroupCore arrived c) s1

/-- What the waiters of a completed phase do (R134): BAR returns, BARWT consumes one match and returns, REGROUPs pair; a
swapped-out waiter is released in its save area (R137). A waiter that its handler has led away takes no part (R150). -/
def State.releaseWaiters (s : State) (die n : Nat) (waiters : List (Nat × Bool × Nat)) : State :=
  let ws := waiters.filter fun w => s.waitsAtBarrier w.1 w.2.1
  let s1 := ws.foldl (fun t w =>
    if w.2.2 = 2 then t
    else if w.2.2 = 1 then
      match t.counter? die n with
      | some c => (t.setCounter die n { c with s := c.s - 1 }).passBarrier w.1 w.2.1
      | none => t.passBarrier w.1 w.2.1
    else t.passBarrier w.1 w.2.1) s
  ws.foldl (fun t w => t.resave w.1) (s1.regroupPhase ((ws.filter fun w => w.2.2 == 2).map fun w => (w.1, w.2.1)))

/-- One more arrival of a gust: it counts once per phase (R134). -/
def Counter.count (c : Counter) (k : Nat) : Counter :=
  if c.arrived.contains k then c else { c with a := c.a + 1, arrived := setAdd c.arrived k }

/-- Applies one event in OPEN (R134): kind 0 BAR, 1 BARARR, 2 REGROUP, 3 departure, 4 a join that followed a held arrival
(R135). A gust that has departed is no member that could have arrived. A departure of a gust that has arrived in the phase
already adds to Dp alone: Table 6 has it add to A too, and a member's arrival counts once per phase (DESIGN CHOICE, log 69). -/
def Counter.arrive (c : Counter) (w : Nat × Bool × Nat) : Counter :=
  match w.2.2 with
  | 1 => { c.count w.1 with s := c.s + 1 }
  | 3 => { c.count w.1 with dp := c.dp + 1, arrived := c.arrived.filter (· != w.1) }
  | 4 => { c with e := c.e + 1 }
  | _ => { c.count w.1 with waiters := c.waiters ++ [w] }

/-- A gust whose arrival is applied waits for the phase (R134), in the handler that has interrupted its wait when it leaves
it (R150). -/
def State.arrivalApplied (s : State) (die n : Nat) (w : Nat × Bool × Nat) : State :=
  if w.2.2 = 1 ∨ w.2.2 = 3 ∨ w.2.2 = 4 then s
  else
    match s.gust? w.1 with
    | none => s
    | some g =>
      let phase := some (Wait.barrier die n w.2.2)
      match g.keeping w.2.1 with
      | some (t, x) => s.setGust w.1 { g with trapRet := some { t with kept := some { x with wait := phase } } }
      | none =>
        if s.waitsAtBarrier w.1 w.2.1 then s.setGust w.1 (g.setSlot w.2.1 { g.slot w.2.1 with wait := phase }) else s

/-- What follows an event of a counter (R134): completion when A ≥ E after the event, the return to OPEN when S = 0, and
the held arrivals in their order. -/
def State.counterStep (s : State) (die n : Nat) (ev : Bool) : Nat → State
  | 0 => s
  | fuel + 1 =>
    match s.counter? die n with
    | none => s
    | some c =>
      if c.drain then
        if c.s = 0 then (s.setCounter die n { c with drain := false }).counterStep die n false fuel else s
      else if ev && decide (c.e ≤ c.a) then
        let c1 := { c with p := c.p + 1, a := 0, e := c.e - c.dp, dp := 0, waiters := [], arrived := [],
                           drain := decide (0 < c.s) }
        ((s.setCounter die n c1).releaseWaiters die n c.waiters).counterStep die n false fuel
      else
        match c.held with
        | [] => s
        | w :: ws =>
          ((s.setCounter die n ({ c with held := ws }.arrive w)).arrivalApplied die n w).counterStep die n true fuel

/-- An arrival or departure reaches the unit (R134): in DRAIN an arrival is held, and a departure of a gust with no held
arrival takes effect at once. -/
def State.unitEvent (s : State) (die n : Nat) (w : Nat × Bool × Nat) : State :=
  match s.counter? die n with
  | none => s
  | some c =>
    if c.held.any (fun h => h.1 == w.1) then s.setCounter die n { c with held := c.held ++ [w] }
    else if c.drain then
      if w.2.2 = 3 then s.setCounter die n { c with e := c.e - 1 }
      else if w.2.2 = 4 then s.setCounter die n { c with e := c.e + 1 }
      else s.setCounter die n { c with held := c.held ++ [w] }
    else
      ((s.setCounter die n (c.arrive w)).arrivalApplied die n w).counterStep die n true (2 * c.held.length + 4)

/-- The lines that a wait has requested (R341). -/
def Wait.lines : Wait → List (Nat × Nat)
  | .reply r => r.lines
  | .form f => f.lines
  | _ => []

/-- Whether a slot waits for replies (R153, R341), or has them and waits for what they write (R24). -/
def Slot.awaits (x : Slot) : Bool :=
  match x.wait with
  | some (.reply _) | some (.landed _ _) => true
  | some (.form f) => !f.arrived
  | _ => false

/-- The posted operations of a gust that stand in its core's buffer (R338). -/
def State.bufferedOps (s : State) (k : Nat) : List Nat :=
  ((s.core (coreOf k)).wcb.flatMap fun e => (e.posters.filter fun p => p.1 == k).map fun p => p.2.1).dedup

/-- What stands out of a gust's earlier accesses at die scope (R136, R267): its drift symbols, its slots that wait for
replies, and its posted operations that have not left the core. -/
def State.outAccesses (s : State) (k : Nat) (g : Gust) : List Nat × List Bool × List Nat :=
  ((List.range 8).filter fun n => (g.syms.getD n {}).state == 1, [false, true].filter fun b => (g.slot b).awaits,
   s.bufferedOps k)

/-- Whether an operation waits for no access any more. -/
def UnitOp.performed (o : UnitOp) : Bool := o.syms.isEmpty && o.slots.isEmpty && o.stores.isEmpty

/-- The counters at which the unit holds arrivals of a gust (R135). -/
def State.heldAt (s : State) (k : Nat) : List (Nat × Nat) :=
  (List.range 4).flatMap fun d =>
    ((s.die d).counters.filter fun c => c.2.held.any fun h => h.1 == k).map fun c => (d, c.1)

/-- Whether an operation of a gust at a counter has to wait for an arrival of the gust that the unit holds (R135); at the
same counter it is held behind it. -/
def State.heldElsewhere (s : State) (k die n : Nat) : Bool := (s.heldAt k).any fun c => c != (die, n)

/-- The first operation of a gust that can be applied, of its queue. -/
def State.applicable (s : State) (k : Nat) (ops : List UnitOp) : Option UnitOp :=
  match ops with
  | [] => none
  | o :: _ => if o.performed && !(s.heldElsewhere k o.die o.counter) then some o else none

/-- The first operation in the order of the keys that can be applied, with the state that has taken it from its queue: of a
gust, or of a retired gust of a front. -/
def State.nextUnitOp (s : State) : Option (State × Nat × UnitOp) :=
  match s.gusts.findSome? fun e => (s.applicable e.1 e.2.unitOps).map fun o => (e, o) with
  | some (e, o) => some (s.setGust e.1 { e.2 with unitOps := e.2.unitOps.tail }, e.1, o)
  | none =>
    (s.fronts.findSome? fun e =>
      (e.2.unitOps.map fun p => p.1).dedup.findSome? fun k =>
        (s.applicable k ((e.2.unitOps.filter fun p => p.1 == k).map fun p => p.2)).map fun o => (e, k, o)).map
      fun (e, k, o) => (s.setFront e.1 { e.2 with unitOps := e.2.unitOps.erase (k, o) }, k, o)

/-- Applies every operation that can be applied (R135, R136); fuel bounds their number. -/
def State.applyUnitOps (s : State) : Nat → State
  | 0 => s
  | fuel + 1 =>
    match s.nextUnitOp with
    | none => s
    | some (t, k, o) => (t.unitEvent o.die o.counter (k, o.slotB, o.kind)).applyUnitOps fuel

/-- The operations that wait at barrier units. -/
def State.unitQueue (s : State) : Nat :=
  (s.gusts.map fun e => e.2.unitOps.length).sum + (s.fronts.map fun e => e.2.unitOps.length).sum

/-- Applies what an event at a unit, or an access performed, has made applicable. -/
def State.settleUnits (s : State) : State := s.applyUnitOps s.unitQueue

/-- Whether a counter holds arrivals. -/
def State.holding (s : State) (die n : Nat) : Bool :=
  match s.counter? die n with
  | some c => !c.held.isEmpty
  | none => false

/-- An event at a unit, with what follows from the held arrivals that it lets be applied (R135). -/
def State.unitStep (s : State) (die n : Nat) (w : Nat × Bool × Nat) : State :=
  let s1 := s.unitEvent die n w
  if s.holding die n then s1.settleUnits else s1

/-- An operation of a gust at its barrier unit (R135, R136): the unit counts an arrival or a departure once every earlier
access of the gust has been performed at die scope, and applies the gust's operations in issue order. -/
def State.unitOp (s : State) (k : Nat) (b : Bool) (die n kind : Nat) : State :=
  match s.gust? k with
  | none => s
  | some g =>
    let out := if kind = 4 then ([], [], []) else s.outAccesses k g
    let o : UnitOp := ⟨die, n, kind, b, out.1, out.2.1, out.2.2⟩
    if g.unitOps.isEmpty && o.performed && !(s.heldElsewhere k die n) then s.unitStep die n (k, b, kind)
    else s.setGust k { g with unitOps := g.unitOps ++ [o] }

/-- What follows the performance of an access of a gust: symbol n, or the replies of slot b (R136). -/
def State.accessPerformed (s : State) (k : Nat) (n : Option Nat) (b : Option Bool) : State :=
  match s.gust? k with
  | none => s
  | some g =>
    if g.unitOps.isEmpty then s
    else
      (s.setGust k { g with unitOps := g.unitOps.map fun o =>
          { o with syms := o.syms.filter fun x => some x != n, slots := o.slots.filter fun x => some x != b } }).settleUnits

/-- An operation that waits no longer for posted operations that have left a core's buffer (R136, R267). -/
def UnitOp.without (ids : List Nat) (o : UnitOp) : UnitOp := { o with stores := o.stores.filter fun x => !(ids.contains x) }

/-- What follows when an entry has left a core's buffer (R136, R267): of its posted operations those that stand in no other
entry have been performed at die scope. -/
def State.entryLeft (s : State) (core : Nat) (e : WcEntry) : State :=
  let left := fun (p : Nat × Nat × Word) => !((s.core core).wcb.any fun x => x.posters.any fun q => q.2.1 == p.2.1)
  let ids := (e.posters.filter left).map fun p => p.2.1
  let named := fun (o : UnitOp) => o.stores.any ids.contains
  if (s.gusts.any fun x => x.2.unitOps.any named) || s.fronts.any fun x => x.2.unitOps.any fun p => named p.2 then
    State.settleUnits
      { s with gusts := s.gusts.map fun x => (x.1, { x.2 with unitOps := x.2.unitOps.map (UnitOp.without ids) })
               fronts := s.fronts.map fun x => (x.1, { x.2 with unitOps := x.2.unitOps.map fun p => (p.1, p.2.without ids) }) }
  else s

/-- A departure from the cohort of a membership slot (R138). -/
def State.depart (s : State) (k : Nat) (g : Gust) (slot : Nat) : State :=
  match g.memberOf slot with
  | none => s
  | some i =>
    match s.cohortCounter g i with
    | some (d, n) => s.unitOp k false d n 3
    | none => s

/-- The departures of a gust that retires (R128). -/
def State.departures (s : State) (k : Nat) (g : Gust) : List UnitOp :=
  let out := s.outAccesses k g
  [0, 1, 2, 3].filterMap fun i => ((g.memberOf i).bind fun c => s.cohortCounter g c).map fun c =>
    ⟨c.1, c.2, 3, false, out.1, out.2.1, out.2.2⟩

/-- The key under which units keep a gust that has retired (R135): that of no gust slot, its own for each gust. -/
def goneKey (g : Gust) : Nat := 2 ^ 32 + g.front * 2 ^ 16 + g.gustId

/-- The counters with a gust under another key: a new gust in its slot is another member (R140). -/
def State.renameMember (s : State) (k new : Nat) : State :=
  { s with dies := s.dies.map fun d => { d with counters := d.counters.map fun c => (c.1,
      { c.2 with
        held := c.2.held.map fun h => (if h.1 = k then new else h.1, h.2)
        arrived := if c.2.arrived.contains k then setAdd (c.2.arrived.filter (· != k)) new else c.2.arrived }) } }

/-- The step of retirement of a gust (R128): its gust slot and its storage are free, and its departures go to the unit behind
its earlier operations (R135). Posted operations stay with the front. -/
def State.retire (s : State) (k : Nat) : State :=
  match s.gust? k with
  | none => s
  | some g =>
    let ops := g.unitOps ++ s.departures k g
    let s1 := (s.releaseLocks k).renameMember k (goneKey g)
    let s2 := { s1 with gusts := tabDel s1.gusts k }
    match s2.front? g.front with
    | none => s2
    | some fr =>
      let s3 := s2.setFront g.front
        { fr with retired := fr.retired + 1, posted := fr.posted ++ g.posted,
                  unitOps := fr.unitOps ++ ops.map fun o => (goneKey g, o) }
      if ops.isEmpty then s3 else s3.settleUnits

/-! ## One group -/

/-- How the latches of the executing slot move when a group completes (R19). -/
inductive LatchMove where
  /-- shift, L1 takes the result -/
  | shift
  /-- a yield point: shift, then all empty -/
  | yield
  /-- a control transfer: all empty -/
  | control
  /-- both slots empty: a split -/
  | both
  deriving DecidableEq, Repr

/-- A completed body: the state it leaves, the result for L1, the slot's next PC when it is not the next group. -/
structure Done where
  s : State
  l1 : Latch := .empty 2
  pc : Option (BitVec 56) := none
  move : LatchMove := .shift
  deriving DecidableEq, Repr

/-- The latches of a slot after a group (R18, R19). -/
def moveLatches (m : LatchMove) (ls : List Latch) (l1 : Latch) : List Latch :=
  match m with
  | .shift => l1 :: ls.take 7
  | _ => List.replicate 8 (.empty 1)

/-- The gust after its group completed: the slot's PC and latches (R18, R19). -/
def Gust.advance (g : Gust) (b : Bool) (pc : BitVec 56) (m : LatchMove) (l1 : Latch) : Gust :=
  let x := g.slot b
  let g1 := g.setSlot b { x with pc := pc, latches := moveLatches m x.latches l1, wait := none, pages := none }
  if m = .both then g1.setSlot (!b) ((g1.slot (!b)).noLatches) else g1

/-- Whether an instruction performs lanes that XDONE counts (R193). -/
def countsLanes : Instr → Bool
  | .ld .. | .ldu .. | .ldx .. | .ldraw .. | .ldDf .. | .lduDf .. | .st .. | .spld .. | .spst .. | .ldlk .. | .stul ..
  | .spa .. | .atom .. | .atomr .. | .atomXchg .. | .atomCas .. | .atomrXchg .. | .atomrCas .. | .atomAdd64 ..
  | .atomrAdd64 .. | .atomrXchg64 .. | .atomrCas64 .. | .capld .. | .capst .. | .hflush .. | .isyncRange .. | .pref .. => true
  | _ => false

/-- A replay of a slot ends with the group that ran under it (R149): XDONE is what it left out OR the lanes performed
(R193). -/
def Gust.endReplay (g : Gust) (b : Bool) (before : Option Word) (performed : Option Word) : Gust :=
  match before with
  | none => g
  | some d =>
    { g with replay := g.replay.filter fun e => e.1 != b
             xdone := match performed with | some m => d ||| m | none => g.xdone }

/-- Completion of a group: the slot advances, then Settle runs (R18, R125). -/
def finish (c : Ctx) (k : Nat) (d : Done) : State :=
  match d.s.gust? k with
  | none => d.s
  | some g =>
    (d.s.setGust k ((g.advance c.b (d.pc.getD c.next) d.move d.l1).endReplay c.b (c.g.replayOf c.b)
      (if countsLanes c.i then some c.wm else none))).settled k

/-- Whether a wait opens a new place in the order of its kind (R325, Table 4): one in headwind or for the range scoreboard
that does not go on from the same. -/
def opensPlace (prev : Option Wait) (w : Wait) : Bool :=
  match prev, w with
  | some (.headwind _), .headwind _ | some (.range _ _), .range _ _ => false
  | _, .headwind _ | _, .range _ _ => true
  | _, _ => false

/-- A group that waits (R325): in the place of its own earlier wait, or behind the waits before it. -/
def State.setWait (s : State) (c : Ctx) (k : Nat) (w : Wait) : State :=
  match s.gust? k with
  | none => s
  | some g =>
    let x := { g.slot c.b with wait := some w, waitNext := c.next }
    if opensPlace c.prev w then { s.setGust k (g.setSlot c.b { x with waitNo := s.nextWait }) with nextWait := s.nextWait + 1 }
    else s.setGust k (g.setSlot c.b x)

/-- The privilege violations (R89, R90 cause 6; R38, R127, R149). -/
def privileged (i : Instr) (g : Gust) : Bool :=
  match i with
  | .exit _ _ => g.handler != 0
  | .wbase _ _ => g.handler != 0
  | .tret _ _ => g.handler == 0
  | .capmk _ _ => g.handler != 2
  | .mts _ f => (decide (0x010 ≤ f.off.toNat) && g.handler == 0) || (f.off == 0x005 && g.handler != 2)
  | _ => false

/-- The cause of FLT.ILLEGAL of a group, if any, in the order of R90; a twinned front needs bit 8 (R393). -/
def illegalCause (i : Instr) (s : State) (g : Gust) : Option Nat :=
  match i.wordCause with
  | some c => some c
  | none =>
    if privileged i g then some 6
    else if s.hasFeature i.view.sig.feature && (!(s.frontOf g).twin || s.hasFeature 8) then none else some 7

/-- The first fault that a group meets before its own rule applies (R359, R94): FLT.ILLEGAL, FLT.WINDOW, FLT.LATCH. -/
def preFault (i : Instr) (s : State) (g : Gust) (b : Bool) : Option (Nat × Nat) :=
  match illegalCause i s g with
  | some c => some (0x01, c)
  | none =>
    if !((namedRegs i).all g.runOk) then some (0x02, 1)
    else
      match g.latchCause b i with
      | some c => some (0x03, c)
      | none => none

/-- The body of a group. -/
abbrev Body := Ctx → State → Except Stop Done

/-- The outcome of a body. -/
def outcome (c : Ctx) (k : Nat) (r : Except Stop Done) : Outcome :=
  match r with
  | .ok d => .next (finish c k d)
  | .error (.fault s r) => .next (s.takeFault k c.b r)
  | .error (.late s r rep) => .next (s.faultAndWait k c.b r rep)
  | .error (.wait s w) => .next (s.setWait c k w)
  | .error (.arrived s) => .next s

/-- Whether a stop leaves requests of its group out of the core. -/
def Stop.sends : Stop → Bool
  | .wait _ (.reply _) | .wait _ (.form _) | .late .. => true
  | _ => false

/-- Whether what a body answers leaves requests of its group out of the core. -/
def sendsOut (r : Except Stop Done) : Bool := match r with | .ok _ => true | .error e => e.sends

/-- Whether the group of a gust and of its twin would send differing values (R373). -/
def Ctx.twinsDiffer (c : Ctx) (s : State) (k : Nat) : Bool :=
  leavesCore c.i &&
    match tabGet? s.twins k with
    | some h => (mkCtx c.i h c.b).crc s != (mkCtx c.i c.g c.b).crc s
    | none => false

/-- Whether the other gust of a twinned pair would send its group. -/
def Ctx.otherSends (c : Ctx) (s : State) (k : Nat) (body : Body) : Bool :=
  match s.swapTwins.gust? k with
  | some h => sendsOut (body (s.swapTwins.groupCtx c.i h) s.swapTwins)
  | none => false

/-- The outcome of a group, or, when its gust and the twin would send differing values, TRP.TWIN with its record, and nothing
leaves (R373): where the one would send, also when the other would not. -/
def twinOutcome (c : Ctx) (k : Nat) (s : State) (body : Body) : Outcome :=
  let r := body c s
  if c.twinsDiffer s k && (sendsOut r || c.otherSends s k body) then
    .next ((s.gustRecord k c.g 0x0C 0x0001 c.pc c.wm 0 none).takeFault k c.b { code := 0x13, cause := 0, xmask := c.wm })
  else outcome c k r

/-- One group (R72, R90, R91): its faults in the order of R359, or its body. -/
def runGroup (i : Instr) (s : State) (body : Body) : Outcome :=
  match s.gust? s.cur with
  | none => .refused .noIssuingGust
  | some g =>
    match preFault i s g s.curB with
    | some (code, cause) => .next (s.takeFault s.cur s.curB { code := code, cause := cause, xmask := (g.slot s.curB).mask })
    | none => twinOutcome (s.groupCtx i g) s.cur s body

/-- A body that uses every operand as a plain value: it waits for drift records first (R30). -/
def undrifted (body : Body) : Body := fun c s =>
  match c.g.driftOf c.b c.i with
  | some y => .error (.wait s (.drift y))
  | none => body c s

/-- A body as undrifted makes it, unless Active() is empty: then nothing that it would wait for keeps it (R152, R220). -/
def undriftedActive (body : Body) : Body := fun c s => if c.wm = 0 then body c s else undrifted body c s

/-- The current gust replaced. -/
def State.putGust (s : State) (g : Gust) : State := s.setGust s.cur g

/-- Writes registers by Wr (R16, R22 to R25, R43), and the latch that the result gives: the value stored in the first. -/
def wrAll (c : Ctx) (s : State) (ws : List (Nat × Val)) : Except Stop (State × Latch) :=
  if c.g.overBudget c.wm ws then .error (c.fault s 0x04 0)
  else
    .ok (s.putGust (c.g.writeAll c.wm ws),
      match ws with
      | [] => .empty 2
      | (n, v) :: _ => .val (c.g.stored c.wm (c.g.reg n) v))

end Sys2Proof.Machine
end

