-- ==== Sys2Proof/Machine/Waits.lean ====
section
/-! DEFINITION. What waits test (spec/11 R325, Table 4): scoreboard counters, symbols, the range scoreboard, locks, reply
slots, timelines. -/

namespace Sys2Proof.Machine

/-- Scoreboard counter c_k: the tracked posted operations that have not completed (R35, R176). -/
def Gust.counter (g : Gust) (k : Nat) : Nat := (g.posted.filter fun p => p.counter == some k).length

/-- Whether drift symbol y is free (R28). -/
def Gust.symFree (g : Gust) (y : Nat) : Bool := (g.syms.getD y {}).state == 0

/-- The lowest free symbol (R28). -/
def Gust.freeSym (g : Gust) : Option Nat := [0, 1, 2, 3, 4, 5, 6, 7].find? g.symFree

/-- Whether no drift symbol is outstanding or landed. -/
def Gust.noDrift (g : Gust) : Bool := g.syms.all fun y => y.state == 0

/-- The registers of tag D (R31). -/
def Gust.driftRegs (g : Gust) : Nat :=
  (g.regs.filter fun e => e.2.sym?.isSome).length + (g.trapBank.filter fun e => e.2.sym?.isSome).length

/-- The range-scoreboard entries of a core that overlap scratchpad bytes lo up to hi (R168, R187). -/
def Core.overlaps (c : Core) (lo hi : Nat) : List RsbEntry :=
  c.rsb.filter fun e => decide (lo < hi) && decide (e.lo < e.hi) && decide (e.lo < hi) && decide (lo < e.hi)

/-- The lock of a scratchpad word (R169): bank·8 + bit. -/
def lockOf (a : Nat) : Nat := bitsOf a 6 2 * 8 + (bitsOf a 9 7 ^^^ bitsOf a 12 10)

/-- Whether a lock is free or held by gust k (R169). -/
def Core.lockOk (c : Core) (k n : Nat) : Bool :=
  match tabGet? c.locks n with
  | none => true
  | some h => h == k

/-- Whether the SCOPE of a release or fence reaches other packages (R180: domain). -/
def scopeRemote (scope : Nat) : Bool := scope == 4

/-- Whether every earlier load, returning atomic and drift load of a gust has completed (R180): no drift load is
outstanding, and neither slot waits for replies. -/
def Gust.loadsDone (g : Gust) : Bool := g.noDrift && !g.a.awaits && !g.b.awaits

/-- Whether every earlier access of a gust has been performed at a scope (R180, R267, Table 1): its loads are done; its
stores are performed at core scope when they issue, at die scope when they have left the core's buffer, and at a wider scope
when their homes have acknowledged them. -/
def State.accessesDone (s : State) (k : Nat) (g : Gust) (scope : Nat) : Bool :=
  g.loadsDone &&
    match scope with
    | 0 | 1 => true
    | 2 => (s.bufferedOps k).isEmpty
    | _ => g.posted.all fun p => p.lines.isEmpty

/-- Whether the requests of the entries that a release drained are acknowledged (R340). -/
def State.acked (s : State) (ids : List Nat) : Bool := s.hub.requests.all fun r => !(ids.contains r.id)

/-- AW_p of a core (R343): 255 for the own package. -/
def State.aw (s : State) (core p : Nat) : Nat := if p = s.self then 255 else tabGetD (s.core core).aw p 0

/-- The reply slots that an access of n lines holds at one time (R341): one for each line, of which one that asks for more
than the core has holds them all, a slot that its reply frees taking its next line. -/
def slotsFor (n : Nat) : Nat := min n 256

/-- The reply slots in use on a core (R341): the lines of its reply waits and of its remote drift loads. -/
def State.replySlots (s : State) (core : Nat) : Nat :=
  ((s.gusts.filter fun e => coreOf e.1 == core).map fun e =>
    (([e.2.a, e.2.b].map fun x => match x.wait with | some w => slotsFor w.lines.length | none => 0).sum
      + (e.2.syms.map fun y => if y.state == 1 then slotsFor y.lines.length else 0).sum)).sum

/-- Whether a slot in the active bank of a core waits in headwind for a peer since before wait number n (R177, R343). -/
def State.headwindBefore (s : State) (core p n : Nat) : Bool :=
  s.gusts.any fun e => coreOf e.1 == core && inActive e.1 && [e.2.a, e.2.b].any fun x =>
    match x.wait with
    | some (.headwind q) => q == p && decide (x.waitNo < n)
    | _ => false

/-- Whether a slot of a core that could issue waits since before wait number n for scratchpad bytes that lo up to hi share
and that no entry holds any more: it goes first (R325, Table 4). -/
def State.rangeBefore (s : State) (core lo hi n : Nat) : Bool :=
  s.gusts.any fun e => coreOf e.1 == core && inActive e.1 && !e.2.halted && e.2.handler == 0 && e.2.pending == 0
    && [e.2.a, e.2.b].any fun x =>
      match x.wait with
      | some (.range l h) => decide (x.waitNo < n) && decide (l < hi) && decide (lo < h) && ((s.core core).overlaps l h).isEmpty
      | _ => false

/-- The 128-byte sampling block's heap units of a vocabulary task (R210, R326): units HU up to HU + HCNT. -/
def cmdField (bs : List Byte) (off n : Nat) : Nat := natOfBytes ((bs.drop off).take n)

/-- Writes scratchpad bytes. -/
def Core.spSet (c : Core) (a : Nat) (bs : List Byte) : Core := { c with scratch := memSetBytes c.scratch a bs }

/-- The front's accumulator base on a core (R322). -/
def Front.accBase (f : Front) (core : Nat) : Nat := tabGetD f.accumBase core 0

/-- The heap units that a task names: none unless it is a vocabulary task (R204, R210). -/
def State.taskHeaps (s : State) (e : Eng) (c : Cmd) : List Nat :=
  if cmdField c.bytes 0x17 1 / 2 % 8 = 3 then
    let fr := (s.front? e.front).map fun f => f.spBase c.core
    let blk := (s.core c.core).spBytes (fr.getD 0 + cmdField c.bytes 0x34 4) 2
    let hu := natOfBytes (blk.take 1)
    let cnt := natOfBytes (blk.drop 1) % 8
    (List.range cnt).map (hu + ·)
  else []

/-- The commands of a context that have been accepted and have not completed. -/
def Eng.unfinished (e : Eng) : List Cmd := e.queue ++ e.started.map fun x => x.cmd

/-- Whether an unfinished task of a core names a heap unit (R235). -/
def State.heapBusy (s : State) (core unit : Nat) : Bool :=
  (s.core core).tasks.any fun t =>
    match s.eng? t.1 with
    | none => false
    | some e => e.unfinished.any fun c => c.num == t.2 && (s.taskHeaps e c).contains unit


/-- Whether a check of DLWAIT's word would end its wait (R238): its value has reached the target, or the check would meet a
fault. -/
def State.wordReached (s : State) (k : Nat) (g : Gust) (va target : Nat) : Bool :=
  let fr := s.frontOf g
  match (s.translate (coreOf k) fr.part fr.asid va).2 with
  | none => true
  | some x =>
    let d := x.domain va
    x.mig == 2 || !x.r || s.lacksFeature x || s.poisoned d 8 || decide (target ≤ s.readNat d 8)

/-- Whether the condition of a wait no longer holds the slot (R325, Table 4). Reply and barrier waits end by their
events. -/
def State.waitOver (s : State) (k : Nat) (g : Gust) (b : Bool) : Wait → Bool :=
  let c := s.core (coreOf k)
  let no := (g.slot b).waitNo
  fun w => match w with
  | .reply _ | .landed _ _ | .barrier .. | .drain .. => false
  | .replySlot n => decide (s.replySlots (coreOf k) + n ≤ 256)
  | .form f => f.arrived
  | .fence n ids => s.accessesDone k g n && s.acked ids
  | .flush ids => s.acked ids
  | .counterFull n => decide (g.counter n < 63)
  | .heap u => !(s.heapBusy (coreOf k) u)
  | .lock ls => ls.all fun n => c.lockOk k n
  | .drift y => g.symFree y
  | .symbol => g.freeSym.isSome && decide (g.driftRegs < 16)
  | .quiet => g.noDrift && g.posted.all fun p => p.counter.isNone
  | .headwind p => decide (0 < s.aw (coreOf k) p) && !(s.headwindBefore (coreOf k) p no)
  | .held _ _ => g.unitOps.isEmpty && (s.heldAt k).isEmpty
  | .sb n m => decide (g.counter n ≤ m)
  | .timeline e n =>
    match s.eng? e with
    | some x => decide (n ≤ x.timeline) || x.faulted
    | none => decide (n = 0)
  | .dlwait va target deadline => decide (deadline ≤ s.hub.now.toNat) || s.wordReached k g va target
  | .leave => (s.die (dieOf (coreOf k))).leave.any fun r => r.granted && r.eng == leaveKey k b
  | .range lo hi => (c.overlaps lo hi).isEmpty && !(s.rangeBefore (coreOf k) lo hi no)

/-- Whether nothing but its place and a halt keeps a slot from issuing (R323, R325, R362): it is live, not at its join and
not waiting, and neither the gust's retirement nor a handler of the other slot holds it. -/
def State.canIssue (s : State) (k : Nat) (g : Gust) (b : Bool) : Bool :=
  let x := g.slot b
  let trapped := match g.trapRet with | some t => t.slotB == b | none => true
  x.live && !x.atJoin && !g.retiring && !(g.frozen && !trapped) && !(g.pending != 0 && !trapped)
    && (match x.wait with | none => true | some w => s.waitOver k g b w)

/-- Whether the resume of a gust's context waits for range-scoreboard entries (R370). -/
def State.resuming (s : State) (k : Nat) (g : Gust) : Bool :=
  (s.core (coreOf k)).requeue.any fun t =>
    match s.eng? t.1 with
    | some e => (match s.front? e.front with | some f => f.inst == (s.frontOf g).inst | none => false)
    | none => false

/-- Whether a slot is ready to issue (R323, R324): its gust is also in the active bank and not halted, and its context has
resumed (R370). -/
def State.ready (s : State) (k : Nat) (g : Gust) (b : Bool) : Bool :=
  s.canIssue k g b && inActive k && (!g.halted || g.stepOnce) && !(s.resuming k g)

end Sys2Proof.Machine
end

