-- ==== Sys2Proof/Machine/Flags.lean ====
section
/-! DEFINITION. Sticky flags (spec/01 R36), the record of the first flag-setting group (spec/05 R145), result tags (R23), and
the completion of an instruction with one register result (spec/04 R93). -/

namespace Sys2Proof.Machine

/-! ## Sticky flags -/

/-- Whether every flag of every lane of LMASK is clear (R145). -/
def Gust.flagsClear (g : Gust) : Bool := ((g.fNX ||| g.fUF ||| g.fOF ||| g.fDZ ||| g.fNV) &&& g.lmask) == 0

/-- The five flags that lane l of an instruction raises, as masks over the lanes of wm. -/
def flagMask (wm : Word) (p : Nat → Bool) : Word := wm &&& maskOf p

/-- Sets sticky flags in the lanes of wm (R36). -/
def Gust.orFlags (g : Gust) (wm : Word) (fl : Nat → Fl) : Gust :=
  { g with
    fNX := g.fNX ||| flagMask wm fun l => (fl l).nx
    fUF := g.fUF ||| flagMask wm fun l => (fl l).uf
    fOF := g.fOF ||| flagMask wm fun l => (fl l).ovf
    fDZ := g.fDZ ||| flagMask wm fun l => (fl l).dz
    fNV := g.fNV ||| flagMask wm fun l => (fl l).nv }

/-- An instruction's flags (R36, R145): when it sets one while all were clear, XFPC and XDEST name it. -/
def Gust.setFlags (g : Gust) (wm : Word) (fl : Nat → Fl) (pc : BitVec 56) (dest : Word) : Gust :=
  let g1 := g.orFlags wm fl
  if g.flagsClear && (lanesOf wm).any (fun l => (fl l).any) then { g1 with xfpc := pc.zeroExtend 64, xdest := dest } else g1

/-- XDEST of a register destination (R145). -/
def Gust.destCode (g : Gust) (n : Nat) : Word :=
  if g.inTrapBank n then BitVec.ofNat 32 (0x3E0 + n) else BitVec.ofNat 32 (g.wb + n)

/-- FLAGS of a lane, bits as in R39: NX, UF, OF, DZ, NV. -/
def Gust.flagsOf (g : Gust) (l : Nat) : Nat :=
  (if inMask g.fNX l then 1 else 0) + (if inMask g.fUF l then 2 else 0) + (if inMask g.fOF l then 4 else 0)
    + (if inMask g.fDZ l then 8 else 0) + (if inMask g.fNV l then 16 else 0)

/-- Sets one flag mask in the lanes of wm to the bits that p gives (R144). -/
def replaceIn (wm old : Word) (p : Nat → Bool) : Word := (old &&& ~~~wm) ||| (wm &&& maskOf p)

/-- MTS FLAGS (R39, R144). It records nothing in XFPC and XDEST, also when it raises a flag while all flags are clear: R145 does
not say whether a written flag counts as one that an instruction sets (DESIGN CHOICE, log 75). -/
def Gust.putFlags (g : Gust) (wm : Word) (v : Nat → Word) : Gust :=
  let wm := wm &&& g.lmask
  { g with
    fNX := replaceIn wm g.fNX fun l => (v l).getLsbD 0
    fUF := replaceIn wm g.fUF fun l => (v l).getLsbD 1
    fOF := replaceIn wm g.fOF fun l => (v l).getLsbD 2
    fDZ := replaceIn wm g.fDZ fun l => (v l).getLsbD 3
    fNV := replaceIn wm g.fNV fun l => (v l).getLsbD 4 }

/-! ## Result tags -/

/-- The rows of Table 5 of spec/01 that an integer result may match (R23). -/
inductive TagRule where
  /-- U when all inputs are U, else G -/
  | plain
  /-- IADD, ISUB, IADDI -/
  | add
  /-- IMUL -/
  | mul
  /-- IMAD, inputs SA, SB, D -/
  | mad
  /-- SHL, SHLI -/
  | shl
  deriving DecidableEq, Repr

/-- Whether a value is U or L. -/
def Val.affine : Val → Bool
  | .u _ | .l _ _ => true
  | _ => false

/-- Whether the inputs give tag L (R23, Table 5). -/
def TagRule.linear : TagRule → List Val → Bool
  | .plain, _ => false
  | .add, [a, b] => a.affine && b.affine
  | .mul, [a, b] => (a.affine && b.isU) || (a.isU && b.affine)
  | .mad, [a, b, d] => ((a.tag == 2 && b.isU) || (a.isU && b.tag == 2)) && d.affine
  | .shl, [a, b] => a.affine && b.isU
  | _, _ => false

/-- The value of an integer result with its tag (R23): f gives lane l. -/
def resultOf (g : Gust) (r : TagRule) (ins : List Val) (f : Nat → Word) : Val :=
  if ins.all Val.isU then .u (f 0)
  else if r.linear ins then .l (f 0) (f 1 - f 0)
  else g.mkG f

/-! ## Completing an instruction with one register result -/

/-- The effective rounding mode of a group (R46, R81). -/
def Ctx.rm (c : Ctx) : Rm :=
  match c.i.view.p.eff.rnd.toNat with
  | 0 => .rne
  | 1 => .rtz
  | 2 => .rup
  | _ => .rdn

/-- Whether the group's W bit is 1 (R18). -/
def Ctx.w (c : Ctx) : Bool := c.i.view.w == 1

/-- Writes the result in D by Wr, or in L1 alone when W = 1, and sets flags (R93, R18). -/
def putResult (c : Ctx) (s : State) (d : BitVec 7) (v : Val) (fl : Nat → Fl := fun _ => {}) : Except Stop Done :=
  if c.w then
    .ok { s := s.putGust (c.g.setFlags c.wm fl c.pc 0x3FE)
          l1 := .val (c.g.stored c.wm (c.g.reg d.toNat) v) }
  else
    match wrAll c s [(d.toNat, v)] with
    | .error e => .error e
    | .ok (s1, l1) =>
      .ok { s := s1.putGust ((c.g.write1 c.wm d.toNat v).setFlags c.wm fl c.pc (c.g.destCode d.toNat)), l1 := l1 }

/-- Writes a pair by Wr (R16). -/
def putPair (c : Ctx) (s : State) (d : BitVec 7) (lo hi : Val) : Except Stop Done :=
  match wrAll c s [(d.toNat, lo), (d.toNat + 1, hi)] with
  | .error e => .error e
  | .ok (s1, l1) => .ok { s := s1, l1 := l1 }

/-- Writes a mask register in the lanes of Active() (R99): bits outside LMASK become 0. -/
def putMask (c : Ctx) (s : State) (d : BitVec 7) (p : Nat → Bool) (fl : Nat → Fl := fun _ => {}) : Except Stop Done :=
  let m := replaceIn c.wm (c.g.maskReg d.toNat) p &&& c.g.lmask
  .ok { s := s.putGust ((c.g.setMask d.toNat m).setFlags c.wm fl c.pc (BitVec.ofNat 32 (0x200 + d.toNat))) }

/-! ## Drift transforms -/

/-- Whether a drift record may be transformed by this group (R29): its symbol's captured mask is the write mask, its kind
is accepted. -/
def Ctx.transforms (c : Ctx) (r : Drift) (kinds : List Nat) : Bool :=
  kinds.contains r.kind && c.wm == (c.g.syms.getD r.sym {}).mask

/-- The values that a destination keeps outside the captured mask (R29): its general storage when it holds a record of the
symbol, its expanded value otherwise. -/
def Gust.under (g : Gust) (n : Nat) : List Word :=
  match g.reg n with
  | .d _ xs => xs
  | v => column fun l => if inMask g.lmask l then v.lane l else 0

/-- Writes drift records (R24, R25, R29): a destination that holds a record of another symbol waits for it. -/
def putDrift (c : Ctx) (s : State) (w : Bool) (ws : List (Nat × Drift)) : Except Stop Done :=
  match ws.findSome? fun e => match (c.g.reg e.1).sym? with
      | some t => if t = e.2.sym then none else some t
      | none => none with
  | some t => .error (.wait s (.drift t))
  | none =>
    let vs := ws.map fun e => (e.1, Val.d e.2 (c.g.under e.1))
    let l1 := match vs with | [] => Latch.empty 2 | (_, v) :: _ => .val v
    if w then .ok { s := s, l1 := l1 }
    else if c.g.overBudget c.wm vs then .error (c.fault s 0x04 0)
    else .ok { s := s.putGust (vs.foldl (fun g e => (g.setReg e.1 e.2).setCapTag e.1 false) c.g), l1 := l1 }

end Sys2Proof.Machine
end

