-- ==== Sys2Proof/Machine/Integer.lean ====
section
/-! DEFINITION. The integer, shift-immediate, comparison and 64-bit instructions (spec/04 R96 to R104). -/

namespace Sys2Proof.Machine

/-! ## Lane functions -/

/-- IMULH (R96). -/
def mulHi (a b : Word) : Word := BitVec.ofInt 32 (a.toInt * b.toInt / 2 ^ 32)
/-- IMULH.n (R96). -/
def mulHiN (a b : Word) : Word := BitVec.ofNat 32 (a.toNat * b.toNat / 2 ^ 32)
/-- Signed minimum. -/
def sMin (a b : Word) : Word := if a.toInt ≤ b.toInt then a else b
/-- Signed maximum. -/
def sMax (a b : Word) : Word := if a.toInt ≤ b.toInt then b else a
/-- Unsigned minimum. -/
def uMin (a b : Word) : Word := if a.toNat ≤ b.toNat then a else b
/-- Unsigned maximum. -/
def uMax (a b : Word) : Word := if a.toNat ≤ b.toNat then b else a
/-- IABS (R96). -/
def iAbs (a : Word) : Word := if a.getLsbD 31 then -a else a
/-- SHL (R97). -/
def shiftL (a b : Word) : Word := if b.toNat ≥ 32 then 0 else a <<< b.toNat
/-- SHR (R97). -/
def shiftR (a b : Word) : Word := if b.toNat ≥ 32 then 0 else a >>> b.toNat
/-- SAR (R97). -/
def shiftRA (a b : Word) : Word :=
  if b.toNat ≥ 32 then (if a.getLsbD 31 then 0xFFFFFFFF else 0) else a.sshiftRight b.toNat
/-- ROTL (R97). -/
def rotL (a b : Word) : Word := a.rotateLeft (b.toNat % 32)
/-- CLZ (R97). -/
def clz32 (a : Word) : Word := BitVec.ofNat 32 (if a = 0 then 32 else 31 - Nat.log2 a.toNat)
/-- CTZ (R97). -/
def ctz32 (a : Word) : Word := BitVec.ofNat 32 ((lanesOf a).head?.getD 32)
/-- BREV (R97). -/
def brev32 (a : Word) : Word := maskOf fun l => a.getLsbD (31 - l)
/-- The position of BFX, BFXS and BFI (R98). -/
def bfPos (b : Word) : Nat := bitsOf b.toNat 4 0
/-- The effective width of BFX, BFXS and BFI (R98). -/
def bfWidth (b : Word) : Nat := min (bitsOf b.toNat 13 8) (32 - bfPos b)
/-- BFX (R98). -/
def bfx32 (a b : Word) : Word := BitVec.ofNat 32 (a.toNat / 2 ^ bfPos b % 2 ^ bfWidth b)
/-- BFXS (R98). -/
def bfxs32 (a b : Word) : Word :=
  let w := bfWidth b
  let x := a.toNat / 2 ^ bfPos b % 2 ^ w
  if w = 0 then 0 else if x ≥ 2 ^ (w - 1) then BitVec.ofInt 32 ((x : Int) - 2 ^ w) else BitVec.ofNat 32 x
/-- BFI (R98). -/
def bfi32 (a b d : Word) : Word :=
  let m : Word := BitVec.ofNat 32 ((2 ^ bfWidth b - 1) * 2 ^ bfPos b)
  (d &&& ~~~m) ||| ((a <<< bfPos b) &&& m)

/-- The integer condition of a code 0 to 9 (R86). -/
def intCond (c : Nat) (ua ub : Nat) (sa sb : Int) : Bool :=
  match c with
  | 0 => decide (ua = ub)
  | 1 => decide (ua ≠ ub)
  | 2 => decide (sa < sb)
  | 3 => decide (sa ≤ sb)
  | 4 => decide (sa > sb)
  | 5 => decide (sa ≥ sb)
  | 6 => decide (ua < ub)
  | 7 => decide (ua ≤ ub)
  | 8 => decide (ua > ub)
  | _ => decide (ua ≥ ub)

/-- The 36-bit immediate of R83, as an integer: IMM25 and IMM11 with a PFX.I, else IMM11 sign-extended. -/
def immOf (p : Pfx) (imm : BitVec 11) : Int :=
  match p.i with
  | some h => (h ++ imm : BitVec 36).toInt
  | none => imm.toInt
/-- The immediate of an instruction with a 32-bit operand (R83, R100). -/
def imm32 (p : Pfx) (imm : BitVec 11) : Word := BitVec.ofInt 32 (immOf p imm)
/-- The immediate of a 64-bit address operation (R83). -/
def imm64 (p : Pfx) (imm : BitVec 11) : DWord := BitVec.ofInt 64 (immOf p imm)

/-! ## Shapes of instruction -/

/-- An integer instruction of two sources (R93, R96, R97). -/
def int2 (f : RForm) (r : TagRule) (op : Word → Word → Word) : Body := undrifted fun c s =>
  let a := c.src f.sa
  let b := c.src f.sb
  putResult c s f.d (resultOf c.g r [a, b] fun l => op (a.lane l) (b.lane l))

/-- An integer instruction of one source; SB is 0 (R96, R97). -/
def int1 (f : RForm) (op : Word → Word) : Body := undrifted fun c s =>
  let a := c.src f.sa
  putResult c s f.d (resultOf c.g .plain [a] fun l => op (a.lane l))

/-- An integer instruction that reads D as its third source (R96 to R98). -/
def int3 (f : RForm) (r : TagRule) (op : Word → Word → Word → Word) : Body := undrifted fun c s =>
  let a := c.src f.sa
  let b := c.src f.sb
  let d := c.g.reg f.d.toNat
  putResult c s f.d (resultOf c.g r [a, b, d] fun l => op (a.lane l) (b.lane l) (d.lane l))

/-- An integer instruction of one source and an immediate (R100, R101). -/
def intI (w : BitVec 7) (sa : BitVec 7) (r : TagRule) (op : Word → Word → Word) (i : Word) : Body := undrifted fun c s =>
  let a := c.src sa
  putResult c s w (resultOf c.g r [a, .u i] fun l => op (a.lane l) i)

/-- The U value that a transform takes beside a record. -/
def Val.uniform? : Val → Option Word
  | .u v => some v
  | _ => none

/-- An instruction that transforms a D operand in SA or SB when R29 allows it, and waits on it otherwise (R30). ta and tb
give the new coefficients from (a, b) and the other operand. -/
def transform2 (f : RForm) (kinds : List Nat) (permit : Bool)
    (ta tb : Option (Word × Word → Word → Word × Word)) (kind : Nat) (one : Word) (plain : Body) : Body := fun c s =>
  let coef := fun (r : Drift) => if r.kind = 0 then (one, (0 : Word)) else (r.a, r.b.lo)
  match c.src f.sa, c.src f.sb, ta, tb with
  | .d r _, .u x, some t, _ =>
    if permit && c.transforms r kinds then
      let n := t (coef r) x
      putDrift c s c.w [(f.d.toNat, { sym := r.sym, kind := kind, a := n.1, b := n.2.zeroExtend 64 })]
    else plain c s
  | .u x, .d r _, _, some t =>
    if permit && c.transforms r kinds then
      let n := t (coef r) x
      putDrift c s c.w [(f.d.toNat, { sym := r.sym, kind := kind, a := n.1, b := n.2.zeroExtend 64 })]
    else plain c s
  | _, _, _, _ => plain c s

/-! ## Major 0x01 -/

/-- IADD (R96, R29). -/
def execIadd (p : Pfx) (f : RForm) (s : State) : Outcome :=
  let t := fun (k : Word × Word) (x : Word) => (k.1, k.2 + x)
  runGroup (.iadd p f) s (transform2 f [0, 1] true (some t) (some t) 1 1 (int2 f .add fun a b => a + b))
/-- ISUB (R96, R29). -/
def execIsub (p : Pfx) (f : RForm) (s : State) : Outcome :=
  runGroup (.isub p f) s (transform2 f [0, 1] true (some fun k x => (k.1, k.2 - x)) (some fun k x => (-k.1, x - k.2)) 1 1
    (int2 f .add fun a b => a - b))
/-- IMUL (R96, R29). -/
def execImul (p : Pfx) (f : RForm) (s : State) : Outcome :=
  let t := fun (k : Word × Word) (x : Word) => (k.1 * x, k.2 * x)
  runGroup (.imul p f) s (transform2 f [0, 1] true (some t) (some t) 1 1 (int2 f .mul fun a b => a * b))
/-- IMULH (R96). -/
def execImulh (p : Pfx) (f : RForm) (s : State) : Outcome := runGroup (.imulh p f) s (int2 f .plain mulHi)
/-- IMULH.n (R96). -/
def execImulhn (p : Pfx) (f : RForm) (s : State) : Outcome := runGroup (.imulhn p f) s (int2 f .plain mulHiN)
/-- IMAD (R96). -/
def execImad (p : Pfx) (f : RForm) (s : State) : Outcome :=
  runGroup (.imad p f) s (int3 f .mad fun a b d => a * b + d)
/-- IMIN (R96). -/
def execImin (p : Pfx) (f : RForm) (s : State) : Outcome := runGroup (.imin p f) s (int2 f .plain sMin)
/-- IMAX (R96). -/
def execImax (p : Pfx) (f : RForm) (s : State) : Outcome := runGroup (.imax p f) s (int2 f .plain sMax)
/-- IMINN (R96). -/
def execIminn (p : Pfx) (f : RForm) (s : State) : Outcome := runGroup (.iminn p f) s (int2 f .plain uMin)
/-- IMAXN (R96). -/
def execImaxn (p : Pfx) (f : RForm) (s : State) : Outcome := runGroup (.imaxn p f) s (int2 f .plain uMax)
/-- IABS (R96). -/
def execIabs (p : Pfx) (f : RForm) (s : State) : Outcome := runGroup (.iabs p f) s (int1 f iAbs)

/-! ## Major 0x02 -/

/-- AND (R97). -/
def execAnd (p : Pfx) (f : RForm) (s : State) : Outcome := runGroup (.and p f) s (int2 f .plain fun a b => a &&& b)
/-- OR (R97). -/
def execOr (p : Pfx) (f : RForm) (s : State) : Outcome := runGroup (.or p f) s (int2 f .plain fun a b => a ||| b)
/-- XOR (R97). -/
def execXor (p : Pfx) (f : RForm) (s : State) : Outcome := runGroup (.xor p f) s (int2 f .plain fun a b => a ^^^ b)
/-- ANDN (R97). -/
def execAndn (p : Pfx) (f : RForm) (s : State) : Outcome := runGroup (.andn p f) s (int2 f .plain fun a b => a &&& ~~~b)
/-- SHL (R97). -/
def execShl (p : Pfx) (f : RForm) (s : State) : Outcome := runGroup (.shl p f) s (int2 f .shl shiftL)
/-- SHR (R97). -/
def execShr (p : Pfx) (f : RForm) (s : State) : Outcome := runGroup (.shr p f) s (int2 f .plain shiftR)
/-- SAR (R97). -/
def execSar (p : Pfx) (f : RForm) (s : State) : Outcome := runGroup (.sar p f) s (int2 f .plain shiftRA)
/-- ROTL (R97). -/
def execRotl (p : Pfx) (f : RForm) (s : State) : Outcome := runGroup (.rotl p f) s (int2 f .plain rotL)
/-- POPC (R97). -/
def execPopc (p : Pfx) (f : RForm) (s : State) : Outcome :=
  runGroup (.popc p f) s (int1 f fun a => BitVec.ofNat 32 (popCount a))
/-- CLZ (R97). -/
def execClz (p : Pfx) (f : RForm) (s : State) : Outcome := runGroup (.clz p f) s (int1 f clz32)
/-- CTZ (R97). -/
def execCtz (p : Pfx) (f : RForm) (s : State) : Outcome := runGroup (.ctz p f) s (int1 f ctz32)
/-- BREV (R97). -/
def execBrev (p : Pfx) (f : RForm) (s : State) : Outcome := runGroup (.brev p f) s (int1 f brev32)
/-- SEL (R97). -/
def execSel (p : Pfx) (f : RForm) (s : State) : Outcome :=
  runGroup (.sel p f) s (int3 f .plain fun a b d => if d ≠ 0 then a else b)
/-- BFX (R98). -/
def execBfx (p : Pfx) (f : RForm) (s : State) : Outcome := runGroup (.bfx p f) s (int2 f .plain bfx32)
/-- BFXS (R98). -/
def execBfxs (p : Pfx) (f : RForm) (s : State) : Outcome := runGroup (.bfxs p f) s (int2 f .plain bfxs32)
/-- BFI (R98). -/
def execBfi (p : Pfx) (f : RForm) (s : State) : Outcome := runGroup (.bfi p f) s (int3 f .plain bfi32)

/-! ## Major 0x03: comparison into a mask -/

/-- ICMP (R99). -/
def icmpBody (n : Nat) (f : RForm) : Body := undrifted fun c s =>
  putMask c s f.d fun l =>
    let a := c.rd f.sa l
    let b := c.rd f.sb l
    intCond n a.toNat b.toNat a.toInt b.toInt
/-- ICMP (R99). -/
def execIcmp (p : Pfx) (n : BitVec 4) (f : RForm) (s : State) : Outcome := runGroup (.icmp p n f) s (icmpBody n.toNat f)

/-! ## Majors 0x04 to 0x09: immediates -/

/-- IADDI (R100), with the transform of R29. -/
def iaddiBody (p : Pfx) (f : IForm) : Body := fun c s =>
  let i := imm32 p f.imm
  match c.src f.sa with
  | .d r _ =>
    if c.transforms r [0, 1] then
      let k := if r.kind = 0 then ((1 : Word), (0 : Word)) else (r.a, r.b.lo)
      putDrift c s c.w [(f.d.toNat, { sym := r.sym, kind := 1, a := k.1, b := (k.2 + i).zeroExtend 64 })]
    else intI f.d f.sa .add (fun a b => a + b) i c s
  | _ => intI f.d f.sa .add (fun a b => a + b) i c s
/-- IADDI (R100). -/
def execIaddi (p : Pfx) (f : IForm) (s : State) : Outcome := runGroup (.iaddi p f) s (iaddiBody p f)
/-- ANDI (R100). -/
def execAndi (p : Pfx) (f : IForm) (s : State) : Outcome :=
  runGroup (.andi p f) s (intI f.d f.sa .plain (fun a b => a &&& b) (imm32 p f.imm))
/-- ORI (R100). -/
def execOri (p : Pfx) (f : IForm) (s : State) : Outcome :=
  runGroup (.ori p f) s (intI f.d f.sa .plain (fun a b => a ||| b) (imm32 p f.imm))
/-- XORI (R100). -/
def execXori (p : Pfx) (f : IForm) (s : State) : Outcome :=
  runGroup (.xori p f) s (intI f.d f.sa .plain (fun a b => a ^^^ b) (imm32 p f.imm))
/-- SHLI (R101). -/
def execShli (p : Pfx) (f : ShForm) (s : State) : Outcome :=
  runGroup (.shli p f) s (intI f.d f.sa .shl shiftL (f.cnt.zeroExtend 32))
/-- SHRI (R101). -/
def execShri (p : Pfx) (f : ShForm) (s : State) : Outcome :=
  runGroup (.shri p f) s (intI f.d f.sa .plain shiftR (f.cnt.zeroExtend 32))
/-- SARI (R101). -/
def execSari (p : Pfx) (f : ShForm) (s : State) : Outcome :=
  runGroup (.sari p f) s (intI f.d f.sa .plain shiftRA (f.cnt.zeroExtend 32))
/-- LDI (R102). -/
def execLdi (p : Pfx) (f : IForm) (s : State) : Outcome :=
  runGroup (.ldi p f) s (undrifted fun c s => putResult c s f.d (.u (imm32 p f.imm)))

/-! ## Majors 0x0A and 0x0B: 64-bit -/

/-- A pair of register fields as its two values, low first (R16). -/
def Ctx.pairVals (c : Ctx) (f : BitVec 7) : Val × Val := (c.g.reg f.toNat, c.g.reg (f.toNat + 1))
/-- Lane l of two values as a pair. -/
def lane64 (v : Val × Val) (l : Nat) : DWord := DWord.mk (v.2.lane l) (v.1.lane l)

/-- Writes a 64-bit result: tag U when every input is U, else G (R103). -/
def putPair64 (c : Ctx) (s : State) (d : BitVec 7) (ins : List Val) (r : Nat → DWord) : Except Stop Done :=
  if ins.all Val.isU then putPair c s d (.u (r 0).lo) (.u (r 0).hi)
  else putPair c s d (c.g.mkG fun l => (r l).lo) (c.g.mkG fun l => (r l).hi)

/-- The pair of records of a drift address (R29, R104). -/
def driftPair (d : Nat) (sym : Nat) (a : Word) (b : DWord) : List (Nat × Drift) :=
  [(d, { sym := sym, kind := 3, a := a, b := b }), (d + 1, { sym := sym, kind := 4, a := 0, b := 0 })]

/-- ADD64 and SUB64 on plain operands (R103). -/
def pair2 (f : RForm) (op : DWord → DWord → DWord) : Body := undrifted fun c s =>
  let a := c.pairVals f.sa
  let b := c.pairVals f.sb
  putPair64 c s f.d [a.1, a.2, b.1, b.2] fun l => op (lane64 a l) (lane64 b l)

/-- ADD64 (R103, R104). -/
def add64Body (f : RForm) : Body := fun c s =>
  match c.g.reg f.sb.toNat, c.g.reg f.sa.toNat, c.g.reg (f.sa.toNat + 1) with
  | .d r _, .u lo, .u hi =>
    if c.transforms r [0, 1] then
      let k := if r.kind = 0 then ((1 : Word), (0 : Word)) else (r.a, r.b.lo)
      putDrift c s false (driftPair f.d.toNat r.sym k.1 (k.2.signExtend 64 + DWord.mk hi lo))
    else pair2 f (fun a b => a + b) c s
  | _, _, _ => pair2 f (fun a b => a + b) c s
/-- ADD64 (R103). -/
def execAdd64 (p : Pfx) (f : RForm) (s : State) : Outcome := runGroup (.add64 p f) s (add64Body f)
/-- SUB64 (R103). -/
def execSub64 (p : Pfx) (f : RForm) (s : State) : Outcome := runGroup (.sub64 p f) s (pair2 f fun a b => a - b)

/-- MAD64 on plain operands (R103). -/
def mad64Plain (f : RForm) : Body := undrifted fun c s =>
  let a := c.src f.sa
  let b := c.src f.sb
  let d := c.pairVals f.d
  putPair64 c s f.d [a, b, d.1, d.2] fun l => lane64 d l + (a.lane l * b.lane l).signExtend 64
/-- MAD64 (R103, R104). -/
def mad64Body (f : RForm) : Body := fun c s =>
  match c.src f.sa, c.src f.sb, c.g.reg f.d.toNat, c.g.reg (f.d.toNat + 1) with
  | .d r _, .u x, .u lo, .u hi =>
    if c.transforms r [0, 1] then
      let k := if r.kind = 0 then ((1 : Word), (0 : Word)) else (r.a, r.b.lo)
      putDrift c s false (driftPair f.d.toNat r.sym (k.1 * x) ((k.2 * x).signExtend 64 + DWord.mk hi lo))
    else mad64Plain f c s
  | _, _, _, _ => mad64Plain f c s
/-- MAD64 (R103). -/
def execMad64 (p : Pfx) (f : RForm) (s : State) : Outcome := runGroup (.mad64 p f) s (mad64Body f)

/-- CMP64 (R99, R103). -/
def cmp64Body (n : Nat) (f : RForm) : Body := undrifted fun c s =>
  putMask c s f.d fun l =>
    let a := c.rd64 f.sa l
    let b := c.rd64 f.sb l
    intCond n a.toNat b.toNat a.toInt b.toInt
/-- CMP64 (R103). -/
def execCmp64 (p : Pfx) (n : BitVec 4) (f : RForm) (s : State) : Outcome := runGroup (.cmp64 p n f) s (cmp64Body n.toNat f)

/-- ADD64I (R103, R104). -/
def add64iBody (p : Pfx) (f : IForm) : Body := fun c s =>
  let i := imm64 p f.imm
  let plain : Body := undrifted fun c s =>
    let a := c.pairVals f.sa
    putPair64 c s f.d [a.1, a.2] fun l => lane64 a l + i
  match c.g.reg f.sa.toNat with
  | .d r _ =>
    if c.transforms r [0, 1] then
      let k := if r.kind = 0 then ((1 : Word), (0 : Word)) else (r.a, r.b.lo)
      putDrift c s false (driftPair f.d.toNat r.sym k.1 (k.2.signExtend 64 + i))
    else plain c s
  | _ => plain c s
/-- ADD64I (R103). -/
def execAdd64i (p : Pfx) (f : IForm) (s : State) : Outcome := runGroup (.add64i p f) s (add64iBody p f)

end Sys2Proof.Machine
end

