-- ==== Sys2Proof/Machine/Quant.lean ====
section
/-! DEFINITION. Block headers, plane elements, the Hadamard rotation, key-value elements, requantisation, ring merge and
penalties (spec/02 R55 to R69, spec/07 R207). -/

namespace Sys2Proof.Machine

/-- A block header (R55). -/
inductive Header where
  | nested (e m : Nat)
  | reserved
  | zero
  | outlier
  deriving DecidableEq, Repr

/-- Reads a 16-bit header (R55). -/
def headerOf (h : Nat) : Header :=
  match bitsOf h 15 14 with
  | 0 => .nested (bitsOf h 13 8) (bitsOf h 7 0)
  | 1 => .reserved
  | 2 => .zero
  | _ => .outlier

/-- The exact FP32 value of z · 2^(E−32) · (1 + M/256) (R55, R57); +0 for a zero scale. -/
def scaled (e m : Nat) (z : Int) : Word :=
  if e = 0 ∧ m = 0 then 0 else (roundSigned .rne (z * (256 + m : Nat)) ((e : Int) - 40) false).1

/-- The FP32 value of a nested scale (R55). -/
def scaleFp (e m : Nat) : Word := scaled e m 1

/-- The decoded integer of the first k planes' bits of an element, plane 0 first (R57). -/
def decodePlanes (bits : List Bool) : Int :=
  let k := bits.length
  let u : Nat := bits.foldl (fun n b => 2 * n + (if b then 1 else 0)) 0
  let q : Int := if bits.headD false then (u : Int) - 2 ^ k else u
  if k ≥ 8 then q else q * 2 ^ (8 - k) + 2 ^ (7 - k)

/-- The BF16 value that the 16 plane bits of an outlier element hold, bit 15 first (R58). -/
def outlierValue (bits : List Bool) : Word :=
  cvtBF (BitVec.ofNat 32 (bits.foldl (fun n b => 2 * n + (if b then 1 else 0)) 0))

/-- The value of an element from its header and plane bits (R57, R58), and whether NV is set: plane p gives bit p. outl
says that the page or slot is outlier-capable. -/
def elementValue (h : Nat) (k : Nat) (outl : Bool) (plane : Nat → Bool) : Word × Bool :=
  match headerOf h with
  | .reserved => (canonNaN, true)
  | .zero => (0, false)
  | .outlier => if outl then (outlierValue ((List.range 16).map plane), false) else (canonNaN, true)
  | .nested e m => (scaled e m (decodePlanes ((List.range k).map plane)), false)

/-! ## Requantisation (R207) -/

/-- The nested headers in the order of their scales, the zero scale left out: 0x0001 up to 0x3FFF. -/
def scaleOfCode (c : Nat) : Nat × Nat := (c / 256, c % 256)

/-- Whether 127 · scale of a code ≥ the magnitude m · 2^e (R207). -/
def codeCovers (c m : Nat) (e : Int) : Bool :=
  let (se, sm) := scaleOfCode c
  let (p, q) := pow2Pair (((se : Int) - 40) - e)
  decide (m * q ≤ 127 * (256 + sm) * p)

/-- The smallest code from lo to hi that covers, by halving (R207); fuel is the number of halvings. -/
def leastCode (m : Nat) (e : Int) : Nat → Nat → Nat → Nat
  | 0, lo, _ => lo
  | n + 1, lo, hi =>
    if hi ≤ lo then lo
    else
      let mid := (lo + hi) / 2
      if codeCovers mid m e then leastCode m e n lo mid else leastCode m e n (mid + 1) hi

/-- The largest magnitude of finite values as m · 2^e, compared exactly by their bits. -/
def maxAbs (xs : List Word) : Word := xs.foldl (fun a x => if (fpAbs a).toNat < (fpAbs x).toNat then fpAbs x else fpAbs a) 0

/-- The header of a block of values (R207). -/
def blockHeader (xs : List Word) : Nat :=
  if xs.any fun x => (match unpack x with | .fin .. => false | _ => true) then 0x4000
  else
    match unpack (maxAbs xs) with
    | .fin _ m e => if m = 0 then 0x8000 else leastCode m e 14 1 0x3FFF
    | _ => 0x4000

/-- The element of a value under a header (R207), as the 8 bits of its INT8. Under headers 0x4000 and 0x8000, which give x/s no
scale, the model stores 0 elements (DESIGN CHOICE, log 73). -/
def blockElement (h : Nat) (x : Word) : Nat :=
  match headerOf h with
  | .nested e m => (BitVec.ofInt 8 (quantInt (-128) 127 x (scaleFp e m)).1).toNat
  | _ => 0

/-! ## Hadamard rotation (R61) -/

/-- One stage of R61 with span h: each element with the flags of the operations that formed it. -/
def hadStage (h : Nat) (xs : List (Word × Fl)) : List (Word × Fl) :=
  (List.range xs.length).map fun i =>
    if i &&& h = 0 then
      let a := xs.getD i (0, {})
      let b := xs.getD (i + h) (0, {})
      let r := fpAdd .rne a.1 b.1
      (r.1, (a.2.or b.2).or r.2)
    else
      let a := xs.getD (i - h) (0, {})
      let b := xs.getD i (0, {})
      let r := fpSub .rne a.1 b.1
      (r.1, (a.2.or b.2).or r.2)

/-- The constant c_d (R61). -/
def hadConst (d : Nat) : Word := if d = 64 then 0x3E000000 else if d = 128 then 0x3DB504F3 else 0x3D800000

/-- The rotation of a vector of length 64, 128 or 256 (R61), with flags. -/
def hadamardFl (xs : List Word) : List (Word × Fl) :=
  let ys := ([1, 2, 4, 8, 16, 32, 64, 128].filter (· < xs.length)).foldl (fun t h => hadStage h t) (xs.map fun x => (x, {}))
  ys.map fun y =>
    let r := fpMul .rne y.1 (hadConst xs.length)
    (r.1, y.2.or r.2)

/-- The rotation without its flags. -/
def hadamard (xs : List Word) : List Word := (hadamardFl xs).map fun x => x.1

/-! ## Sum orders (R62) -/

/-- One level of the tree: t'[i] = t[2i] ⊕ t[2i+1]. -/
def treeLevel {α : Type} (op : α → α → α) : List α → List α
  | a :: b :: t => op a b :: treeLevel op t
  | t => t

/-- The tree of R62 over 32 values. -/
def tree32 {α : Type} (op : α → α → α) (z : α) (xs : List α) : α :=
  (treeLevel op (treeLevel op (treeLevel op (treeLevel op (treeLevel op xs))))).headD z

/-- FP32 sum of 32 values by the tree (R62), flags dropped. -/
def treeSum (xs : List Word) : Word := tree32 addNE 0 xs

/-! ## Key-value elements (R59, R60) -/

/-- Whether any value is NaN or infinite. -/
def anyNonFinite (xs : List Word) : Bool := xs.any fun x => match unpack x with | .fin .. => false | _ => true

/-- The exact quotient a/7 rounded upward to BF16 (R59); a is finite and positive. -/
def scale7Up (a : Word) : Nat :=
  match unpack a with
  | .fin _ m e =>
    let r := roundMag 8 (-133) .rup false m 7 e
    if r.n < 2 ^ 7 then r.n else (r.q + 134).toNat * 2 ^ 7 + (r.n - 2 ^ 7)
  | _ => 0x7FC0

/-- INT4 quantisation of a rotated head vector (R59): its elements and its BF16 scale. -/
def quantInt4 (xs : List Word) : List Int × Nat :=
  if anyNonFinite xs then (xs.map fun _ => 0, 0x7FC0)
  else
    let a := maxAbs xs
    if a = 0 then (xs.map fun _ => 0, 0)
    else
      let s := scale7Up a
      let sf := cvtBF (BitVec.ofNat 32 s)
      (xs.map fun x => (quantInt (-7) 7 x sf).1, s)

/-- The value of an INT4 element under a BF16 scale (R59): e · s. -/
def int4Value (e : Int) (s : Nat) : Word := mulNE (intNE e) (cvtBF (BitVec.ofNat 32 s))

/-- Sealing a head's block (R60): the scale and the E4M3 element of a staged BF16 value, from the maximum a. -/
def sealScale (a : Word) : Word :=
  match unpack a with
  | .fin _ m _ => if m = 0 then 0 else divNE a 0x43E00000
  | _ => canonNaN
/-- The sealed element of a staged value (R60). -/
def sealElement (a y : Word) : Nat :=
  match unpack a with
  | .fin _ m _ => if m = 0 then 0 else (cvtE4 (divNE y (sealScale a))).1.toNat % 256
  | _ => 0

/-! ## Ring merge (R69) and penalties (R68) -/

/-- Whether a triple is empty (R69): m = −∞ and l = 0. -/
def tripleEmpty (m l : Word) : Bool := m == 0xFF800000 && (fpAbs l) == 0

/-- The merge of the held triple with the arriving one (R69): m, l, then the channels. Where one running maximum is NaN, the
larger is the number, as FMAX has it (DESIGN CHOICE, log 43). -/
def ringMerge (held arr : List Word) : List Word :=
  match held, arr with
  | m₁ :: l₁ :: o₁, m₂ :: l₂ :: o₂ =>
    if tripleEmpty m₂ l₂ then held
    else if tripleEmpty m₁ l₁ then arr
    else
      let m := (fpMinMax true m₁ m₂).1
      let w₁ := exp2NE (subNE m₁ m)
      let w₂ := exp2NE (subNE m₂ m)
      m :: addNE (mulNE l₁ w₁) (mulNE l₂ w₂) :: (List.zip o₁ o₂).map fun o => addNE (mulNE o.1 w₁) (mulNE o.2 w₂)
  | _, _ => held

/-- Whether an FP32 value is greater than zero. -/
def fpPos (a : Word) : Bool := (fpCond 4 a 0).1

/-- A penalised logit (R68). -/
def penalise (rep freq pres temp : Word) (n : Nat) (x : Word) : Word :=
  let t1 := if fpPos x then divNE x rep else mulNE x rep
  let t2 := subNE t1 (mulNE freq (intNE n))
  let t3 := if 0 < n then subNE t2 pres else t2
  if fpAbs temp = 0 then t3 else divNE t3 temp

end Sys2Proof.Machine
end

