-- ==== Sys2Proof/Machine/Lines.lean ====
section
/-! DEFINITION. Requests for the lines of other packages (spec/12 R334 to R344): what their homes serve, in the order in which
the requests of a line were sent (R335, R154, R266), and what goes to the hub and is sent or held there. -/

namespace Sys2Proof.Machine

/-! ## The lines of other packages -/

/-- The peer and line of a domain address (R334). -/
def lineOf (d : Nat) : Nat × Nat := (peerOf d, d / 128)

/-- The lines of other packages among domain addresses, each once. -/
def State.remoteLines (s : State) (ds : List Nat) : List (Nat × Nat) :=
  ((ds.filter fun d => peerOf d != s.self).map lineOf).dedup

/-- The physical plane of a line's packets (R334). -/
def State.planeOf (s : State) (d : Nat) : Nat :=
  let k := bitsOf d 9 7 ^^^ bitsOf d 20 18
  bitsOf s.hub.remap.toNat (3 * k + 2) (3 * k)

/-- Whether a request packet to a peer waits in the hub: a remap runs, or no notice of the peer has come (R337, R344). -/
def State.heldFor (s : State) (p : Nat) : Bool := s.hub.remapping.isSome || (tabGet? s.hub.peerInc p).isNone

/-- Whether a request for lines has a packet that waits in the hub. -/
def State.heldLines (s : State) (ls : List (Nat × Nat)) : Bool := ls.any fun l => s.heldFor l.1

/-- One more packet sent to a peer on a plane (R336). -/
def Hub.countPacket (h : Hub) (p plane : Nat) : Hub :=
  { h with sentOn := tabSet h.sentOn (p * 8 + plane) (tabGetD h.sentOn (p * 8 + plane) 0 + 1) }

/-- The packets of a request for lines, sent. -/
def State.countLines (s : State) (ls : List (Nat × Nat)) : State :=
  { s with hub := ls.foldl (fun h l => h.countPacket l.1 (s.planeOf (l.2 * 128))) s.hub }

/-- The domain address of each 128-byte line of byte ranges. -/
def spanLines (spans : List (Nat × Nat)) : List Nat :=
  spans.flatMap fun r => if r.2 = 0 then [] else (List.range ((r.1 + r.2 - 1) / 128 + 1 - r.1 / 128)).map fun i => (r.1 / 128 + i) * 128

/-! ## What a home serves -/

/-- The number that a size-byte location holds. -/
def State.loc (s : State) (d size : Nat) : Nat := s.readNat d size

/-- The new value of an atomic (R172): operation 0 to 7 ADD, MIN, MAX, MINN, MAXN, AND, OR, XOR; 8 XCHG, 9 CAS. -/
def atomicNew (op size : Nat) (w b d : Nat) : Nat :=
  let m := 2 ^ (8 * size)
  let sg : Nat → Int := fun x => if 2 * x ≥ m then (x : Int) - m else x
  match op with
  | 0 => (w + b) % m
  | 1 => if sg w ≤ sg b then w else b
  | 2 => if sg w ≤ sg b then b else w
  | 3 => min w b
  | 4 => max w b
  | 5 => w &&& b
  | 6 => w ||| b
  | 7 => w ^^^ b
  | 8 => b
  | _ => if w = d then b else w

/-- The block length of a page (R292). -/
def Xlat.blockLen (x : Xlat) : Nat := 8 * 2 ^ x.blen

/-- The header of the block of element e in the slot at a domain address (R56). -/
def State.tileHeader (s : State) (slot e b : Nat) : Nat := s.readNat (slot + 2 * (e / b)) 2

/-- The bit of element e in plane line p of the slot at a domain address (R56). -/
def State.planeBit (s : State) (slot e p : Nat) : Bool := (s.readByte (slot + 128 * (1 + p) + e / 8)).getLsbD (e % 8)

/-- The planes that an LDX of K reads on a page (R57, R162). -/
def planesRead (k : Nat) (x : Xlat) : Nat := if k = 0 then x.planes else min (k + 1) x.planes

/-- An atomic on a location of the own package, or of a peer when it is sent at once (R172, R174). -/
def State.atomicAt (s : State) (op size d b cmp : Nat) : State :=
  s.storeBytes d (bytesOf size (atomicNew op size (s.loc d size) b cmp))

/-- The vector of an empty pool, at most once per millisecond for each pool (R302). -/
def State.tellPool (s : State) (q i : Nat) : State :=
  let p := s.part q
  match p.poolTold.getD i none with
  | some t => if s.hub.now.toNat < t + 1000000 then s else
      (s.setPart q { p with poolTold := listSet p.poolTold i (some s.hub.now.toNat) }).msi (s.fnOf q) 2
  | none => (s.setPart q { p with poolTold := listSet p.poolTold i (some s.hub.now.toNat) }).msi (s.fnOf q) 2

/-- Pops a page from a pool (R302): its PA, or 0 with the record and the vector of an empty pool. -/
def State.popPool (s : State) (q i : Nat) : Nat × State :=
  let p := s.part q
  match p.pools.getD i [] with
  | a :: t => (a, s.setPart q { p with pools := listSet p.pools i t })
  | [] =>
    (0, (s.record { cls := 0x02, code := 0x12, action := 0, part := q, unit := 3, die := 4,
                    detail := bytesOf 1 i }).tellPool q i)

/-- The old value that one lane of a returning atomic gets, and the state after it (R172, R302). -/
def State.returning (s : State) (op size d b cmp : Nat) : Nat × State :=
  match popWord? (localPa d) with
  | some (q, i) =>
    if op = 8 ∧ size = 8 ∧ localPa d % 8 = 0 then
      if peerOf d = s.self then s.popPool q i else s.freshNat
    else (0, s)
  | none => (s.loc d size, s.atomicAt op size d b cmp)

/-- The lanes of a returning atomic in ascending order (R154): the state and each lane's old value. -/
def returningLanes (op size : Nat) : List LaneRead → State → State × Tab Nat
  | [], s => (s, [])
  | r :: rs, s =>
    let o := s.returning op size r.dom r.b r.cmp
    let t := returningLanes op size rs o.2
    (t.1, (r.lane, o.1) :: t.2)

/-- The extension of a loaded value by its K (R87, R157): bytes little-endian. -/
def extendLoad (k : Nat) (bs : List Byte) : List Word :=
  let n := natOfBytes bs
  match k with
  | 0 => [(BitVec.ofNat 8 n).signExtend 32]
  | 1 => [BitVec.ofNat 32 n]
  | 2 => [(BitVec.ofNat 16 n).signExtend 32]
  | 3 => [BitVec.ofNat 32 n]
  | 4 => [BitVec.ofNat 32 n]
  | 5 => [BitVec.ofNat 32 n, BitVec.ofNat 32 (n / 2 ^ 32)]
  | _ => [BitVec.ofNat 32 n, BitVec.ofNat 32 (n / 2 ^ 32), BitVec.ofNat 32 (n / 2 ^ 64), BitVec.ofNat 32 (n / 2 ^ 96)]

/-- The words of a lane's read, and whether it sets NV (R157, R162). -/
def laneValue (v : Serve) (s : State) (r : LaneRead) : List Word × Bool :=
  match v with
  | .plain k => (extendLoad k (s.readBytes r.dom (sizeOf k)), false)
  | .cap => (extendLoad 6 (s.readBytes r.dom 16), false)
  | .tile k =>
    let e := elementValue (s.tileHeader r.dom r.idx r.x.blockLen) (planesRead k r.x) r.x.outl (s.planeBit r.dom r.idx)
    ([e.1], e.2)
  | .atomic _ _ => ([], false)

/-- A reply with the words of each lane in its register writes; a uniform write takes those of the first. -/
def Reply.filled (r : Reply) (vals : Tab (List Word)) : Reply :=
  let first := match vals with | (_, w) :: _ => w | [] => []
  { r with
    writes := (List.range r.writes.length).filterMap fun j => (r.writes[j]?).map fun w =>
      { w with vals := lanes.map fun l => (if w.uniform then first else tabGetD vals l []).getD j 0 }
    serve := none }

/-- The bytes that an LDX reads of element e in the slot at a domain address (R162): the header line and the plane lines that
it decodes. -/
def State.tileSpans (s : State) (k : Nat) (x : Xlat) (slot e : Nat) : List (Nat × Nat) :=
  let lines := match headerOf (s.tileHeader slot e x.blockLen) with
    | .outlier => if x.outl then 16 else planesRead k x
    | .zero => 0
    | _ => planesRead k x
  (slot, 128) :: (List.range lines).map fun p => (slot + 128 * (1 + p), 128)

/-- The bytes that a lane's read takes. -/
def State.readSpans (s : State) (v : Serve) (r : LaneRead) : List (Nat × Nat) :=
  match v with
  | .plain k => [(r.dom, sizeOf k)]
  | .tile k => s.tileSpans k r.x r.dom r.idx
  | .cap => [(r.dom, 16)]
  | .atomic _ size => [(r.dom, size)]

/-- A reply with the words that the home gives: of an atomic the old values, of a load what memory holds (R153, R157, R162);
a capability comes with its memory tag (R191). -/
def Reply.valued (r : Reply) (s : State) (olds : Tab Nat) : Reply :=
  match r.serve with
  | none => r
  | some (.atomic _ _, _) => r.filled (olds.map fun e => (e.1, [BitVec.ofNat 32 e.2, BitVec.ofNat 32 (e.2 / 2 ^ 32)]))
  | some (v, rs) =>
    let vals := rs.map fun d => (d.lane, laneValue v s d)
    { r.filled (vals.map fun e => (e.1, e.2.1)) with
      nv := r.done &&& maskOf fun l => vals.any fun e => e.1 == l && e.2.2
      capQuad := r.capQuad.map fun q => (q.1, q.2 && match rs with | d :: _ => s.memTag d.dom | [] => false) }

/-- The reads of an access are served at once (R153): an atomic is performed, a load takes its words. -/
def State.serveReply (s : State) (r : Reply) : State × Reply :=
  match r.serve with
  | some (.atomic op size, rs) =>
    let t := returningLanes op size rs s
    (t.1, r.valued t.1 t.2)
  | _ => (s, r.valued s [])

/-! ## The order of a line's requests (R335)

The home serves the requests for a line in the order in which they were sent, so that a load or an atomic has its place before
every later request of its line, whenever its reply is taken. -/

/-- A line as it stands. -/
def State.seeLine (s : State) (line : Nat) : SeenLine :=
  { line := line
    bytes := s.readBytes (line * 128) 128
    tags := (List.range 8).filter fun i => s.memTag (line * 128 + 16 * i)
    poison := s.poison.contains line }

/-- Memory as lines of it have been seen. -/
def State.seeing (s : State) (xs : List SeenLine) : State :=
  xs.foldl (fun (t : State) (x : SeenLine) =>
    { t with
      mem := memSetBytes t.mem (x.line * 128) x.bytes
      memTags := x.tags.foldl (fun ts i => setAdd ts (x.line * 8 + i)) (t.memTags.filter fun n => n / 8 != x.line)
      poison := if x.poison then setAdd t.poison x.line else t.poison.filter (· != x.line) }) s

/-- Whether a line is among lines that have been seen. -/
def seenLine (xs : List SeenLine) (line : Nat) : Bool := xs.any fun x => x.line == line

/-- The home serves a line of a blocking access, when it has not yet: a load sees it as it stands, an atomic is performed in
its lanes there, unless the line carries poison (R193). -/
def State.see (s : State) (r : Reply) (line : Nat) : State × Reply :=
  if seenLine r.seen line then (s, r)
  else
    let x := s.seeLine line
    let r1 := { r with seen := x :: r.seen }
    match r.serve with
    | some (.atomic op size, rs) =>
      if x.poison then (s, r1)
      else
        let t := returningLanes op size (rs.filter fun d => d.dom / 128 == line) s
        (t.1, { r1 with olds := r1.olds ++ t.2 })
    | _ => (s, r1)

/-- A drift load sees a line as it stands, when it has not yet. -/
def State.seeSym (s : State) (y : Sym) (line : Nat) : Sym :=
  if seenLine y.seen line then y else { y with seen := s.seeLine line :: y.seen }

/-- Where a load or an atomic waits for its replies: in a slot, or as a drift symbol. -/
inductive Waiting where
  | slot (b : Bool)
  | sym (n : Nat)
  deriving DecidableEq, Repr

/-- Whether lines, as (peer, line), hold a line. -/
def asksFor (ls : List (Nat × Nat)) (line : Nat) : Bool := ls.any fun l => l.2 == line

/-- A list with an item at the place of its number. -/
def insertBy {α : Type} (n : Nat) (x : α) : List (Nat × α) → List (Nat × α)
  | [] => [(n, x)]
  | e :: t => if n < e.1 then (n, x) :: e :: t else e :: insertBy n x t

/-- The loads and atomics of a gust that are out on a line and were sent before request n, with their numbers. -/
def Gust.outOn (g : Gust) (line n : Nat) : List (Nat × Waiting) :=
  ([false, true].filterMap fun b => match (g.slot b).wait with
    | some (.reply r) => if asksFor r.lines line ∧ r.num < n then some (r.num, .slot b) else none
    | _ => none)
  ++ (List.range 8).filterMap fun i =>
    let y := g.syms.getD i {}
    if y.state = 1 ∧ asksFor y.lines line ∧ y.num < n then some (y.num, .sym i) else none

/-- The loads and atomics that are out on a line and were sent before request n, in the order of their sending. -/
def State.outOn (s : State) (line n : Nat) : List (Nat × Nat × Waiting) :=
  (s.gusts.flatMap fun e => (e.2.outOn line n).map fun w => (w.1, e.1, w.2)).foldl (fun acc w => insertBy w.1 w.2 acc) []

/-- The home serves a line of one load or atomic that is out. -/
def State.seeAt (s : State) (line k : Nat) (w : Waiting) : State :=
  match s.gust? k with
  | none => s
  | some g =>
    match w with
    | .sym n => s.setGust k { g with syms := listSet g.syms n (s.seeSym (g.syms.getD n {}) line) }
    | .slot b =>
      match (g.slot b).wait with
      | some (.reply r) =>
        let t := s.see r line
        t.1.setGust k (g.setSlot b { g.slot b with wait := some (.reply t.2) })
      | _ => s

/-- The home serves every request for a line that was sent before request n. -/
def State.seeBelow (s : State) (n line : Nat) : State := (s.outOn line n).foldl (fun t w => t.seeAt line w.2.1 w.2.2) s

/-- The lines of the own package that a blocking access reads: they have their place at its issue (R154). -/
def State.ownLines (s : State) (r : Reply) : List Nat :=
  match r.serve with
  | none => []
  | some (v, rs) => ((spanLines ((rs.filter fun d => peerOf d.dom == s.self).flatMap (s.readSpans v))).map (· / 128)).dedup

/-- The homes serve what they have not served yet of a blocking access whose replies arrive. -/
def State.seeAll (s : State) (r : Reply) : State × Reply := r.lines.foldl (fun t l => t.1.see t.2 l.2) (s, r)

/-- The lanes of a blocking access whose reply carries poison (R193): of an access at one address, all. -/
def State.poisonLanes (s : State) (r : Reply) : Word :=
  match r.serve with
  | none => 0
  | some (v, rs) =>
    let bad := rs.filter fun d => (s.readSpans v d).any fun x => s.poisoned x.1 x.2
    if bad.isEmpty then 0
    else if r.capQuad.isSome || r.writes.any (·.uniform) then r.done
    else maskOf fun l => bad.any fun d => d.lane == l

/-! ## Packets -/

/-- The line of an entry. -/
def WcEntry.line (e : WcEntry) : Nat := if e.atomic.isSome then e.addr / 128 else e.addr

/-- The words of a triple. -/
def wordsOf (bs : List Byte) : Nat → List Word
  | 0 => []
  | n + 1 => BitVec.ofNat 32 (natOfBytes (bs.take 4)) :: wordsOf (bs.drop 4) n

/-- Bytes stored run by run. -/
def State.storeRuns (s : State) : List (Nat × Nat) → List Byte → State
  | [], _ => s
  | r :: rs, bs => (s.storeBytes r.1 (bs.take r.2)).storeRuns rs (bs.drop r.2)

/-- The lines that a packet writes. -/
def Packet.lines : Packet → List Nat
  | .entry e => [e.line]
  | .triple runs _ => (spanLines runs).map (· / 128)

/-- What a packet writes at its home (R172, R190, R216). -/
def State.writePacket (s : State) (p : Packet) : State :=
  match p with
  | .entry e =>
    match e.atomic with
    | none =>
      e.tags.foldl (fun (t : State) (n : Nat) => t.setMemTag (e.addr * 128 + 16 * n) true)
        (e.bytes.foldl (fun (t : State) (b : Nat × Byte) => t.storeBytes (e.addr * 128 + b.1) [b.2]) s)
    | some (op, size, _) => s.atomicAt op size e.addr e.operand.toNat e.comparand.toNat
  | .triple runs ws =>
    s.storeRuns runs ((ringMerge (wordsOf (runs.flatMap fun r => s.readBytes r.1 r.2) ws.length) ws).flatMap fun w => bytesOf 4 w.toNat)

/-- Packet number n is performed at its home, behind the requests for its lines that were sent before it (R335). -/
def State.performPacket (s : State) (n : Nat) (p : Packet) : State :=
  (p.lines.foldl (fun (t : State) (l : Nat) => t.seeBelow n l) s).writePacket p

/-- A request for lines goes to the hub, which sends or holds it (R336, R344), and has the next number. -/
def State.sendLines (s : State) (ls : List (Nat × Nat)) : State :=
  if ls.isEmpty then s
  else
    let s1 := { s with hub := { s.hub with nextReq := s.hub.nextReq + 1 } }
    if s1.heldLines ls then s1 else s1.countLines ls

/-- A packet goes to the hub: it is sent, and performed, or held (R335, R336, R344). -/
def State.sendRequest (s : State) (r : Request) (p : Packet) : State :=
  let held := s.heldFor r.peer
  let r1 := { r with id := s.hub.nextReq, heldInHub := held, sentAt := s.hub.now.toNat,
                     seq := tabGetD s.hub.sentOn (r.peer * 8 + r.plane) 0, packet := if held then some p else none }
  let s1 := if held then s else s.performPacket s.hub.nextReq p
  let h := { s1.hub with requests := s1.hub.requests ++ [r1], nextReq := s1.hub.nextReq + 1 }
  { s1 with hub := if held then h else h.countPacket r.peer r.plane }

/-- The requests whose writes go to host memory of peers within byte ranges and have not completed, of those that name a
poster that mine selects (R183): their numbers. -/
def State.hostWrites (s : State) (spans : List (Nat × Nat)) (mine : Nat × Nat × Word → Bool) : List Nat :=
  (s.hub.requests.filter fun r => (regionOf (localPa (r.line * 128))).tier? == some 2 && r.posters.any mine
    && spans.any fun x => decide (r.line * 128 < x.1 + x.2) && decide (x.1 < r.line * 128 + 128)).map fun r => r.id

/-- Changes the posted operation id of a gust, or of the front that a retired gust left it to. -/
def State.modPosted (s : State) (k id : Nat) (f : Posted → Posted) : State :=
  match s.gust? k with
  | some g =>
    if g.posted.any fun p => p.id == id then
      s.setGust k { g with posted := g.posted.map fun p => if p.id == id then f p else p }
    else
      { s with fronts := s.fronts.map fun e =>
          (e.1, { e.2 with posted := e.2.posted.map fun p => if p.id == id then f p else p }) }
  | none =>
    { s with fronts := s.fronts.map fun e =>
        (e.1, { e.2 with posted := e.2.posted.map fun p => if p.id == id then f p else p }) }

end Sys2Proof.Machine
end

