-- ==== Sys2Proof/Machine/Access.lean ====
section
/-! DEFINITION. Global memory accesses: effective addresses (spec/06 R151), translation once a page (R163), fault causes and
their priority (R193), allowance (R177), the write-combining buffer (spec/12 R338 to R340), replies, releases and the
performing of loads, stores and atomics. -/

namespace Sys2Proof.Machine

/-! ## Fault causes -/

/-- The kinds of access that Table 7 of spec/06 tells apart. -/
inductive Access where
  | load | raw | ldx | store | atomic | atomicR | capLoad | capStore
  deriving DecidableEq, Repr

/-- Whether an access writes. -/
def Access.writes : Access → Bool
  | .store | .atomic | .atomicR | .capStore => true
  | _ => false

/-- A lane's fault cause with its priority (R193, Table 7). -/
structure LaneFault where
  prio : Nat
  code : Nat
  cause : Nat
  deriving DecidableEq, Repr

/-- The bytes of a tile slot of a page (R293). -/
def slotBytes (x : Xlat) : Nat := if x.outl then 17 * 128 else (1 + x.planes) * 128

/-- Whether an address is the first byte of a tile slot of its page (R162, R293). -/
def slotStart (x : Xlat) (ea : Nat) : Bool :=
  (ea - x.vbase) % slotBytes x == 0 && decide (ea - x.vbase + slotBytes x ≤ pageBytes x.size)

/-- The fault cause of a lane on the page that its address translates to, poison left aside (R193, R298). A plane-tile page in
the migrating state counts as one that translates for FLT.ALIGN 2 and 3 (log 49). -/
def pageFault (k : Access) (x : Xlat) (ea idx : Nat) : Option LaneFault :=
  if k = .ldx ∧ x.fmt = 1 ∧ !(slotStart x ea) then some ⟨1, 0x06, 2⟩
  else if k = .ldx ∧ x.fmt = 1 ∧ 1024 ≤ idx then some ⟨1, 0x06, 3⟩
  else if (k = .capLoad ∨ k = .capStore) ∧ !x.cap then some ⟨2, 0x07, 7⟩
  else if x.mig = 2 ∨ (x.mig = 1 ∧ k.writes) then some ⟨3, 0x08, 3⟩
  else if k.writes ∧ x.tier = 1 then some ⟨4, 0x0A, 1⟩
  else if !k.writes ∧ !x.r then some ⟨5, 0x09, 1⟩
  else if (k = .store ∨ k = .capStore) ∧ !x.w then some ⟨5, 0x09, 2⟩
  else if (k = .atomic ∨ k = .atomicR) ∧ !x.a then some ⟨5, 0x09, 3⟩
  else if k = .load ∧ x.fmt ≠ 0 then some ⟨5, 0x09, 4⟩
  else if k = .ldx ∧ x.fmt = 0 then some ⟨5, 0x09, 5⟩
  else if (k = .atomic ∨ k = .atomicR) ∧ regionOf (localPa (x.domain ea)) = .host then some ⟨5, 0x09, 7⟩
  else none

/-- Whether an access reads poison as a fault (R193: blocking loads and returning atomics). -/
def Access.poisons : Access → Bool
  | .load | .raw | .ldx | .atomicR | .capLoad => true
  | _ => false

/-- The fault cause of a lane (R193, Table 7): ea its address, x? its translation, idx the element index of LDX, spans the
domain byte ranges that it reads; poison of another package comes with the reply (State.poisonLanes). A page that needs a feature which is not accepted raises FLT.ILLEGAL 7 (R393; its place
among the causes is log 57). -/
def laneFault (s : State) (k : Access) (size ea idx : Nat) (x? : Option Xlat) (spans : List (Nat × Nat)) :
    Option LaneFault :=
  if k ≠ .ldx ∧ ea % size ≠ 0 then some ⟨1, 0x06, 1⟩
  else if 2 ^ 56 ≤ ea then some ⟨3, 0x08, 1⟩
  else
    match x? with
    | none => some ⟨3, 0x08, 2⟩
    | some x =>
      if s.lacksFeature x then some ⟨0, 0x01, 7⟩
      else
        match pageFault k x ea idx with
        | some f => some f
        | none => if k.poisons && spans.any (fun r => peerOf r.1 == s.self && s.poisoned r.1 r.2) then some ⟨6, 0x0B, 1⟩ else none

/-- Whether one lane fault goes before another: the higher priority, then the lower cause (R193). -/
def LaneFault.before (a b : LaneFault) : Bool := a.prio < b.prio || (a.prio == b.prio && a.cause < b.cause)

/-- The primary fault among the lanes (R193). -/
def primary : List (Nat × LaneFault) → Option LaneFault
  | [] => none
  | (_, f) :: t =>
    match primary t with
    | none => some f
    | some h => if h.before f then some h else some f

/-- The trap of faulting lanes (R193): xdone is what XDONE becomes. -/
def faultReq (fs : List (Nat × LaneFault)) (ea : Nat → DWord) (xdone : Word) : TrapReq :=
  let p := (primary fs).getD ⟨0, 0, 0⟩
  { code := p.code
    cause := p.cause
    xmask := maskOf fun l => fs.any fun e => e.1 == l && e.2 == p
    xother := maskOf fun l => fs.any fun e => e.1 == l && e.2 != p
    xdone := xdone
    xaddr := some (lanes.map fun l => if fs.any fun e => e.1 == l then ea l else 0) }

/-! ## Translating the pages of an instruction -/

/-- The translation of an address among those found. -/
def Pages.find (p : Pages) (ea : Nat) : Option Xlat := p.found.find? fun x => x.vbase ≤ ea && ea < x.vbase + pageBytes x.size

/-- Translates the pages of a list of addresses, each page once (R163). -/
def State.pagesOf (s : State) (core q asid : Nat) : List Nat → Pages → State × Pages
  | [], p => (s, p)
  | ea :: es, p =>
    if 2 ^ 56 ≤ ea ∨ (p.find ea).isSome ∨ p.absent.contains (ea / 0x10000) then s.pagesOf core q asid es p
    else
      match s.translate core q asid ea with
      | (s1, some x) => s1.pagesOf core q asid es { p with found := x :: p.found }
      | (s1, none) => s1.pagesOf core q asid es { p with absent := (ea / 0x10000) :: p.absent }

/-- Draining an entry (R340): its packet goes to the hub and is performed in send order on its plane (R335); the allowance
unit stays spent until the acknowledgement (R343). The gust operations that waited for it to leave the core go on (R136). -/
def State.sendEntry (s : State) (core : Nat) (e : WcEntry) : State :=
  let d := if e.atomic.isSome then e.addr else e.addr * 128
  (s.sendRequest { id := 0, peer := e.peer, part := e.part, plane := s.planeOf d, line := d / 128, core := core, unit := true,
                   posters := e.posters } (.entry e)).entryLeft core e

/-- Drains the entries of a core that p selects, in allocation order (R339, R340). -/
def State.drainWhere (s : State) (core : Nat) (p : WcEntry → Bool) : State :=
  let c := s.core core
  if c.wcb.any p then
    (c.wcb.filter p).foldl (fun t e => t.sendEntry core e) (s.setCore core { c with wcb := c.wcb.filter fun e => !p e })
  else s

/-- AW_p of a core for an access whose wait has number n (R177, R343): units go first to the slots that blocked before. -/
def State.awFor (s : State) (core p n : Nat) : Nat := if s.headwindBefore core p n then 0 else s.aw core p

/-- Charges the allowance of what is not charged yet, one unit each (R177): the state, what is charged in all, and the peer
whose allowance ran out. -/
def State.chargeLines (s : State) (core n : Nat) :
    List (Nat × Nat) → List (Nat × Nat) → State × List (Nat × Nat) × Option Nat
  | [], done => (s, done, none)
  | ln :: ls, done =>
    if done.contains ln then s.chargeLines core n ls done
    else if 0 < s.awFor core ln.1 n then
      let c := s.core core
      let s1 := s.setCore core { c with aw := tabSet c.aw ln.1 (tabGetD c.aw ln.1 0 - 1) }
      s1.chargeLines core n ls (done ++ [ln])
    else (s, done, some ln.1)

/-- What a group that waited has found and done (R163, R177, R181). -/
def Ctx.heldPages (c : Ctx) : Pages := if c.prev.isSome then ((c.g.slot c.b).pages).getD {} else {}

/-- A slot of the issuing gust notes what its waiting group has found or done. -/
def State.note (s : State) (b : Bool) (f : Pages → Pages) : State :=
  match s.gust? s.cur with
  | some g => s.putGust (g.setSlot b { g.slot b with pages := some (f ((g.slot b).pages.getD {})) })
  | none => s

/-- The place of a group among the slots that wait in headwind: its own wait's, or behind them all. -/
def Ctx.waitNo (c : Ctx) (s : State) : Nat :=
  match c.prev with
  | some (.headwind _) => (c.g.slot c.b).waitNo
  | _ => s.nextWait

/-! ## Release and acquire -/

/-- The entries of the core's buffer that a release or fence at a scope covers, drained (R178, R340): their targets are other
packages, which the domain scope alone contains. -/
def State.drainScope (s : State) (scope : Nat) : State :=
  if scopeRemote scope then s.drainWhere (coreOf s.cur) fun _ => true else s

/-- FENCE.rel at a scope (R180): the remote lines that it covers drain, unless they have; the state, the requests whose
acknowledgements it awaits (R340), and whether the gust's earlier accesses have been performed and the requests
acknowledged. -/
def State.fenceRel (s : State) (c : Ctx) (scope : Nat) (drained : Option (List Nat)) : State × List Nat × Bool :=
  let s1 := if drained.isSome then s else s.drainScope scope
  let ids := drained.getD ((s1.hub.requests.drop s.hub.requests.length).map fun r => r.id)
  (s1, ids, s1.accessesDone s1.cur ((s1.gust? s1.cur).getD c.g) scope && s1.acked ids)

/-- The release of a group that goes on to an access of its own (R181), which waits first, and is done once. -/
def State.release (s : State) (c : Ctx) (scope : Nat) : State × Option Wait :=
  if c.heldPages.released then (s, none)
  else
    match s.fenceRel c scope c.heldPages.drained with
    | (s1, _, true) => (s1.note c.b fun q => { q with released := true }, none)
    | (s1, ids, false) => (s1.note c.b fun q => { q with drained := some ids }, some (.fence scope ids))

/-! ## Loads -/

/-- The lanes that a memory instruction runs (R22, R149, R193): those of Active(), outside XDONE in a replay. -/
def Ctx.runMask (c : Ctx) : Word := match c.g.replayOf c.b with | some d => c.wm &&& ~~~d | none => c.wm

/-- XDONE when lanes have been performed and others fault (R193). -/
def Ctx.doneMask (c : Ctx) (performed : Word) : Word := match c.g.replayOf c.b with | some d => d ||| performed | none => performed

/-- Writes the registers that a reply brings (R157, R158), in the window of its issue. -/
def Gust.writeReply (g : Gust) (r : Reply) : Gust :=
  let g1 := r.writes.foldl (fun t w => t.write1 w.mask w.field (if w.uniform then .u (laneGet w.vals 0) else t.mkG (laneGet w.vals))) g
  match r.capQuad with
  | some (n, t) => g1.setCapTag n t
  | none => g1

/-- The writes of a reply as register writes under its mask, for the budget (R25). -/
def Reply.asWrites (r : Reply) (g : Gust) : List (Nat × Val) :=
  r.writes.map fun w => (w.field, if w.uniform then Val.u (laneGet w.vals 0) else g.mkG (laneGet w.vals))

/-- Whether a reply's writes would raise GCNT above GBUD (R25). -/
def Reply.overBudget (r : Reply) (g : Gust) : Bool :=
  match r.writes with
  | [] => false
  | w :: _ => (g.seenBy r.window).overBudget w.mask (r.asWrites g)

/-- The symbol of a drift record in a register that a reply writes (R24): its arrival comes first. -/
def Reply.drift (r : Reply) (g : Gust) : Option Nat := r.writes.findSome? fun w => ((g.seenBy r.window).reg w.field).sym?

/-- A gust with a reply's registers and flags written (R153, R162): they are those that its group named (R15, R145). -/
def Gust.takeReply (g : Gust) (r : Reply) (pc : BitVec 56) : Gust :=
  g.through r.window fun h =>
    (h.writeReply r).setFlags r.nv (fun _ => flNV) pc (match r.writes with | w :: _ => h.destCode w.field | [] => 0x3FF)

/-- The translations that a group of a slot holds while it waits (R163, R296). -/
def State.holdPages (s : State) (b : Bool) (p : Pages) : State :=
  s.note b fun q => { q with found := p.found, absent := p.absent }

/-- The outcome of an access past its checks: when it waits, its slot holds the translations that it has found. -/
def holding {α : Type} (c : Ctx) (p : Pages) (r : Except Stop α) : Except Stop α :=
  match r with
  | .error (.wait s w) => .error (.wait (s.holdPages c.b p) w)
  | .error (.late s t rep) => .error (.late (s.holdPages c.b p) t rep)
  | r => r

/-- The lines that a waiting group has been charged for (R177); none any more once it has been charged for all. -/
def State.noteCharged (s : State) (c : Ctx) (ls : List (Nat × Nat)) : State :=
  if ls = c.heldPages.charged then s else s.note c.b fun q => { q with charged := ls }

/-- What a blocking access needs of the fabric before it is sent (R177, R339, R341): reply slots, allowance, and the drain
of the buffered entries of its lines; or the wait. -/
def prepare (c : Ctx) (s : State) (ds : List Nat) : Except Stop (State × List (Nat × Nat)) :=
  let core := coreOf s.cur
  let ls := s.remoteLines ds
  let n := slotsFor ls.length
  if ls.isEmpty then .ok (s, [])
  else if 256 < s.replySlots core + n then .error (.wait s (.replySlot n))
  else
    match s.chargeLines core (c.waitNo s) ls c.heldPages.charged with
    | (s1, done, some p) => .error (.wait (s1.noteCharged c done) (.headwind p))
    | (s1, _, none) => .ok ((s1.noteCharged c []).drainWhere core fun e => ls.any fun l => l.2 == e.line, ls)

/-! ## Posted accesses -/

/-- The posters of an entry with one more lane of an instruction (R176). -/
def addPoster (ps : List (Nat × Nat × Word)) (p : Nat × Nat × Word) : List (Nat × Nat × Word) :=
  if ps.any fun q => q.1 == p.1 && q.2.1 == p.2.1 then
    ps.map fun q => if q.1 == p.1 && q.2.1 == p.2.1 then (q.1, q.2.1, q.2.2 ||| p.2.2) else q
  else ps ++ [p]

/-- Whether a posted access of another peer's location goes through the buffer (R338): not one of its host memory or host
window. -/
def buffered (d : Nat) : Bool := (regionOf (localPa d)).tier? != some 2

/-- One lane of a store in the write-combining buffer (R339): merges into the entry of its line, or allocates one; an entry
of the other kind for the line drains first; the oldest drains when all 64 are in use. tag says whether the bytes are a
capability whose tag is set (R190). -/
def State.wcStore (s : State) (core part d : Nat) (bs : List Byte) (tag : Bool) (poster : Nat × Nat × Word) : State :=
  let line := d / 128
  let s1 := s.drainWhere core fun e => e.atomic.isSome && e.line == line
  let c := s1.core core
  let joined := fun (e : WcEntry) =>
    { e with bytes := (List.range bs.length).foldl (fun t i => tabSet t (d % 128 + i) (bs.getD i 0)) e.bytes,
             tags := (e.tags.filter (· != d % 128 / 16)) ++ (if tag then [d % 128 / 16] else []),
             posters := addPoster e.posters poster }
  let s2 :=
    if c.wcb.any fun e => e.atomic.isNone && e.addr == line then
      s1.setCore core { c with wcb := c.wcb.map fun e => if e.atomic.isNone && e.addr == line then joined e else e }
    else
      let s3 := if 64 ≤ c.wcb.length then
          match c.wcb with
          | e :: t => (s1.setCore core { c with wcb := t }).sendEntry core e
          | [] => s1
        else s1
      let c3 := s3.core core
      s3.setCore core { c3 with wcb := c3.wcb ++
        [joined { peer := peerOf d, addr := line, atomic := none, time := s.hub.now.toNat, part := part }] }
  s2.drainWhere core fun e => e.atomic.isNone && e.addr == line && decide (e.bytes.length = 128)

/-- One lane of a posted atomic in the write-combining buffer (R339): a commutative one merges into an entry of the same
word, operation and size. -/
def State.wcAtomic (s : State) (core part d op size : Nat) (b cmp : DWord) (comm : Bool) (poster : Nat × Nat × Word) : State :=
  let s1 := s.drainWhere core fun e => e.atomic.isNone && e.line == d / 128
  let c := s1.core core
  let alike : WcEntry → Bool := fun e => e.addr == d && e.atomic == some (op, size, true)
  if comm && c.wcb.any alike then
    let joined := fun (e : WcEntry) =>
      { e with operand := BitVec.ofNat 64 (atomicNew op size e.operand.toNat b.toNat 0), posters := addPoster e.posters poster }
    s1.setCore core { c with wcb := c.wcb.map fun e => if alike e then joined e else e }
  else
    let s3 := if 64 ≤ c.wcb.length then
        match c.wcb with
        | e :: t => (s1.setCore core { c with wcb := t }).sendEntry core e
        | [] => s1
      else s1
    let c3 := s3.core core
    s3.setCore core { c3 with wcb := c3.wcb ++
      [{ peer := peerOf d, addr := d, atomic := some (op, size, comm), operand := b, comparand := cmp,
         time := s.hub.now.toNat, part := part, posters := [poster] }] }

/-- A posted access of another peer's host memory or host window, sent at once (R338). -/
def State.sendPosted (s : State) (core part d : Nat) (bs : List Byte) (atomic : Option (Nat × Nat × Bool)) (tag : Bool)
    (b cmp : DWord) (poster : Nat × Nat × Word) : State :=
  s.sendEntry core
    { peer := peerOf d, addr := if atomic.isSome then d else d / 128, atomic := atomic,
      bytes := (List.range bs.length).map fun i => (d % 128 + i, bs.getD i 0), tags := if tag then [d % 128 / 16] else [],
      operand := b, comparand := cmp, time := s.hub.now.toNat, part := part, posters := [poster] }

/-- What a lane of a posted access charges, as (peer, name) (R177): one unit for the entry that it allocates, none where it
merges. Lanes that share an entry give one name: its line, or its word for a commutative atomic. -/
def State.chargeOf (s : State) (core : Nat) (kind : Option (Nat × Nat × Bool)) (l d : Nat) : Option (Nat × Nat) :=
  let wcb := (s.core core).wcb
  let own := (peerOf d, 2 ^ 61 + l * 2 ^ 52 + d)
  if peerOf d = s.self then none
  else if !buffered d then some own
  else
    match kind with
    | none => if wcb.any fun e => e.atomic.isNone && e.addr == d / 128 then none else some (peerOf d, d / 128)
    | some (op, size, comm) =>
      if !comm then some own
      else if wcb.any fun e => e.addr == d && e.atomic == some (op, size, true) then none
      else some (peerOf d, 2 ^ 60 + d)

/-- What the lanes of a posted access charge, each entry once (R177). -/
def State.charges (s : State) (core : Nat) (kind : Option (Nat × Nat × Bool)) (ls : List (Nat × Nat)) : List (Nat × Nat) :=
  (ls.filterMap fun e => s.chargeOf core kind e.1 e.2).dedup

/-- The record of a posted operation with data on a poisoned line, which names the lanes that it had there, and the end of
its front (R176, 13 Table 7). -/
def State.poisonRecord (s : State) (k : Nat) (g : Gust) (code line : Nat) (lanesHit : Word) : State :=
  let fr := s.frontOf g
  (s.endFront g.front).record
    { cls := 0x06, code := code, action := 3, part := fr.part, unit := 0, die := dieOf (coreOf k), num := coreOf k,
      asid := fr.asid, gust := some g.gustId, front := fr.frontId.toNat, akind := 3, addr := line * 128,
      detail := List.replicate 4 0 ++ bytesOf 4 lanesHit.toNat, user := fr.user.toNat }

/-- Lists a posted operation of the issuing gust as outstanding (R35, R176), when it is tracked or waits for remote lines. -/
def State.addPosted (s : State) (g : Gust) (tr : Nat) (pc : BitVec 56) (ls : List (Nat × Nat × Word)) : State :=
  if tr = 0 ∧ ls.isEmpty then s
  else
    let h := (s.gust? s.cur).getD g
    { s.putGust { h with posted := h.posted ++ [{ id := s.nextPosted, counter := if tr = 0 then none else some (tr - 1),
                                                   pc := pc, lines := ls }] } with nextPosted := s.nextPosted + 1 }

end Sys2Proof.Machine
end

