-- ==== Sys2Proof/Machine/Float.lean ====
section
/-! DEFINITION. The floating-point, transcendental and conversion instructions (spec/04 R105 to R111, spec/02). -/

namespace Sys2Proof.Machine

/-- The tag of a floating-point result: U when all inputs are U, else G (R23). -/
def fpResult (g : Gust) (ins : List Val) (f : Nat → Word) : Val := if ins.all Val.isU then .u (f 0) else g.mkG f

/-- A floating-point instruction of one source (R93, R105). -/
def fp1 (f : RForm) (op : Rm → Word → Word × Fl) : Body := undrifted fun c s =>
  let a := c.src f.sa
  putResult c s f.d (fpResult c.g [a] fun l => (op c.rm (a.lane l)).1) fun l => (op c.rm (a.lane l)).2

/-- A floating-point instruction of two sources (R93, R105). -/
def fp2 (f : RForm) (op : Rm → Word → Word → Word × Fl) : Body := undrifted fun c s =>
  let a := c.src f.sa
  let b := c.src f.sb
  putResult c s f.d (fpResult c.g [a, b] fun l => (op c.rm (a.lane l) (b.lane l)).1)
    fun l => (op c.rm (a.lane l) (b.lane l)).2

/-- A floating-point instruction that reads D as its third source (R93, R105). -/
def fp3 (f : RForm) (op : Rm → Word → Word → Word → Word × Fl) : Body := undrifted fun c s =>
  let a := c.src f.sa
  let b := c.src f.sb
  let d := c.g.reg f.d.toNat
  putResult c s f.d (fpResult c.g [a, b, d] fun l => (op c.rm (a.lane l) (b.lane l) (d.lane l)).1)
    fun l => (op c.rm (a.lane l) (b.lane l) (d.lane l)).2

/-- A body that may transform a D operand in SA under the drift permit, in RNE (R29, R105). -/
def fpDrift (p : Pfx) (f : RForm) (t : Word × Word → Word → Word × Word) (plain : Body) : Body :=
  transform2 f [0, 2] (p.eff.aux.getLsbD 0 && p.eff.rnd == 0) (some t) none 2 0x3F800000 plain

/-- FADD (R105, R29). -/
def execFadd (p : Pfx) (f : RForm) (s : State) : Outcome :=
  runGroup (.fadd p f) s (fpDrift p f (fun k x => (k.1, addNE k.2 x)) (fp2 f fpAdd))
/-- FSUB (R105, R29). -/
def execFsub (p : Pfx) (f : RForm) (s : State) : Outcome :=
  runGroup (.fsub p f) s (fpDrift p f (fun k x => (k.1, subNE k.2 x)) (fp2 f fpSub))
/-- FMUL (R105, R29). -/
def execFmul (p : Pfx) (f : RForm) (s : State) : Outcome :=
  runGroup (.fmul p f) s (fpDrift p f (fun k x => (mulNE k.1 x, mulNE k.2 x)) (fp2 f fpMul))
/-- FFMA (R105). -/
def execFfma (p : Pfx) (f : RForm) (s : State) : Outcome := runGroup (.ffma p f) s (fp3 f fpFma)
/-- FMIN (R106). -/
def execFmin (p : Pfx) (f : RForm) (s : State) : Outcome := runGroup (.fmin p f) s (fp2 f fun _ => fpMinMax false)
/-- FMAX (R106). -/
def execFmax (p : Pfx) (f : RForm) (s : State) : Outcome := runGroup (.fmax p f) s (fp2 f fun _ => fpMinMax true)
/-- FABS (R105). -/
def execFabs (p : Pfx) (f : RForm) (s : State) : Outcome := runGroup (.fabs p f) s (fp1 f fun _ a => (fpAbs a, {}))
/-- FNEG (R105). -/
def execFneg (p : Pfx) (f : RForm) (s : State) : Outcome := runGroup (.fneg p f) s (fp1 f fun _ a => (fpNeg a, {}))
/-- FCLASS (R107). -/
def execFclass (p : Pfx) (f : RForm) (s : State) : Outcome := runGroup (.fclass p f) s (fp1 f fun _ a => (fpClass a, {}))
/-- FRND (R105). -/
def execFrnd (p : Pfx) (f : RForm) (s : State) : Outcome := runGroup (.frnd p f) s (fp1 f fpRnd)
/-- FSCALE (R105). -/
def execFscale (p : Pfx) (f : RForm) (s : State) : Outcome := runGroup (.fscale p f) s (fp2 f fpScale)

/-- FCMP (R108, R99). -/
def fcmpBody (n : Nat) (f : RForm) : Body := undrifted fun c s =>
  putMask c s f.d (fun l => (fpCond n (c.rd f.sa l) (c.rd f.sb l)).1) fun l => (fpCond n (c.rd f.sa l) (c.rd f.sb l)).2
/-- FCMP (R108). -/
def execFcmp (p : Pfx) (n : BitVec 4) (f : RForm) (s : State) : Outcome := runGroup (.fcmp p n f) s (fcmpBody n.toNat f)

/-! ## Transcendentals (R109) -/

/-- FRCP (R109, R49). -/
def execFrcp (p : Pfx) (f : RForm) (s : State) : Outcome := runGroup (.frcp p f) s (fp1 f fpRcp)
/-- FRSQ (R109, R49). -/
def execFrsq (p : Pfx) (f : RForm) (s : State) : Outcome := runGroup (.frsq p f) s (fp1 f fpRsq)
/-- FSQRT (R109, R49). -/
def execFsqrt (p : Pfx) (f : RForm) (s : State) : Outcome := runGroup (.fsqrt p f) s (fp1 f fpSqrt)
/-- FEXP2 (R109, R49). -/
def execFexp2 (p : Pfx) (f : RForm) (s : State) : Outcome := runGroup (.fexp2 p f) s (fp1 f fpExp2)
/-- FLOG2 (R109, R49). -/
def execFlog2 (p : Pfx) (f : RForm) (s : State) : Outcome := runGroup (.flog2 p f) s (fp1 f fpLog2)
/-- FTANH (R109, R49). -/
def execFtanh (p : Pfx) (f : RForm) (s : State) : Outcome := runGroup (.ftanh p f) s (fp1 f fpTanh)
/-- FSIGM (R109, R49). -/
def execFsigm (p : Pfx) (f : RForm) (s : State) : Outcome := runGroup (.fsigm p f) s (fp1 f fpSigm)

/-! ## Conversions (R110, R111) -/

/-- CVTFI (R54). -/
def execCvtfi (p : Pfx) (f : RForm) (s : State) : Outcome := runGroup (.cvtfi p f) s (fp1 f fun rm a => cvtFI rm false a)
/-- CVTFI.n (R54). -/
def execCvtfiN (p : Pfx) (f : RForm) (s : State) : Outcome := runGroup (.cvtfiN p f) s (fp1 f fun rm a => cvtFI rm true a)
/-- CVTIF (R54). -/
def execCvtif (p : Pfx) (f : RForm) (s : State) : Outcome := runGroup (.cvtif p f) s (fp1 f fun rm a => cvtIF rm false a)
/-- CVTIF.n (R54). -/
def execCvtifN (p : Pfx) (f : RForm) (s : State) : Outcome := runGroup (.cvtifN p f) s (fp1 f fun rm a => cvtIF rm true a)
/-- CVTBF (R51). -/
def execCvtbf (p : Pfx) (f : RForm) (s : State) : Outcome := runGroup (.cvtbf p f) s (fp1 f fun _ a => (cvtBF a, {}))
/-- CVTFB (R51). -/
def execCvtfb (p : Pfx) (f : RForm) (s : State) : Outcome := runGroup (.cvtfb p f) s (fp1 f fun _ a => cvtFB a)
/-- CVTE4 (R53). -/
def execCvte4 (p : Pfx) (f : RForm) (s : State) : Outcome := runGroup (.cvte4 p f) s (fp1 f fun _ a => cvtE4 a)
/-- CVTE4F (R53). -/
def execCvte4f (p : Pfx) (f : RForm) (s : State) : Outcome := runGroup (.cvte4f p f) s (fp1 f fun _ a => (cvtE4F a, {}))
/-- CVTI4 (R111). -/
def execCvti4 (p : Pfx) (f : RForm) (s : State) : Outcome := runGroup (.cvti4 p f) s (fp2 f fun _ a b => cvtI4 a b)

end Sys2Proof.Machine
end

