-- ==== Sys2Proof/Machine/Lane.lean ====
section
/-! DEFINITION. Lane exchange, reductions, tag control, quantisation, rotation and random numbers (spec/04 R112 to R119). -/

namespace Sys2Proof.Machine

/-! ## Lane exchange (R113) -/

/-- SHFL (R113): src l d is the lane that lane l takes, if it is one. -/
def shfl (f : RForm) (src : Nat → Nat → Option Nat) : Body := undrifted fun c s =>
  let get := fun l =>
    match src l ((c.rd f.sb l).toNat % 32) with
    | some j => if j < 32 && inMask c.wm j then c.rd f.sa j else c.rd f.sa l
    | none => c.rd f.sa l
  putResult c s f.d (c.g.mkG get)

/-- SHFL.idx (R113). -/
def execShflIdx (p : Pfx) (f : RForm) (s : State) : Outcome := runGroup (.shflIdx p f) s (shfl f fun _ d => some d)
/-- SHFL.up (R113). -/
def execShflUp (p : Pfx) (f : RForm) (s : State) : Outcome :=
  runGroup (.shflUp p f) s (shfl f fun l d => if d ≤ l then some (l - d) else none)
/-- SHFL.down (R113). -/
def execShflDown (p : Pfx) (f : RForm) (s : State) : Outcome := runGroup (.shflDown p f) s (shfl f fun l d => some (l + d))
/-- SHFL.xor (R113). -/
def execShflXor (p : Pfx) (f : RForm) (s : State) : Outcome := runGroup (.shflXor p f) s (shfl f fun l d => some (l ^^^ d))

/-! ## Reductions and scans (R114) -/

/-- A reduction (R114): the tree of R62 over the lanes of the write mask, the identity elsewhere. -/
def reduce (f : RForm) (ident : Word) (op : Word → Word → Word × Fl) : Body := undrifted fun c s =>
  let leaf := fun l => (if inMask c.wm l then c.rd f.sa l else ident, ({} : Fl))
  let r := tree32 (fun (a b : Word × Fl) => let x := op a.1 b.1; (x.1, (a.2.or b.2).or x.2)) (ident, {}) (lanes.map leaf)
  let v := if (c.src f.sa).isU then Val.u r.1 else c.g.mkG fun _ => r.1
  putResult c s f.d v fun _ => r.2

/-- An integer operation raises no flag. -/
def noFlags (op : Word → Word → Word) (a b : Word) : Word × Fl := (op a b, {})

/-- RADD (R114). -/
def execRadd (p : Pfx) (f : RForm) (s : State) : Outcome := runGroup (.radd p f) s (reduce f 0 (noFlags fun a b => a + b))
/-- RADD.f (R114). -/
def execRaddF (p : Pfx) (f : RForm) (s : State) : Outcome := runGroup (.raddF p f) s (reduce f 0x80000000 (fpAdd .rne))
/-- RMAX (R114). -/
def execRmax (p : Pfx) (f : RForm) (s : State) : Outcome := runGroup (.rmax p f) s (reduce f 0x80000000 (noFlags sMax))
/-- RMAX.n (R114). -/
def execRmaxN (p : Pfx) (f : RForm) (s : State) : Outcome := runGroup (.rmaxN p f) s (reduce f 0 (noFlags uMax))
/-- RMAX.f (R114). -/
def execRmaxF (p : Pfx) (f : RForm) (s : State) : Outcome := runGroup (.rmaxF p f) s (reduce f 0xFF800000 (fpMinMax true))
/-- RMIN (R114). -/
def execRmin (p : Pfx) (f : RForm) (s : State) : Outcome := runGroup (.rmin p f) s (reduce f 0x7FFFFFFF (noFlags sMin))
/-- RMIN.n (R114). -/
def execRminN (p : Pfx) (f : RForm) (s : State) : Outcome := runGroup (.rminN p f) s (reduce f 0xFFFFFFFF (noFlags uMin))
/-- RMIN.f (R114). -/
def execRminF (p : Pfx) (f : RForm) (s : State) : Outcome := runGroup (.rminF p f) s (reduce f 0x7F800000 (fpMinMax false))

/-- One step of a scan with distance d (R62). -/
def scanStep (op : Word → Word → Word × Fl) (xs : List (Word × Fl)) (d : Nat) : List (Word × Fl) :=
  lanes.map fun l =>
    let y := xs.getD l (0, {})
    if d ≤ l then
      let x := xs.getD (l - d) (0, {})
      let r := op x.1 y.1
      (r.1, (x.2.or y.2).or r.2)
    else y

/-- An inclusive scan (R62, R114). -/
def scan (c : Ctx) (f : RForm) (ident : Word) (op : Word → Word → Word × Fl) : List (Word × Fl) :=
  [1, 2, 4, 8, 16].foldl (scanStep op) (lanes.map fun l => (if inMask c.wm l then c.rd f.sa l else ident, {}))

/-- SCANA (R114): a full write of a U operand v gives L with base v and stride v (R23). -/
def scanaBody (f : RForm) : Body := undrifted fun c s =>
  let xs := scan c f 0 (noFlags fun a b => a + b)
  let v := match c.src f.sa with
    | .u x => if c.wm = c.g.lmask then Val.l x x else c.g.mkG fun l => (xs.getD l (0, {})).1
    | _ => c.g.mkG fun l => (xs.getD l (0, {})).1
  putResult c s f.d v
/-- SCANA (R114). -/
def execScana (p : Pfx) (f : RForm) (s : State) : Outcome := runGroup (.scana p f) s (scanaBody f)
/-- SCANA.f (R114). -/
def scanaFBody (f : RForm) : Body := undrifted fun c s =>
  let xs := scan c f 0x80000000 (fpAdd .rne)
  putResult c s f.d (c.g.mkG fun l => (xs.getD l (0, {})).1) fun l => (xs.getD l (0, {})).2
/-- SCANA.f (R114). -/
def execScanaF (p : Pfx) (f : RForm) (s : State) : Outcome := runGroup (.scanaF p f) s (scanaFBody f)

/-! ## Tag control (R115) -/

/-- BCAST (R115). -/
def execBcast (p : Pfx) (f : RForm) (s : State) : Outcome :=
  runGroup (.bcast p f) s (undrifted fun c s => putResult c s f.d (.u (c.rd f.sa c.low)))
/-- MKL (R115). -/
def execMkl (p : Pfx) (f : RForm) (s : State) : Outcome :=
  runGroup (.mkl p f) s (undrifted fun c s => putResult c s f.d (.l (c.rd f.sa c.low) (c.rd f.sb c.low)))
/-- MKG (R115). -/
def execMkg (p : Pfx) (f : RForm) (s : State) : Outcome :=
  runGroup (.mkg p f) s (undrifted fun c s => putResult c s f.d (c.g.mkG fun l => c.rd f.sa l))
/-- TAG (R115): it never waits for its source; its destination follows Wr. -/
def tagBody (f : RForm) : Body := fun c s =>
  match (c.g.reg f.d.toNat).sym? with
  | some y => .error (.wait s (.drift y))
  | none => putResult c s f.d (.u (BitVec.ofNat 32 (c.src f.sa).tag))
/-- TAG (R115). -/
def execTag (p : Pfx) (f : RForm) (s : State) : Outcome := runGroup (.tag p f) s (tagBody f)

/-! ## Quantisation, rotation, random numbers -/

/-- QPLANE (R116). -/
def qplaneBody (f : RForm) : Body := undrifted fun c s =>
  let sc := c.rd f.sb c.low
  let q := fun l =>
    let x := c.rd f.sa l
    if !(inMask c.wm l) then ((0 : Int), ({} : Fl))
    else if badScale sc || isNaN x then (0, flNV)
    else let r := quantInt (-128) 127 x sc; (r.1, { nx := r.2 })
  let plane := fun p => maskOf fun l => (BitVec.ofInt 8 (q l).1).getLsbD (7 - p)
  putResult c s f.d (c.g.mkG fun p => if p < 8 then plane p else 0) fun l => (q l).2
/-- QPLANE (R116). -/
def execQplane (p : Pfx) (f : RForm) (s : State) : Outcome := runGroup (.qplane p f) s (qplaneBody f)

/-- HADX (R117). -/
def hadxBody (f : RForm) : Body := undrifted fun c s =>
  let g := hadRegs f.sb.toNat
  let xs := ((List.range g).map fun j => lanes.map fun l => c.g.lane (c.g.reg (f.sa.toNat + j)) l).flatten
  let ys := hadamardFl xs
  let at' := fun j l => ys.getD (32 * j + l) (0, {})
  let ws := (List.range g).map fun j => (f.d.toNat + j, c.g.mkG fun l => (at' j l).1)
  match wrAll c s ws with
  | .error e => .error e
  | .ok (s1, l1) =>
    let g1 := (c.g.writeAll c.wm ws).setFlags c.wm
      (fun l => (List.range g).foldl (fun a j => a.or (at' j l).2) {}) c.pc (c.g.destCode f.d.toNat)
    .ok { s := s1.putGust g1, l1 := l1 }
/-- HADX (R117). -/
def execHadx (p : Pfx) (f : RForm) (s : State) : Outcome := runGroup (.hadx p f) s (hadxBody f)

/-- DQX (R118). A header of tag 0b10 with k outside 2 to 8, to which the first two cases of the rule both apply, gives +0 and no
NV (DESIGN CHOICE, log 73). -/
def dqxBody (f : RForm) : Body := undrifted fun c s =>
  let ctl := (c.rd f.sb c.low).toNat
  let h := bitsOf ctl 15 0
  let k := bitsOf ctl 19 16
  let v := fun l =>
    match headerOf h with
    | .zero => ((0 : Word), false)
    | .reserved | .outlier => (canonNaN, true)
    | .nested e m =>
      if k < 2 ∨ 8 < k then (canonNaN, true)
      else (scaled e m (decodePlanes ((List.range k).map fun p => (c.rd f.sa p).getLsbD l)), false)
  putResult c s f.d (c.g.mkG fun l => (v l).1) fun l => { nv := (v l).2 }
/-- DQX (R118). -/
def execDqx (p : Pfx) (f : RForm) (s : State) : Outcome := runGroup (.dqx p f) s (dqxBody f)

/-- RAND (R119). -/
def execRand (p : Pfx) (f : RForm) (s : State) : Outcome :=
  runGroup (.rand p f) s (undrifted fun c s =>
    putResult c s f.d (c.g.mkG fun l => randFp (c.rd64 f.sa l) (c.rd64 f.sb l * 32 + BitVec.ofNat 64 l)))

end Sys2Proof.Machine
end

