-- ==== Sys2Proof/Machine/Memory.lean ====
section
/-! DEFINITION. Global loads and stores, plane-tile loads, drift loads, and global atomics (spec/06 R156 to R176). -/

namespace Sys2Proof.Machine

/-! ## Addresses -/

/-- The SCOPE of a group (R155). -/
def Ctx.scope (c : Ctx) : Nat := c.i.view.p.eff.scope.toNat
/-- The tracking field AUX[3:1] of a group (R82). -/
def Ctx.track (c : Ctx) : Nat := (c.i.view.p.eff.aux.extractLsb' 1 3).toNat

/-- What the checks of an access find (R153, R163, R193): the translations, and the faulting lanes. -/
structure Checked where
  s : State
  pages : Pages
  faults : List (Nat × LaneFault)
  deriving DecidableEq, Repr

/-- The domain address of a lane's EA. -/
def Checked.dom (k : Checked) (ea : DWord) : Nat :=
  match k.pages.find ea.toNat with
  | some x => x.domain ea.toNat
  | none => 0


/-- Translates and checks the lanes of an access (R153, R193). -/
def checkLanes (c : Ctx) (s : State) (a : Access) (size : Nat) (ls : List Nat) (ea : Nat → DWord) (idx : Nat → Nat)
    (spans : Xlat → Nat → List (Nat × Nat)) : Checked :=
  let fr := s.frontOf c.g
  let r := s.pagesOf (coreOf s.cur) fr.part fr.asid (ls.map fun l => (ea l).toNat) c.heldPages
  let faults := ls.filterMap fun l =>
    let x? := r.2.find (ea l).toNat
    match laneFault r.1 a size (ea l).toNat (idx l) x? (match x? with | some x => spans x l | none => []) with
    | some f => some (l, f)
    | none => none
  { s := r.1, pages := r.2, faults := faults }

/-- The byte range that a plain access of a lane reads. -/
def plainSpan (size : Nat) (ea : Nat → DWord) (x : Xlat) (l : Nat) : List (Nat × Nat) := [(x.domain (ea l).toNat, size)]

/-- The lanes of a list that have no fault. -/
def okLanes (ls : List Nat) (fs : List (Nat × LaneFault)) : List Nat := ls.filter fun l => !(fs.any fun e => e.1 == l)

/-- A fault that performs no lane and names every lane with one address (R158, R191). -/
def wholeFault (c : Ctx) (s : State) (m : Word) (f : LaneFault) (ea : DWord) : Stop :=
  .fault s { code := f.code, cause := f.cause, xmask := m, xdone := c.doneMask 0,
             xaddr := some (lanes.map fun l => if inMask m l then ea else 0) }

/-- The requests of a blocking access go to the hub, and the lanes on the own package have their place (R154): the state, and
the reply that the slot waits for. -/
def State.sendReply (s : State) (r : Reply) : State × Reply :=
  let r1 := { r with sentAt := s.hub.now.toNat, held := s.heldLines r.lines, num := s.hub.nextReq }
  (s.ownLines r).foldl (fun t l => t.1.see t.2 l) (s.sendLines r.lines, r1)

/-- An acquire that has taken effect drains the lines that its scope covers, as FENCE.acq does (R178, R181). -/
def State.drainAcq (s : State) (core : Nat) (drains : Bool) : State := if drains then s.drainWhere core fun _ => true else s

/-- The completion of an access whose lanes have no fault (R153): at once when it touched the own package alone; otherwise
the slot waits for its replies. The flags NV of LDX are set with the result (R162). -/
def complete (c : Ctx) (s : State) (r : Reply) : Except Stop Done :=
  if r.lines.isEmpty then
    let t := s.serveReply r
    .ok { s := (t.1.putGust (((t.1.gust? s.cur).getD c.g).takeReply t.2 c.pc)).drainAcq (coreOf s.cur) t.2.drains, move := .yield }
  else
    let t := s.sendReply r
    .error (.wait t.1 (.reply t.2))

/-- Faulting lanes beside performed ones (R153, R193, R360): the performed lanes' results are written, then the fault; with
replies out, the entry is pending and the slot waits for them (R366). -/
def faultWith (c : Ctx) (s : State) (r : Reply) (fs : List (Nat × LaneFault)) (ea : Nat → DWord) : Stop :=
  if r.lines.isEmpty then
    let t := s.serveReply r
    .fault (t.1.putGust (((t.1.gust? s.cur).getD c.g).takeReply t.2 c.pc)) (faultReq fs ea (c.doneMask r.done))
  else
    let t := s.sendReply r
    .late t.1 (faultReq fs ea (c.doneMask 0)) t.2

/-! ## Blocking loads -/

/-- The register writes of an access that brings n words a lane, before they have values. -/
def blankWrites (d : BitVec 7) (n : Nat) (m : Word) (uniform : Bool) : List RegWrite :=
  (List.range n).map fun j => { field := d.toNat + j, mask := m, vals := [], uniform := uniform }

/-- The reads of lanes whose addresses translate. -/
def Checked.reads (k : Checked) (ls : List Nat) (ea : Nat → DWord) (idx : Nat → Nat) : List LaneRead :=
  ls.filterMap fun l => (k.pages.find (ea l).toNat).map fun x =>
    { lane := l, x := x, dom := x.domain (ea l).toNat, idx := idx l }

/-- A vector load (R157, R161): the lanes with no fault are performed and written, the others fault (R193, R360). v says how
a lane's words come about, spans the bytes that it reads; acq says that it is an acquire. -/
def vectorLoad (c : Ctx) (s : State) (a : Access) (size : Nat) (d : BitVec 7) (n : Nat) (ea : Nat → DWord) (idx : Nat → Nat)
    (spans : State → Xlat → Nat → List (Nat × Nat)) (v : Serve) (acq : Bool) : Except Stop Done :=
  let ls := lanesOf c.runMask
  let k := checkLanes c s a size ls ea idx (spans s)
  let ok := okLanes ls k.faults
  let ds := ok.flatMap fun l => match k.pages.find (ea l).toNat with
    | some x => (spans k.s x l).map fun r => r.1
    | none => []
  let okMask := maskOf fun l => ok.contains l
  let r : Reply :=
    { window := c.g.window, writes := blankWrites d n okMask false, capQuad := none, done := okMask, nv := 0, lines := [],
      places := ok.map fun l => (l, peerOf (k.dom (ea l)), ea l), serve := some (v, k.reads ok ea idx),
      drains := acq && scopeRemote c.scope }
  if k.faults.isEmpty ∧ r.overBudget c.g then .error (c.fault k.s 0x04 0)
  else if okMask ≠ 0 ∧ r.overBudget c.g then .error (.fault k.s (faultReq k.faults ea c.g.xdone))
  else
    match prepare c k.s ds with
    | .error e => holding c k.pages (.error e)
    | .ok (s1, lines) =>
      let r := { r with lines := lines }
      holding c k.pages (if k.faults.isEmpty then complete c s1 r else .error (faultWith c s1 r k.faults ea))

/-- The waits before a memory instruction is performed: its D operands (R152), and, for an acquire, the drift loads before
it (R180, R181). -/
def memoryWait (c : Ctx) (s : State) (acq : Bool) : Option Stop :=
  match c.g.driftOf c.b c.i with
  | some y => some (.wait s (.drift y))
  | none => if acq && !c.g.loadsDone then some (.wait s (.fence 1 [])) else none

/-- LD and LDRAW (R157, R161). -/
def loadBody (a : Access) (k : Nat) (acq : Bool) (sa sb d : BitVec 7) : Body := fun c s =>
  if c.runMask = 0 then .ok { s := s, move := .yield }
  else
    match memoryWait c s acq with
    | some e => .error e
    | none =>
      let ea := c.ea sa sb
      vectorLoad c s a (sizeOf k) d (regsOf k) ea (fun _ => 0) (fun _ => plainSpan (sizeOf k) ea)
        (.plain k) acq

/-- LD (R157). -/
def execLd (p : Pfx) (f : MForm) (s : State) : Outcome :=
  runGroup (.ld p f) s (loadBody .load f.k.toNat (f.o == 1) f.sa f.sb f.d)
/-- LDRAW (R161). -/
def execLdraw (p : Pfx) (f : AForm) (s : State) : Outcome :=
  runGroup (.ldraw p f) s (loadBody .raw f.k.toNat (f.acq == 1) f.sa f.sb f.d)

/-- LDU (R158): one access at the EA of the lowest lane. -/
def lduBody (k : Nat) (acq : Bool) (sa sb d : BitVec 7) : Body := fun c s =>
  let m := c.runMask
  if m = 0 then .ok { s := s, move := .yield }
  else
    match memoryWait c s acq with
    | some e => .error e
    | none =>
      let f := lowLane m
      let ea := c.ea sa sb
      let ck := checkLanes c s .load (sizeOf k) [f] ea (fun _ => 0) (plainSpan (sizeOf k) ea)
      match ck.faults with
      | (_, x) :: _ => .error (wholeFault c ck.s m x (ea f))
      | [] =>
        let r : Reply :=
          { window := c.g.window, writes := blankWrites d (regsOf k) m true, capQuad := none, done := m, nv := 0, lines := [],
            places := (lanesOf m).map fun l => (l, peerOf (ck.dom (ea f)), ea f),
            serve := some (.plain k, ck.reads [f] ea fun _ => 0), drains := acq && scopeRemote c.scope }
        if r.overBudget c.g then .error (c.fault ck.s 0x04 0)
        else
          match prepare c ck.s [ck.dom (ea f)] with
          | .error e => holding c ck.pages (.error e)
          | .ok (s1, lines) => holding c ck.pages (complete c s1 { r with lines := lines })
/-- LDU (R158). -/
def execLdu (p : Pfx) (f : MForm) (s : State) : Outcome :=
  runGroup (.ldu p f) s (lduBody f.k.toNat (f.o == 1) f.sa f.sb f.d)

/-! ## LDX (R162) -/

/-- The element index of LDX (R162): SB unsigned, or the low 32 bits of the immediate. -/
def Ctx.elemIndex (c : Ctx) (sb : BitVec 7) (l : Nat) : Nat :=
  match c.i.view.p.i with
  | some h => ((h ++ (0 : BitVec 11) : BitVec 36).truncate 32 : Word).toNat
  | none => if sb = 127 then 0 else (c.rd sb l).toNat

/-- The bytes that lane l of an LDX reads (R162). -/
def ldxSpans (k : Nat) (ea : Nat → DWord) (idx : Nat → Nat) (t : State) (x : Xlat) (l : Nat) : List (Nat × Nat) :=
  t.tileSpans k x (x.domain (ea l).toNat) (idx l)

/-- LDX (R162). -/
def ldxBody (k : Nat) (acq : Bool) (sa sb d : BitVec 7) : Body := fun c s =>
  if c.runMask = 0 then .ok { s := s, move := .yield }
  else
    match memoryWait c s acq with
    | some e => .error e
    | none =>
      let ea := fun l => c.rd64 sa l
      let idx := c.elemIndex sb
      vectorLoad c s .ldx 1 d 1 ea idx (ldxSpans k ea idx) (.tile k) acq
/-- LDX (R162). -/
def execLdx (p : Pfx) (f : AForm) (s : State) : Outcome :=
  runGroup (.ldx p f) s (ldxBody f.k.toNat (f.acq == 1) f.sa f.sb f.d)

/-! ## Drift loads (R164) -/

/-- LD.DF and LDU.DF (R164): the loaded lanes are taken when the load issues and delivered when the reply arrives. -/
def driftLoadBody (uniform : Bool) (k : Nat) (sa sb d : BitVec 7) : Body := fun c s =>
  let m := c.runMask
  if m = 0 then .ok { s := s, move := .yield }
  else
    match c.g.driftOf c.b c.i with
    | some y => .error (.wait s (.drift y))
    | none =>
      match c.g.freeSym with
      | none => .error (.wait s .symbol)
      | some y =>
        if 16 ≤ c.g.driftRegs then .error (.wait s .symbol)
        else
          let size := sizeOf k
          let ls := if uniform then [lowLane m] else lanesOf m
          let ea := c.ea sa sb
          let ck := checkLanes c s .load size ls ea (fun _ => 0) fun _ _ => []
          let drift : Val := .d { sym := y, kind := 0, a := 1, b := 0 } (c.g.under d.toNat)
          match ck.faults with
          | (_, x) :: _ =>
            if uniform then .error (wholeFault c ck.s m x (ea (lowLane m)))
            else .error (.fault ck.s (faultReq ck.faults ea (c.doneMask 0)))
          | [] =>
            if c.g.overBudget m [(d.toNat, drift)] then .error (c.fault ck.s 0x04 0)
            else
              match prepare c ck.s (ls.map fun l => ck.dom (ea l)) with
              | .error e => holding c ck.pages (.error e)
              | .ok (s1, lines) =>
                let from' := fun l => if uniform then lowLane m else l
                let word := fun l => BitVec.ofNat 32 (s1.readNat (ck.dom (ea (from' l))) size)
                let dom := fun l => ck.dom (ea (from' l))
                let bad := fun l => peerOf (dom l) == s1.self && s1.poisoned (dom l) size
                let gen := match ck.pages.found with | x :: _ => x.gen | [] => 0
                let sym : Sym :=
                  { state := 1, mask := m, size := k / 2, signed := k == 0 || k == 2 || k == 4, uniform := uniform,
                    raw := lanes.map fun l => if inMask m l then word l else 0, doms := lanes.map dom, gen := gen,
                    poison := m &&& maskOf fun l => inMask m l && bad l, lines := lines,
                    sentAt := s1.hub.now.toNat, held := s1.heldLines lines, pc := c.pc, num := s1.hub.nextReq }
                let g1 := (((s1.gust? s1.cur).getD c.g).setReg d.toNat drift).setCapTag d.toNat false
                .ok { s := (s1.sendLines lines).putGust { g1 with syms := listSet g1.syms y sym }, move := .yield }
/-- LD.DF (R164). -/
def execLdDf (p : Pfx) (f : KForm) (s : State) : Outcome :=
  runGroup (.ldDf p f) s (driftLoadBody false f.k.toNat f.sa f.sb f.d)
/-- LDU.DF (R164). -/
def execLduDf (p : Pfx) (f : KForm) (s : State) : Outcome :=
  runGroup (.lduDf p f) s (driftLoadBody true f.k.toNat f.sa f.sb f.d)

/-! ## Posted accesses: ST and ATOM -/

/-- The records of a posted operation whose own lanes lie on poisoned lines (R176): one for each line. -/
def State.poisonRecords (s : State) (k : Nat) (g : Gust) (size : Nat) (ls : List (Nat × Nat)) : State :=
  let hit := ls.filter fun e => peerOf e.2 == s.self && s.poisoned e.2 size
  (hit.map fun e => e.2 / 128).dedup.foldl
    (fun t line => t.poisonRecord k g 0x0006 line (maskOf fun l => hit.any fun e => e.1 == l && e.2 / 128 == line)) s

/-- A posted access of checked lanes (R153, R154, R159, R176): its release, its counter and its allowance first; then the
lanes with no fault in ascending order, then the faulting lanes. perform does one lane at a domain address, poster naming the
operation and its lane; kind is the atomic's operation and size and whether it is commutative, none for stores. -/
def postedChecked (c : Ctx) (k : Checked) (size : Nat) (rel : Bool) (kind : Option (Nat × Nat × Bool)) (ea : Nat → DWord)
    (ls : List Nat) (perform : State → Nat → Nat → Nat × Nat × Word → State) : Except Stop Done :=
  let s := k.s
  let ok := okLanes ls k.faults
  let r := if rel then k.s.release c c.scope else (k.s, none)
  match r.2 with
  | some w => .error (.wait r.1 w)
  | none =>
    if c.track ≠ 0 ∧ 63 ≤ c.g.counter (c.track - 1) then .error (.wait r.1 (.counterFull (c.track - 1)))
    else
      let ds := ok.map fun l => (l, k.dom (ea l))
      match r.1.chargeLines (coreOf s.cur) (c.waitNo r.1) (r.1.charges (coreOf s.cur) kind ds) c.heldPages.charged with
      | (s1, done, some p) => .error (.wait (s1.noteCharged c done) (.headwind p))
      | (s1, _, none) =>
        let g0 := (s1.gust? s1.cur).getD c.g
        let s2 := ds.foldl (fun t e => perform t e.1 e.2 (s.cur, s.nextPosted, BitVec.ofNat 32 (2 ^ e.1))) s1
        let lines := (s2.remoteLines (ds.map fun e => e.2)).map fun ln =>
          (ln.1, ln.2, maskOf fun l => ds.any fun e => e.1 == l && lineOf e.2 == ln)
        let s3 := if ok.isEmpty then s2 else s2.addPosted g0 c.track c.pc lines
        let s4 := s3.poisonRecords s.cur g0 size ds
        if k.faults.isEmpty then .ok { s := s4, move := .yield }
        else .error (.fault s4 (faultReq k.faults ea (c.doneMask (maskOf fun l => ok.contains l))))

/-- A posted access of the lanes that run (R153). -/
def postedAccess (c : Ctx) (s : State) (a : Access) (size : Nat) (rel : Bool) (kind : Option (Nat × Nat × Bool))
    (ea : Nat → DWord) (perform : State → Nat → Nat → Nat × Nat × Word → State) : Except Stop Done :=
  let ls := lanesOf c.runMask
  let k := checkLanes c s a size ls ea (fun _ => 0) fun _ _ => []
  holding c k.pages (postedChecked c k size rel kind ea ls perform)

/-- A store of bytes by a gust: in the own package at once; for another peer through the write-combining buffer, or sent
at once where its host memory or host window takes it (R338). tag says that the bytes are a tagged capability (R190). -/
def State.remoteStore (s : State) (core part d : Nat) (bs : List Byte) (tag : Bool) (poster : Nat × Nat × Word) : State :=
  if buffered d then s.wcStore core part d bs tag poster else s.sendPosted core part d bs none tag 0 0 poster

/-- A store of bytes by a gust (R159). -/
def State.gustStore (s : State) (core part d : Nat) (bs : List Byte) (poster : Nat × Nat × Word) : State :=
  if peerOf d = s.self then s.storeBytes d bs else s.remoteStore core part d bs false poster

/-- ST (R159). -/
def stBody (k : Nat) (rel : Bool) (sa sb d : BitVec 7) : Body := fun c s =>
  if c.runMask = 0 then .ok { s := s, move := .yield }
  else
    match memoryWait c s false with
    | some e => .error e
    | none =>
      postedAccess c s .store (sizeOf k) rel none (c.ea sa sb) fun t l dom poster =>
        t.gustStore (coreOf s.cur) (s.frontOf c.g).part dom (c.dataBytes d k l) poster
/-- ST (R159). -/
def execSt (p : Pfx) (f : MForm) (s : State) : Outcome :=
  runGroup (.st p f) s (stBody f.k.toNat (f.o == 1) f.sa f.sb f.d)

/-- ATOM (R171, R172): posted. -/
def atomBody (op size : Nat) (o : Nat) (sa sb d : BitVec 7) : Body := fun c s =>
  if c.runMask = 0 then .ok { s := s, move := .yield }
  else
    match memoryWait c s false with
    | some e => .error e
    | none =>
      postedAccess c s .atomic size (o == 1) (some (op, size, o == 2)) (c.eaAtomic sa) fun t l dom poster =>
        let b := c.operand sb size l
        let e := if op = 9 then c.operand d size l else 0
        if peerOf dom = s.self then t.atomicAt op size dom b.toNat e.toNat
        else if buffered dom then t.wcAtomic (coreOf s.cur) (s.frontOf c.g).part dom op size b e (o == 2) poster
        else t.sendPosted (coreOf s.cur) (s.frontOf c.g).part dom [] (some (op, size, o == 2)) false b e poster

/-- ATOMR (R171, R172): blocking. -/
def atomrBody (op size : Nat) (o : Nat) (sa sb d' : BitVec 7) : Body := fun c s =>
  let m := c.runMask
  if m = 0 then .ok { s := s, move := .yield }
  else
    match memoryWait c s (o == 1) with
    | some e => .error e
    | none =>
      let ea := c.eaAtomic sa
      let ls := lanesOf m
      let k := checkLanes c s .atomicR size ls ea (fun _ => 0) (plainSpan size ea)
      let ok := okLanes ls k.faults
      let r := if o = 1 then k.s.release c c.scope else (k.s, none)
      match r.2 with
      | some w => holding c k.pages (.error (.wait r.1 w))
      | none =>
        let okMask := maskOf fun l => ok.contains l
        let reads := (k.reads ok ea fun _ => 0).map fun d =>
          { d with b := (c.operand sb size d.lane).toNat, cmp := if op = 9 then (c.operand d' size d.lane).toNat else 0 }
        let rep : Reply :=
          { window := c.g.window, writes := blankWrites d' (size / 4) okMask false, capQuad := none, done := okMask, nv := 0,
            lines := [], places := ok.map fun l => (l, peerOf (k.dom (ea l)), ea l), serve := some (.atomic op size, reads),
            drains := o == 1 && scopeRemote c.scope }
        if k.faults.isEmpty ∧ rep.overBudget c.g then .error (c.fault r.1 0x04 0)
        else if okMask ≠ 0 ∧ rep.overBudget c.g then .error (.fault r.1 (faultReq k.faults ea c.g.xdone))
        else
          match prepare c r.1 (ok.map fun l => k.dom (ea l)) with
          | .error e => holding c k.pages (.error e)
          | .ok (s1, lines) =>
            let rep := { rep with lines := lines }
            holding c k.pages (if k.faults.isEmpty then complete c s1 rep else .error (faultWith c s1 rep k.faults ea))

/-- ATOM of major 0x2B (R171). -/
def execAtom (p : Pfx) (f : MForm) (s : State) : Outcome :=
  runGroup (.atom p f) s (atomBody f.k.toNat 4 f.o.toNat f.sa f.sb f.d)
/-- ATOMR of major 0x2C (R171). -/
def execAtomr (p : Pfx) (f : MForm) (s : State) : Outcome :=
  runGroup (.atomr p f) s (atomrBody f.k.toNat 4 f.o.toNat f.sa f.sb f.d)
/-- ATOM.XCHG (R171). -/
def execAtomXchg (p : Pfx) (f : OForm) (s : State) : Outcome :=
  runGroup (.atomXchg p f) s (atomBody 8 4 f.o.toNat f.sa f.sb f.d)
/-- ATOM.CAS (R171). -/
def execAtomCas (p : Pfx) (f : OForm) (s : State) : Outcome :=
  runGroup (.atomCas p f) s (atomBody 9 4 f.o.toNat f.sa f.sb f.d)
/-- ATOMR.XCHG (R171). -/
def execAtomrXchg (p : Pfx) (f : OForm) (s : State) : Outcome :=
  runGroup (.atomrXchg p f) s (atomrBody 8 4 f.o.toNat f.sa f.sb f.d)
/-- ATOMR.CAS (R171). -/
def execAtomrCas (p : Pfx) (f : OForm) (s : State) : Outcome :=
  runGroup (.atomrCas p f) s (atomrBody 9 4 f.o.toNat f.sa f.sb f.d)
/-- ATOM.ADD.64 (R171). -/
def execAtomAdd64 (p : Pfx) (f : OForm) (s : State) : Outcome :=
  runGroup (.atomAdd64 p f) s (atomBody 0 8 f.o.toNat f.sa f.sb f.d)
/-- ATOMR.ADD.64 (R171). -/
def execAtomrAdd64 (p : Pfx) (f : OForm) (s : State) : Outcome :=
  runGroup (.atomrAdd64 p f) s (atomrBody 0 8 f.o.toNat f.sa f.sb f.d)
/-- ATOMR.XCHG.64 (R171). -/
def execAtomrXchg64 (p : Pfx) (f : OForm) (s : State) : Outcome :=
  runGroup (.atomrXchg64 p f) s (atomrBody 8 8 f.o.toNat f.sa f.sb f.d)
/-- ATOMR.CAS.64 (R171). -/
def execAtomrCas64 (p : Pfx) (f : OForm) (s : State) : Outcome :=
  runGroup (.atomrCas64 p f) s (atomrBody 9 8 f.o.toNat f.sa f.sb f.d)

end Sys2Proof.Machine
end

