-- ==== Sys2Proof/Machine/Scratch.lean ====
section
/-! DEFINITION. Scratchpad loads and stores, locks and scratchpad atomics (spec/06 R166 to R170). -/

namespace Sys2Proof.Machine

/-! ## Addresses and checks -/

/-- The scratchpad address of lane l (R166): SA plus the index or the low 32 bits of the immediate, modulo 2^32. -/
def Ctx.spAddr (c : Ctx) (sa sb : BitVec 7) (l : Nat) : Nat :=
  let idx : Word :=
    match c.i.view.p.i with
    | some h => (h ++ (0 : BitVec 11) : BitVec 36).truncate 32
    | none => if sb = 127 then 0 else c.rd sb l
  (c.rd sa l + idx).toNat

/-- The scratchpad base of the issuing gust's front on its core (R322). -/
def Ctx.spBase (c : Ctx) (s : State) : Nat := (s.frontOf c.g).spBase s.curCore

/-- The fault of a scratchpad access of n bytes at a front-relative address (R166). -/
def spFault (fr : Front) (align n a : Nat) : Option LaneFault :=
  if a % align ≠ 0 then some ⟨1, 0x06, 1⟩ else if fr.scratch < a + n then some ⟨5, 0x09, 6⟩ else none

/-- The wait for the range scoreboard (R168): the first of the ranges that an entry of the core overlaps. The scoreboard names
bytes of the core's scratchpad, the front's base added. -/
def State.rangeWait (s : State) (rs : List (Nat × Nat)) : Option Stop :=
  (rs.find? fun r => !((s.core s.curCore).overlaps r.1 r.2).isEmpty).map fun r => Stop.wait s (.range r.1 r.2)

/-- What the lanes of a scratchpad access meet: the lanes that run, the faulting lanes, and the lanes without a fault. -/
structure SpLanes where
  mask : Word
  faults : List (Nat × LaneFault)
  ok : List Nat
  deriving DecidableEq, Repr

/-- Checks the lanes of a scratchpad access of n bytes each (R166, R193). -/
def Ctx.spLanes (c : Ctx) (s : State) (n : Nat) (ea : Nat → Nat) : SpLanes :=
  let ls := lanesOf c.runMask
  let fr := s.frontOf c.g
  let fs := ls.filterMap fun l => (spFault fr n n (ea l)).map fun f => (l, f)
  { mask := c.runMask, faults := fs, ok := okLanes ls fs }

/-- The faults of the other lanes (R193), once the lanes without a fault are performed. -/
def spEnd (c : Ctx) (k : SpLanes) (ea : Nat → Nat) (d : Done) : Except Stop Done :=
  if k.faults.isEmpty then .ok d
  else .error (.fault d.s
    (faultReq k.faults (fun l => BitVec.ofNat 64 (ea l)) (c.doneMask (maskOf fun l => k.ok.contains l))))

/-- Writes the words of a scratchpad load (R157, R167): tag G, under the lanes performed; the budget as R25 and R360. -/
def spWrite (c : Ctx) (s : State) (k : SpLanes) (ea : Nat → Nat) (d : BitVec 7) (n : Nat) (val : Nat → List Word) :
    Except Stop Done :=
  let m := maskOf fun l => k.ok.contains l
  let ws := (List.range n).map fun j => (d.toNat + j, c.g.mkG fun l => (val l).getD j 0)
  if c.g.overBudget m ws then
    if k.faults.isEmpty then .error (c.fault s 0x04 0)
    else .error (.fault s (faultReq k.faults (fun l => BitVec.ofNat 64 (ea l)) c.g.xdone))
  else
    spEnd c k ea { s := s.putGust (c.g.writeAll m ws),
                   l1 := .val (c.g.stored m (c.g.reg d.toNat) (c.g.mkG fun l => (val l).getD 0 0)) }

/-- The bytes that a lane of a load reads in the scratchpad of the issuing core. -/
def State.spRead (s : State) (a n : Nat) : List Byte := (s.core s.curCore).spBytes a n

/-- Writes scratchpad bytes of the issuing core. -/
def State.spPut (s : State) (a : Nat) (bs : List Byte) : State := s.setCore s.curCore ((s.core s.curCore).spSet a bs)

/-! ## SPLD and SPST (R167) -/

/-- SPLD (R167). -/
def spldBody (k : Nat) (sa sb d : BitVec 7) : Body := undrifted fun c s =>
  let ea := c.spAddr sa sb
  let n := sizeOf k
  let ck := c.spLanes s n ea
  let base := c.spBase s
  match s.rangeWait (ck.ok.map fun l => (base + ea l, base + ea l + n)) with
  | some e => .error e
  | none => spWrite c s ck ea d (regsOf k) fun l => extendLoad k (s.spRead (base + ea l) n)
/-- SPLD (R167). -/
def execSpld (p : Pfx) (f : KForm) (s : State) : Outcome :=
  runGroup (.spld p f) s (spldBody f.k.toNat f.sa f.sb f.d)

/-- SPST (R167): lanes in ascending order (R154). -/
def spstBody (k : Nat) (sa sb d : BitVec 7) : Body := undrifted fun c s =>
  let ea := c.spAddr sa sb
  let n := sizeOf k
  let ck := c.spLanes s n ea
  let base := c.spBase s
  match s.rangeWait (ck.ok.map fun l => (base + ea l, base + ea l + n)) with
  | some e => .error e
  | none => spEnd c ck ea { s := ck.ok.foldl (fun t l => t.spPut (base + ea l) (c.dataBytes d k l)) s }
/-- SPST (R167). -/
def execSpst (p : Pfx) (f : KForm) (s : State) : Outcome :=
  runGroup (.spst p f) s (spstBody f.k.toNat f.sa f.sb f.d)

/-! ## Locks (R169) -/

/-- The locks that cover the words of lanes, each once. The address whose bits choose bank and lock bit is the core's, the
front's base added (log 47). -/
def locksOf (base : Nat) (ea : Nat → Nat) (ls : List Nat) : List Nat := (ls.map fun l => lockOf (base + ea l)).dedup

/-- Takes locks for a gust (R169). -/
def Core.takeLocks (c : Core) (k : Nat) (ns : List Nat) : Core := { c with locks := ns.foldl (fun t n => tabSet t n k) c.locks }

/-- LDLK (R169): the gust's lock set is released first, whatever Active() (log 47); the locks of its words are taken in one
step. -/
def ldlkBody (sa sb d : BitVec 7) : Body := undrifted fun c s =>
  let ea := c.spAddr sa sb
  let ck := c.spLanes s 4 ea
  let base := c.spBase s
  let ns := locksOf base ea ck.ok
  let val := fun l => extendLoad 4 (s.spRead (base + ea l) 4)
  if c.g.overBudget (maskOf fun l => ck.ok.contains l) [(d.toNat, c.g.mkG fun l => (val l).getD 0 0)] then
    spWrite c s ck ea d 1 val
  else
    let s1 := s.releaseLocks s.cur
    match s1.rangeWait (ck.ok.map fun l => (base + ea l, base + ea l + 4)) with
    | some e => .error e
    | none =>
      if ns.all fun n => (s1.core s.curCore).lockOk s.cur n then
        let s2 := s1.setCore s.curCore ((s1.core s.curCore).takeLocks s.cur ns)
        spWrite c s2 ck ea d 1 val
      else .error (.wait s1 (.lock ns))
/-- LDLK (R169). -/
def execLdlk (p : Pfx) (f : XForm) (s : State) : Outcome := runGroup (.ldlk p f) s (ldlkBody f.sa f.sb f.d)

/-- STUL (R169): stores, then releases the gust's whole lock set, whatever Active() (log 47). -/
def stulBody (sa sb d : BitVec 7) : Body := undrifted fun c s =>
  let ea := c.spAddr sa sb
  let ck := c.spLanes s 4 ea
  let base := c.spBase s
  match s.rangeWait (ck.ok.map fun l => (base + ea l, base + ea l + 4)) with
  | some e => .error e
  | none =>
    let s1 := ck.ok.foldl (fun t l => t.spPut (base + ea l) (c.dataBytes d 4 l)) s
    spEnd c ck ea { s := if ck.faults.isEmpty then s1.releaseLocks s.cur else s1 }
/-- STUL (R169). -/
def execStul (p : Pfx) (f : XForm) (s : State) : Outcome := runGroup (.stul p f) s (stulBody f.sa f.sb f.d)

/-! ## SPA (R170) -/

/-- The new word of SPA (R170). -/
def spaNew (k : Nat) (w v : Word) : Word :=
  match k with
  | 0 => w + v
  | 1 => if w.sle v then w else v
  | 2 => if w.sle v then v else w
  | 3 => w ||| v
  | _ => w + 1

/-- SPA (R170): INC does not read D. -/
def spaBody (k : Nat) (sa sb d : BitVec 7) : Body := fun c s =>
  let held := if k = 4 then { c.i.view.sig with d := Kind.zero } else c.i.view.sig
  let drift :=
    match (kindRegs held.sb sb.toNat ++ kindRegs held.sa sa.toNat ++ kindRegs held.d d.toNat).findSome? c.g.runDrift with
    | some y => some y
    | none => (latchesRead c.i).findSome? fun n => match (c.g.slot c.b).latch n with | .val v => v.sym? | .empty _ => none
  match drift with
  | some y => .error (.wait s (.drift y))
  | none =>
    let ea := c.spAddr sa sb
    let ck := c.spLanes s 4 ea
    let base := c.spBase s
    match s.rangeWait (ck.ok.map fun l => (base + ea l, base + ea l + 4)) with
    | some e => .error e
    | none =>
      let ns := locksOf base ea ck.ok
      if ns.all fun n => (s.core s.curCore).lockOk s.cur n then
        let one := fun (t : State) (l : Nat) =>
          let w := BitVec.ofNat 32 (natOfBytes (t.spRead (base + ea l) 4))
          t.spPut (base + ea l) (bytesOf 4 (spaNew k w (c.rd d l)).toNat)
        spEnd c ck ea { s := ck.ok.foldl one s }
      else .error (.wait s (.lock ns))
/-- SPA (R170). -/
def execSpa (p : Pfx) (f : KForm) (s : State) : Outcome := runGroup (.spa p f) s (spaBody f.k.toNat f.sa f.sb f.d)

end Sys2Proof.Machine
end

