-- ==== Sys2Proof/Machine/Fences.lean ====
section
/-! DEFINITION. Fences, instruction sync, HFLUSH and PREF (spec/06 R179 to R184). -/

namespace Sys2Proof.Machine

/-! ## Fences (R180) -/

/-- The requests whose acknowledgements a fence awaits already (R340): it has drained the buffer. -/
def Ctx.fenced (c : Ctx) : Option (List Nat) :=
  match c.prev with
  | some (.fence _ ids) => some ids
  | _ => none

/-- FENCE.acq (R180): the remote lines that it covers drain (R178, R340), and it waits until every earlier load has
completed. -/
def fenceAcqBody : Body := fun c s =>
  let s1 := if c.fenced.isSome then s else s.drainScope c.scope
  if c.g.loadsDone then .ok { s := s1, move := .yield } else .error (.wait s1 (.fence 1 []))
/-- FENCE.acq (R179). -/
def execFenceAcq (p : Pfx) (f : RForm) (s : State) : Outcome := runGroup (.fenceAcq p f) s fenceAcqBody

/-- FENCE.rel (R180): remote lines that its scope covers drain, then it waits until every earlier access has been
performed. -/
def fenceRelBody : Body := fun c s =>
  match s.fenceRel c c.scope c.fenced with
  | (s1, _, true) => .ok { s := s1, move := .yield }
  | (s1, ids, false) => .error (.wait s1 (.fence c.scope ids))
/-- FENCE.rel (R179). -/
def execFenceRel (p : Pfx) (f : RForm) (s : State) : Outcome := runGroup (.fenceRel p f) s fenceRelBody
/-- FENCE.ar (R179): both effects; a release waits for the loads as well. -/
def execFenceAr (p : Pfx) (f : RForm) (s : State) : Outcome := runGroup (.fenceAr p f) s fenceRelBody

/-! ## Ranges -/

/-- The addresses that stand for the 64 KiB pages of a range: its start, then each later page's first byte. -/
def rangePages (start len : Nat) : List Nat :=
  (List.range ((start % 0x10000 + len + 0xFFFF) / 0x10000)).map fun i => if i = 0 then start else (start / 0x10000 + i) * 0x10000

/-- The translation fault of a page of a range (R193: FLT.XLATE 1 to 3). -/
def rangeFault (p : Pages) (va : Nat) : Option Nat :=
  if 2 ^ 56 ≤ va then some 1
  else
    match p.find va with
    | none => some 2
    | some x => if x.mig = 2 then some 3 else none

/-- The domain byte ranges that a range of virtual addresses covers, page by page. -/
def rangeSpans (p : Pages) (start len : Nat) : List (Nat × Nat) :=
  (rangePages start len).filterMap fun va =>
    (p.find va).map fun x => (x.domain va, min (va / 0x10000 * 0x10000 + 0x10000) (start + len) - va)

/-- Whether a 32-byte block lies on one of several byte ranges. -/
def blockIn (spans : List (Nat × Nat)) (blk : Nat) : Bool :=
  spans.any fun r => decide (blk * 32 < r.1 + r.2) && decide (r.1 < blk * 32 + 32)

/-- The start and length that a form of major 0x2E reads (R152, R179), of the lanes that run (R193). -/
def Ctx.range (c : Ctx) (f : RForm) : Nat × Nat :=
  ((c.rd64 f.sa (lowLane c.runMask)).toNat, (c.rd f.sb (lowLane c.runMask)).toNat)

/-- The fault of a range (R193): of its pages', the lowest cause, with the first page that has it. -/
def firstRangeFault (p : Pages) (vas : List Nat) : Option (Nat × Nat) :=
  [1, 2, 3].findSome? fun n => (vas.find? fun va => rangeFault p va == some n).map fun va => (n, va)

/-- Translates a range; the fault of its pages is raised in every lane that runs (R193). -/
def checkRange (c : Ctx) (s : State) (f : RForm) (k : State → Pages → Nat → Nat → Except Stop Done) : Except Stop Done :=
  let (start, len) := c.range f
  let fr := s.frontOf c.g
  let (s1, p) := s.pagesOf s.curCore fr.part fr.asid (rangePages start len) {}
  match p.found.find? s1.lacksFeature with
  | some x => .error (wholeFault c s1 c.runMask ⟨0, 0x01, 7⟩ (BitVec.ofNat 64 (max x.vbase start)))
  | none =>
    match firstRangeFault p (rangePages start len) with
    | some (n, va) => .error (wholeFault c s1 c.runMask ⟨3, 0x08, n⟩ (BitVec.ofNat 64 va))
    | none => k s1 p start len

/-! ## ISYNC (R182) -/

/-- Discards the words that p selects, prefetched by the gust and held by the core's instruction cache (R182). -/
def State.dropCode (s : State) (p : Nat → Bool) : State :=
  let c := s.core s.curCore
  let s1 := s.setCore s.curCore { c with icache := c.icache.filter fun e => !p e.1 }
  match s1.gust? s1.cur with
  | some g => s1.putGust { g with prefetch := g.prefetch.filter fun e => !p e.1 }
  | none => s1

/-- ISYNC (R182): no yield point. -/
def isyncBody : Body := fun _ s => .ok { s := s.dropCode fun _ => true }
/-- ISYNC (R182). -/
def execIsync (p : Pfx) (f : RForm) (s : State) : Outcome := runGroup (.isync p f) s isyncBody

/-- ISYNC.range (R182). -/
def isyncRangeBody (f : RForm) : Body := undriftedActive fun c s =>
  if c.runMask = 0 then .ok { s := s }
  else checkRange c s f fun s1 p start len => .ok { s := s1.dropCode (blockIn (rangeSpans p start len)) }
/-- ISYNC.range (R182). -/
def execIsyncRange (p : Pfx) (f : RForm) (s : State) : Outcome := runGroup (.isyncRange p f) s (isyncRangeBody f)

/-! ## HFLUSH and PREF -/

/-- A tracked HFLUSH (R183, R176): a posted operation that waits for the lines of requests; the requests name it, with no lane
whose data lies on them. -/
def State.postFlush (s : State) (c : Ctx) (ids : List Nat) : State :=
  let rs := s.hub.requests.filter fun r => ids.contains r.id
  let s1 := s.addPosted c.g c.track c.pc ((rs.map fun r => (r.peer, r.line, (0 : Word))).dedup)
  let named := fun (r : Request) => if ids.contains r.id then { r with posters := r.posters ++ [(s.cur, s.nextPosted, 0)] } else r
  { s1 with hub := { s1.hub with requests := s1.hub.requests.map named } }

/-- HFLUSH (R183): the gust's writes to the own host memory are performed, and complete, when they are issued; those to a peer's
have completed when they are acknowledged. -/
def hflushBody (f : RForm) : Body := undriftedActive fun c s =>
  if c.runMask = 0 then .ok { s := s, move := .yield }
  else if c.track ≠ 0 ∧ 63 ≤ c.g.counter (c.track - 1) then .error (.wait s (.counterFull (c.track - 1)))
  else
    match c.prev with
    | some (.flush ids) => if s.acked ids then .ok { s := s, move := .yield } else .error (.wait s (.flush ids))
    | _ =>
      checkRange c s f fun s1 p start len =>
        let ids := s1.hostWrites (rangeSpans p start len) fun x => x.1 == s.cur && x.2.2 != 0
        if c.track ≠ 0 then .ok { s := s1.postFlush c ids, move := .yield }
        else if ids.isEmpty then .ok { s := s1, move := .yield }
        else .error (.wait s1 (.flush ids))
/-- HFLUSH (R183). -/
def execHflush (p : Pfx) (f : RForm) (s : State) : Outcome := runGroup (.hflush p f) s (hflushBody f)

/-- PREF (R184): no state that the spec gives changes. -/
def prefBody : Body := undriftedActive fun _ s => .ok { s := s, move := .yield }
/-- PREF (R184). -/
def execPref (p : Pfx) (f : RForm) (s : State) : Outcome := runGroup (.pref p f) s prefBody

end Sys2Proof.Machine
end

