-- ==== Sys2Proof/Machine/WaitOps.lean ====
section
/-! DEFINITION. Engine contexts by name (spec/07 R194, spec/11 R327), and WAITTL, WAITSB, RSBQ, AWRD and BRAW (spec/06 R185 to
R188). -/

namespace Sys2Proof.Machine

/-! ## Engine contexts -/

/-- The key of matrix context phys of a core. -/
def mxKey (core phys : Nat) : Nat := core * 16 + phys
/-- The key of physical copy context phys of a die (R327). -/
def cpKey (die phys : Nat) : Nat := 5120 + die * 256 + phys
/-- The key of migration context ctx (0 to 7) or of the graph context (8) of a front. -/
def ownKey (front ctx : Nat) : Nat := 10000 + front * 9 + ctx

/-- The engine context that class and context name for a front on a core, when the context is granted to the front (R194,
R197): matrix context 15 is the handler's, and follows the front's others. Each front has migration contexts 0 to 7 and a graph
queue of its own, with their timelines: the spec names them by the partition and does not say whether its fronts share them
(DESIGN CHOICE, log 80). -/
def State.engKey? (s : State) (front core q : Nat) : Option Nat :=
  match s.front? front with
  | none => none
  | some fr =>
    let ctx := q % 32
    match q / 32 with
    | 0 =>
      let ps := tabGetD fr.mxPhys core []
      if ctx = 15 then (ps[fr.mxctx]?).map (mxKey core)
      else if ctx < fr.mxctx then (ps[ctx]?).map (mxKey core) else none
    | 1 => (fr.cpPhys[ctx]?).map (cpKey (dieOf core))
    | 2 => some (ownKey front ctx)
    | _ => some (ownKey front 8)

/-- The depth of a queue (R194, Table 1). -/
def queueDepth (cls : Nat) : Nat :=
  match cls with
  | 0 => 8
  | 1 => 32
  | 2 => 64
  | _ => 16

/-- The engine context at a key, or a fresh one of a front. -/
def State.engAt (s : State) (front key q : Nat) : Eng := (s.eng? key).getD { front := front, cls := q / 32, ctx := q % 32 }

/-- The context that Q names for the issuing gust. -/
def Ctx.eng? (c : Ctx) (s : State) (q : BitVec 8) : Option Eng :=
  (s.engKey? c.g.front s.curCore q.toNat).map fun k => s.engAt c.g.front k q.toNat

/-! ## WAITTL and WAITSB -/

/-- WAITTL (R186): the target beyond the commands pushed is status 2; the timeline reached, status 0; a faulted context,
status 1. -/
def waittlBody (f : EForm) : Body := undriftedActive fun c s =>
  let n := (c.rd64 f.sa c.low).toNat
  let put := fun (st : Nat) =>
    match putResult c s f.d (.u (BitVec.ofNat 32 st)) with
    | .error e => .error e
    | .ok r => .ok { r with move := .yield }
  match c.eng? s f.q, s.engKey? c.g.front s.curCore f.q.toNat with
  | some e, some k =>
    if c.wm = 0 ∨ n ≤ e.timeline then put 0
    else if e.accepted < n then put 2
    else if e.faulted then put 1
    else .error (.wait s (.timeline k n))
  | _, _ => put (if n = 0 then 0 else 2)
/-- WAITTL (R186). -/
def execWaittl (p : Pfx) (f : EForm) (s : State) : Outcome := runGroup (.waittl p f) s (waittlBody f)

/-- WAITSB (R185). -/
def waitsbBody (f : RForm) : Body := fun c s =>
  if c.g.counter f.sa.toNat ≤ f.sb.toNat then .ok { s := s, move := .yield }
  else .error (.wait s (.sb f.sa.toNat f.sb.toNat))
/-- WAITSB (R185). -/
def execWaitsb (p : Pfx) (f : RForm) (s : State) : Outcome := runGroup (.waitsb p f) s (waitsbBody f)

/-! ## RSBQ, AWRD, BRAW -/

/-- RSBQ (R187): bit i, entry i of the core's range scoreboard overlaps the range. -/
def rsbqBody (f : RForm) : Body := undriftedActive fun c s =>
  let lo := c.spBase s + (c.rd f.sa c.low).toNat
  let hits := (s.core s.curCore).overlaps lo (lo + (c.rd f.sb c.low).toNat)
  putResult c s f.d (.u (maskOf fun i => hits.any fun e => e.ix == i))
/-- RSBQ (R187). -/
def execRsbq (p : Pfx) (f : RForm) (s : State) : Outcome := runGroup (.rsbq p f) s (rsbqBody f)

/-- AWRD (R188). -/
def awrdBody (f : RForm) : Body := undriftedActive fun c s =>
  putResult c s f.d (.u (BitVec.ofNat 32 (s.aw s.curCore ((c.rd f.sa c.low).toNat % 64))))
/-- AWRD (R188). -/
def execAwrd (p : Pfx) (f : RForm) (s : State) : Outcome := runGroup (.awrd p f) s (awrdBody f)

/-- BRAW (R188, R77). -/
def brawBody (f : WForm) : Body := fun c s =>
  let target := c.pc + f.off12.signExtend 56 * 4
  .ok { s := s, pc := some (if f.k8.toNat ≤ s.aw s.curCore f.p.toNat then target else c.next), move := .control }
/-- BRAW (R188). -/
def execBraw (p : Pfx) (f : WForm) (s : State) : Outcome := runGroup (.braw p f) s (brawBody f)

end Sys2Proof.Machine
end

