-- ==== Sys2Proof/Machine/Caps.lean ====
section
/-! DEFINITION. Capabilities (spec/06 R189 to R192, spec/01 R37). -/

namespace Sys2Proof.Machine

/-- The four words of a capability as U values for the registers of a quad. -/
def capWrites (d : BitVec 7) (x : Cap) : List (Nat × Val) :=
  (List.range 4).map fun j => (d.toNat + j, .u (BitVec.ofNat 32 (x / 2 ^ (32 * j))))

/-- FLT.CAP of a form that reads its quad from the lowest lane: Active() in XMASK (R193, Table 7). These forms have no EA, and
XADDR keeps its value (log 48). -/
def capFault (c : Ctx) (s : State) (cause : Nat) : Stop := .fault s { code := 0x07, cause := cause, xmask := c.wm }

/-- Writes a capability to a quad (R192): a full write sets the tag, a partial one leaves it clear. -/
def putQuad (c : Ctx) (s : State) (d : BitVec 7) (x : Cap) : Except Stop Done :=
  match wrAll c s (capWrites d x) with
  | .error e => .error e
  | .ok (s1, l1) =>
    if c.wm = c.g.lmask then
      .ok { s := s.putGust ((c.g.writeAll c.wm (capWrites d x)).setCapTag d.toNat true), l1 := l1 }
    else .ok { s := s1, l1 := l1 }

/-! ## CAPNAR, CAPCHK, CAPTAG, CAPMK (R192) -/

/-- The bounds of a capability, inclusive: bytes for kinds 0 and 1, positions for kind 2. -/
def capBounds (x : Cap) : Int × Int :=
  if capKind x = 2 then (capPosLo x, capPosHi x) else (capBase x, (capBase x : Int) + capLen x - 1)

/-- Whether CAPNAR's request is refused with cause 5 (R192). -/
def capBadRequest (x : Cap) (lo hi : Nat) : Bool :=
  let b := capBounds x
  if capKind x = 3 then false
  else (decide ((lo : Int) < b.1) || decide (b.2 < (hi : Int)) || decide (hi < lo))
    || (decide (capKind x < 2) && (lo % 64 != 0 || (hi + 1) % 64 != 0))

/-- A capability narrowed (R192). A kind-0 or kind-1 request with LO at or above 2^56, which a range that passes 2^56 admits,
leaves the further bits of LO in the reserved bits [95:88]: BASE has 56 bits, and the spec is silent (DESIGN CHOICE, log 76). -/
def capNarrow (x : Cap) (lo hi perm : Nat) : Cap :=
  let head := bitsOf x 3 0 + 2 ^ 4 * (capPerm x &&& perm) + 2 ^ 12 * bitsOf x 31 12
  if capKind x = 3 then head + 2 ^ 32 * bitsOf x 127 32
  else if capKind x = 2 then head + 2 ^ 32 * capWord1 x + 2 ^ 64 * lo + 2 ^ 96 * hi
  else head + 2 ^ 32 * lo + 2 ^ 96 * ((hi + 1 - lo) / 64)

/-- CAPNAR (R192). -/
def capnarBody (f : RForm) : Body := undrifted fun c s =>
  if c.wm = 0 then putQuad c s f.d 0
  else
    let x := c.quad f.sa c.low
    let req := c.quad f.d c.low
    let lo := req % 2 ^ 64
    let hi := req / 2 ^ 64
    if !(c.g.capTag f.sa.toNat) then .error (capFault c s 1)
    else if capMalformed x then .error (capFault c s 6)
    else if capBadRequest x lo hi then .error (capFault c s 5)
    else putQuad c s f.d (capNarrow x lo hi ((c.rd f.sb c.low).toNat % 256))
/-- CAPNAR (R192). -/
def execCapnar (p : Pfx) (f : RForm) (s : State) : Outcome := runGroup (.capnar p f) s (capnarBody f)

/-- CAPCHK's value for a lane (R192): open is what bit 8 holds for a kind that the spec gives no range. -/
def capCheck (x : Cap) (v : Nat) (open' : Bool) : Word :=
  let inRange :=
    match capKind x with
    | 0 | 1 => decide (v < capLen x)
    | 2 => decide (capPosLo x ≤ v) && decide (v ≤ capPosHi x)
    | _ => open'
  BitVec.ofNat 32 (capPerm x + (if inRange then 2 ^ 8 else 0) + 2 ^ 9 + 2 ^ 10 * capKind x)

/-- CAPCHK (R192): it raises no FLT.CAP. Bit 8 of a quad of kind 3 and above is a free value (log 6). -/
def capchkBody (f : RForm) : Body := undrifted fun c s =>
  let x := c.quad f.sa c.low
  let tag := c.g.capTag f.sa.toNat
  let (n, s1) := if tag && decide (3 ≤ capKind x) then s.freshNat else (0, s)
  let ins := ((List.range 4).map fun j => c.g.reg (f.sa.toNat + j)) ++ [c.src f.sb]
  putResult c s1 f.d (resultOf c.g .plain ins fun l =>
    if tag then capCheck x ((c.src f.sb).lane l).toNat (n / 2 ^ l % 2 == 1) else 0)
/-- CAPCHK (R192). -/
def execCapchk (p : Pfx) (f : RForm) (s : State) : Outcome := runGroup (.capchk p f) s (capchkBody f)

/-- CAPTAG (R192). -/
def captagBody (f : RForm) : Body := undrifted fun c s => putResult c s f.d (.u (if c.g.capTag f.sa.toNat then 1 else 0))
/-- CAPTAG (R192). -/
def execCaptag (p : Pfx) (f : RForm) (s : State) : Outcome := runGroup (.captag p f) s (captagBody f)

/-- CAPMK (R192): supervisor handler only (R89). -/
def capmkBody (f : RForm) : Body := undrifted fun c s =>
  if c.wm = 0 then putQuad c s f.d 0
  else
    let x := c.quad f.sa c.low
    if capMalformed x then .error (capFault c s 6) else putQuad c s f.d x
/-- CAPMK (R192). -/
def execCapmk (p : Pfx) (f : RForm) (s : State) : Outcome := runGroup (.capmk p f) s (capmkBody f)

/-! ## CAPLD and CAPST (R191) -/

/-- CAPLD (R191): one access at the address of the lowest lane. -/
def capldBody (acq : Bool) (sa sb d : BitVec 7) : Body := fun c s =>
  let m := c.runMask
  if m = 0 then .ok { s := s, move := .yield }
  else
    match memoryWait c s acq with
    | some e => .error e
    | none =>
      let l := lowLane m
      let ea := c.ea sa sb
      let ck := checkLanes c s .capLoad 16 [l] ea (fun _ => 0) (plainSpan 16 ea)
      match ck.faults with
      | (_, x) :: _ => .error (wholeFault c ck.s m x (ea l))
      | [] =>
        let r : Reply :=
          { window := c.g.window, writes := blankWrites d 4 m true,
            capQuad := if m = c.g.lmask then some (d.toNat, true) else none, done := m,
            nv := 0, lines := [], places := (lanesOf m).map fun n => (n, peerOf (ck.dom (ea l)), ea l),
            serve := some (.cap, ck.reads [l] ea fun _ => 0), drains := acq && scopeRemote c.scope }
        if r.overBudget c.g then .error (c.fault ck.s 0x04 0)
        else
          match prepare c ck.s [ck.dom (ea l)] with
          | .error e => holding c ck.pages (.error e)
          | .ok (s1, lines) => holding c ck.pages (complete c s1 { r with lines := lines })
/-- CAPLD (R191). -/
def execCapld (p : Pfx) (f : OForm) (s : State) : Outcome := runGroup (.capld p f) s (capldBody (f.o == 1) f.sa f.sb f.d)

/-- The store of a capability by a gust, with its tag (R190, R191). -/
def State.capStore (s : State) (core part d : Nat) (bs : List Byte) (tag : Bool) (poster : Nat × Nat × Word) : State :=
  if peerOf d = s.self then (s.storeBytes d bs).setMemTag d tag else s.remoteStore core part d bs tag poster

/-- CAPST (R191): posted; it stores the quad of the lowest lane. -/
def capstBody (rel : Bool) (sa sb d : BitVec 7) : Body := fun c s =>
  let m := c.runMask
  if m = 0 then .ok { s := s, move := .yield }
  else
    match memoryWait c s false with
    | some e => .error e
    | none =>
      let l := lowLane m
      let ea := c.ea sa sb
      let ck := checkLanes c s .capStore 16 [l] ea (fun _ => 0) fun _ _ => []
      match ck.faults with
      | (_, x) :: _ => .error (wholeFault c ck.s m x (ea l))
      | [] =>
        holding c ck.pages (postedChecked c ck 16 rel none ea [l] fun t _ dom poster =>
          t.capStore s.curCore (s.frontOf c.g).part dom (bytesOf 16 (c.quad d l)) (c.g.capTag d.toNat) poster)
/-- CAPST (R191). -/
def execCapst (p : Pfx) (f : OForm) (s : State) : Outcome := runGroup (.capst p f) s (capstBody (f.o == 1) f.sa f.sb f.d)

end Sys2Proof.Machine
end

