-- ==== Sys2Proof/Machine/FormChecks.lean ====
section
/-! DEFINITION. Checks that the forms of majors 0x37 to 0x39 share: the capability quad (spec/07 R221, R233) and scratchpad
operand addresses (spec/06 R166). -/

namespace Sys2Proof.Machine

/-- A memory fault of a form that performs nothing (R166, R417): XMASK is Active(), XDONE 0, the address in every lane. -/
def Ctx.formFault (c : Ctx) (s : State) (code cause : Nat) (a : Nat) : Stop :=
  .fault s { code := code, cause := cause, xmask := c.wm,
             xaddr := some (lanes.map fun l => if inMask c.wm l then BitVec.ofNat 64 a else 0) }

/-- A scratchpad operand of n bytes at a front-relative address (R166): aligned, below the allocation, and clear of the
range scoreboard (R168). -/
def Ctx.spOperand (c : Ctx) (s : State) (align n a : Nat) : Option Stop :=
  match spFault (s.frontOf c.g) align n a with
  | some f => some (c.formFault s f.code f.cause a)
  | none => s.rangeWait [(c.spBase s + a, c.spBase s + a + n)]

/-- The first stop of a list of checks. -/
def firstStop : List (Option Stop) → Option Stop
  | [] => none
  | some e :: _ => some e
  | none :: t => firstStop t

/-- Bytes of a scratchpad operand. -/
def Ctx.spGet (c : Ctx) (s : State) (a n : Nat) : List Byte := s.spRead (c.spBase s + a) n

/-- Writes bytes of a scratchpad operand. -/
def Ctx.spStore (c : Ctx) (s : State) (a : Nat) (bs : List Byte) : State := s.spPut (c.spBase s + a) bs

/-- Whether a result in D stays within GBUD (R18, R25, R359 item 7). -/
def Ctx.resultFits (c : Ctx) (ws : List (Nat × Val)) : Bool := c.w || !(c.g.overBudget c.wm ws)

/-- Completes with a U value in D (R220, R233, R234). -/
def putU (c : Ctx) (s : State) (d : BitVec 7) (n : Nat) (m : LatchMove) : Except Stop Done :=
  match putResult c s d (.u (BitVec.ofNat 32 n)) with
  | .error e => .error e
  | .ok r => .ok { r with move := m }

end Sys2Proof.Machine
end

