-- ==== Sys2Proof/Machine/Context.lean ====
section
/-! DEFINITION. Shared attention contexts: the descriptor, publication groups, the residency map and frames (spec/07 R218 to
R221, R417, spec/10 R305 to R308). -/

namespace Sys2Proof.Machine

/-! ## Accesses through ordinary translation (R417) -/

/-- The translations that the group which issues has found (R163). -/
def State.heldPages (s : State) : Pages := ((s.gust? s.cur).bind fun g => (g.slot s.curB).pages).getD {}

/-- The translation of an address for the group that issues, which translates a page once and holds what it finds until it
is performed (R163, R296). -/
def State.translateOnce (s : State) (q asid va : Nat) : State × Option Xlat :=
  let r := s.pagesOf s.curCore q asid [va] s.heldPages
  (r.1.holdPages s.curB r.2, r.2.find va)

/-- What a page that the device or software moves, or that lies in HBF, refuses to an access (R288, R298). -/
def Xlat.refuses (x : Xlat) (wr : Bool) : Option (Nat × Nat) :=
  if x.mig = 2 ∨ (wr ∧ x.mig ≠ 0) then some (0x08, 3) else if wr ∧ x.tier = 1 then some (0x0A, 1) else none

/-- Whether the group that issues finds poison in n bytes at a domain address: in another package's when its requests have
been answered. -/
def State.findsPoison (s : State) (d n : Nat) : Bool := (peerOf d == s.self || s.heldPages.served) && s.poisoned d n

/-- The fault that a blocking load of n bytes, or a store, at an address would raise (R417), or its domain address. -/
def State.ordinary (s : State) (q asid va n : Nat) (rd wr : Bool) : State × Except (Nat × Nat) Nat :=
  if 2 ^ 56 ≤ va then (s, .error (0x08, 1))
  else
    match s.translateOnce q asid va with
    | (s1, none) => (s1, .error (0x08, 2))
    | (s1, some x) =>
      let d := x.domain va
      match x.refuses wr with
      | some f => (s1, .error f)
      | none =>
        if s1.lacksFeature x then (s1, .error (0x01, 7))
        else if rd ∧ !x.r then (s1, .error (0x09, 1))
        else if wr ∧ !x.w then (s1, .error (0x09, 2))
        else if s1.findsPoison d n then (s1, .error (0x0B, 1))
        else (s1, .ok d)

/-- An access of a form: its domain address, or the fault that names an address (R417). -/
def Ctx.reach (c : Ctx) (s : State) (va n : Nat) (rd wr : Bool) : Except Stop (State × Nat) :=
  let fr := s.frontOf c.g
  match s.ordinary fr.part fr.asid va n rd wr with
  | (s1, .error e) => .error (c.formFault s1 e.1 e.2 va)
  | (s1, .ok d) => .ok (s1, d)

/-! ## The descriptor (R218) -/

/-- A context descriptor (R218, Table 9), with the virtual and domain address that it was read at. -/
structure Desc where
  va : Nat
  dom : Nat
  nlayer : Nat
  nhead : Nat
  dcode : Nat
  home : Nat
  homePeer : Nat
  priv : Nat
  rmap : Nat
  pub : Nat
  nb : Nat
  deriving DecidableEq, Repr

/-- The head dimension d. -/
def Desc.d (x : Desc) : Nat := 32 * 2 ^ x.dcode
/-- G = d/32 (R220). -/
def Desc.g (x : Desc) : Nat := 2 ^ x.dcode
/-- Whether head h is privileged (R218). -/
def Desc.isPriv (x : Desc) (h : Nat) : Bool := x.priv / 2 ^ h % 2 == 1
/-- The privileged heads. -/
def Desc.privHeads (x : Desc) : List Nat := (List.range (x.nhead + 1)).filter x.isPriv

/-- A field of descriptor bytes. -/
def descField (bs : List Byte) (off n : Nat) : Nat := cmdField bs off n

/-- Whether descriptor bytes are malformed (R218). -/
def descBad (bs : List Byte) : Bool :=
  let f := descField bs
  f 0 2 != 1 || decide (63 < f 3 1) || f 4 1 == 0 || decide (3 < f 4 1) || decide (1 < f 5 1) || decide (63 < f 6 1)
    || f 7 1 != 0 || f 0x28 4 == 0 || decide (2 ^ 26 < f 0x28 4) || f 0x2C 212 != 0

/-- The descriptor that bytes hold. -/
def descOf (va dom : Nat) (bs : List Byte) : Desc where
  va := va
  dom := dom
  nlayer := descField bs 2 1
  nhead := descField bs 3 1
  dcode := descField bs 4 1
  home := descField bs 5 1
  homePeer := descField bs 6 1
  priv := descField bs 0x10 8
  rmap := descField bs 0x18 8
  pub := descField bs 0x20 8
  nb := descField bs 0x28 4

/-- FLT.CAP of an attention form (R221): the descriptor address in every lane of Active(). -/
def Ctx.attCap (c : Ctx) (s : State) (x : Cap) (cause : Nat) : Stop := c.formFault s 0x07 cause (capDesc x)

/-- What every form checks before its own operands (R221, R417): causes 1 and 2, the descriptor's own access, cause 6. -/
def Ctx.openContext (c : Ctx) (s : State) (f : BitVec 7) : Except Stop (State × Cap × Desc) :=
  let x := c.quad f c.low
  if !(c.g.capTag f.toNat) then .error (c.attCap s x 1)
  else if capKind x ≠ 2 then .error (c.attCap s x 2)
  else
    match c.reach s (capDesc x) 256 true false with
    | .error e => .error e
    | .ok (s1, d) =>
      let bs := s1.readBytes d 256
      if capMalformed x || descBad bs then .error (c.attCap s1 x 6) else .ok (s1, x, descOf (capDesc x) d bs)

/-- The permission bits of a kind-2 capability (R189, R221). -/
inductive CtxPerm where
  | read | write | publish | acquire
  deriving DecidableEq, Repr

/-- Whether a capability has a permission. -/
def capHas (x : Cap) (p : CtxPerm) : Bool :=
  match p with
  | .read => capPerm x % 2 == 1
  | .write => capPerm x / 2 % 2 == 1
  | .publish => capPerm x / 4 % 2 == 1
  | .acquire => capPerm x / 8 % 2 == 1

/-! ## Control pair (R220) -/

/-- The layer. -/
def ctlLayer (x : Nat) : Nat := bitsOf x 7 0
/-- The head. -/
def ctlHead (x : Nat) : Nat := bitsOf x 13 8
/-- The selector. -/
def ctlSel (x : Nat) : Bool := bitsOf x 14 14 == 1
/-- The second selector. -/
def ctlSel2 (x : Nat) : Bool := bitsOf x 15 15 == 1
/-- Lane l of the even register of CTL. -/
def Ctx.even (c : Ctx) (sb : BitVec 7) (l : Nat) : Nat := (c.lead.lane (c.lead.reg sb.toNat) l).toNat

/-- The positions of block b inside the capability's range, as a 64-bit mask (R227). -/
def capRangeMask (x : Cap) (b : Nat) : Nat :=
  (List.range 64).foldl (fun n j => if capPosLo x ≤ 64 * b + j ∧ 64 * b + j ≤ capPosHi x then n + 2 ^ j else n) 0

/-! ## Residency (R305 to R307) -/

/-- What the residency map says of a block of a head: the KVRM code of R226, whether readers use the sealed frame, the
domain addresses of the frame that readers use, of the staging (or INT4) frame and of the sealed frame, the code of the sealed
frame's page, the entry with what its page refuses to a write, and whether a frame's page needs a feature that is not accepted
(R393). -/
structure Res where
  code : Nat
  isSealed : Bool := false
  frame : Nat := 0
  stage : Nat := 0
  sframe : Nat := 0
  scode : Nat := 1
  entry : Nat := 0
  efault : Option (Nat × Nat) := none
  lacks : Bool := false
  deriving DecidableEq, Repr

/-- The bytes of a frame (R306, Table 6): INT4, staging, sealed. -/
def frameBytes (d : Nat) (priv isSealed : Bool) : Nat :=
  if !priv then 64 * d + 256 else if isSealed then 128 * d + 128 else 256 * d + 128

/-- The page of a frame: its translation, and whether the frame crosses its end. -/
def State.framePage (s : State) (q asid va n : Nat) : State × Option (Xlat × Bool) :=
  match s.translateOnce q asid va with
  | (s1, none) => (s1, none)
  | (s1, some x) => (s1, some (x, decide (x.vbase + pageBytes x.size < va + n)))

/-- The residency of block b of layer l and head h (R305, R307). Readers go on in the frame named while its page is locked by
software (R307; log 53). -/
def State.residency (s : State) (q asid : Nat) (x : Desc) (l h b : Nat) : State × Res :=
  let ea := x.rmap + 16 * ((l * (x.nhead + 1) + h) * x.nb + b)
  match s.ordinary q asid ea 16 true false with
  | (s1, .error (0x0B, _)) => (s1, { code := 3 })
  | (s1, .error _) => (s1, { code := 1 })
  | (s1, .ok e) =>
    let w0 := s1.readNat e 8
    let w1 := s1.readNat (e + 8) 8
    let priv := x.isPriv h
    let isSealed := bitsOf w0 2 2 == 1
    let fva := w0 / 128 * 128
    let sva := w1 / 128 * 128
    let bad := bitsOf w0 6 3 != 0 || bitsOf w1 6 0 != 0 || decide (2 ^ 56 ≤ fva) || decide (2 ^ 56 ≤ sva)
      || (!priv && (isSealed || sva != 0)) || (priv && sva == 0)
    if bitsOf w0 1 0 = 3 ∨ bad then (s1, { code := 3 })
    else
      let f := s1.framePage q asid fva (frameBytes x.d priv false)
      let g := if priv then f.1.framePage q asid sva (frameBytes x.d true true) else (f.1, f.2)
      let crosses := fun (p : Option (Xlat × Bool)) => match p with | some (_, c) => c | none => false
      if crosses f.2 || crosses g.2 then (g.1, { code := 3 })
      else if bitsOf w0 1 0 = 0 then (g.1, { code := 1 })
      else
        let dom := fun (p : Option (Xlat × Bool)) (va : Nat) => match p with | some (y, _) => y.domain va | none => 0
        let pageCode := fun (p : Option (Xlat × Bool)) =>
          match p with
          | none => 1
          | some (y, _) => if y.mig ≠ 0 then 4 else if y.tier = 1 then 2 else 0
        match (if isSealed then g.2 else f.2) with
        | none => (g.1, { code := 1 })
        | some (y, _) =>
          let r : Res := { code := 0, isSealed := isSealed, frame := y.domain (if isSealed then sva else fva),
                           stage := dom f.2 fva, sframe := dom g.2 sva, scode := pageCode g.2, entry := e
                           efault := (s1.heldPages.find ea).bind fun y => y.refuses true
                           lacks := [f.2, g.2].any fun p => match p with | some (y, _) => s1.lacksFeature y | none => false }
          let code :=
            if g.1.findsPoison r.frame (frameBytes x.d priv isSealed) then 3
            else if bitsOf w0 1 0 = 2 ∨ y.mig ≠ 0 then 4
            else if y.tier = 1 then 2 else 0
          (g.1, { r with code := code })

/-- The fault of a block for a form (R221, R307), as its place in the order of R221's table and its code and cause. -/
def Res.fault (r : Res) (writing : Bool) : Option (Nat × Nat × Nat) :=
  match r.code, writing with
  | 1, _ => some (0, 0x08, 4)
  | 4, true => some (1, 0x08, 3)
  | 2, true => some (2, 0x0A, 2)
  | 3, _ => some (3, 0x0B, 2)
  | _, _ => none

/-- The first fault of a list in the order of R221's table. -/
def worst : List (Nat × Nat × Nat) → Option (Nat × Nat)
  | [] => none
  | f :: t => some ((f :: t).foldl (fun m x => if x.1 < m.1 then x else m) f).2

/-- The residency of a list of (head, block) pairs. -/
def State.residencies (s : State) (q asid : Nat) (x : Desc) (l : Nat) : List (Nat × Nat) → State × List Res
  | [] => (s, [])
  | (h, b) :: t =>
    let r := s.residency q asid x l h b
    let rs := r.1.residencies q asid x l t
    (rs.1, r.2 :: rs.2)

/-- The blocks that a form touches, checked (R221): writing forms also refuse sealed blocks when sealOk is false. -/
def Ctx.blocks (c : Ctx) (s : State) (x : Desc) (l : Nat) (ks : List (Nat × Nat)) (writing sealOk : Bool) :
    Except Stop (State × List Res) :=
  let fr := s.frontOf c.g
  let r := s.residencies fr.part fr.asid x l ks
  match worst (r.2.filterMap fun e =>
      match e.fault writing with
      | some f => some f
      | none => if e.lacks then some (0, 0x01, 7) else if writing && !sealOk && e.isSealed then some (4, 0x09, 8) else none) with
  | some f => .error (c.formFault r.1 f.1 f.2 x.va)
  | none => .ok r

/-! ## Frames (R306) -/

/-- The number that a frame's bytes hold. -/
def State.frameNat (s : State) (f off n : Nat) : Nat := s.readNat (f + off) n

/-- The elements of position j of a frame, as FP32 key or value elements, and their scale (R59, R60, R306, R64). sel chooses
K (false) or V (true). -/
def State.frameRow (s : State) (x : Desc) (h : Nat) (r : Res) (j : Nat) (sel : Bool) : List Word × Word :=
  let d := x.d
  if !(x.isPriv h) then
    let row := s.readBytes (r.frame + (if sel then 32 * d else 0) + j * d / 2) (d / 2)
    let els := row.flatMap fun (b : Byte) =>
      [intNE (b.truncate 4 : BitVec 4).toInt, intNE ((b >>> 4).truncate 4 : BitVec 4).toInt]
    (els, cvtBF (BitVec.ofNat 32 (s.frameNat r.frame (64 * d + (if sel then 128 else 0) + 2 * j) 2)))
  else if r.isSealed then
    let row := s.readBytes (r.frame + (if sel then 64 * d else 0) + d * j) d
    (row.map fun b => cvtE4F (b.zeroExtend 32), BitVec.ofNat 32 (s.frameNat r.frame (128 * d) 4))
  else
    let at' := (if sel then 128 * d else 0) + 2 * d * j
    ((List.range d).map fun i => cvtBF (BitVec.ofNat 32 (s.frameNat r.frame (at' + 2 * i) 2)), 0x3F800000)

/-- The value of an element (R59, R60, R226): RoundNE(e·s), or the BF16 value while the block is staged. -/
def elemValue (x : Desc) (h : Nat) (r : Res) (e sc : Word) : Word :=
  if x.isPriv h && !r.isSealed then e else mulNE e sc

/-- Two INT4 elements in a byte (R59). -/
def int4Byte (a b : Int) : Byte := ((BitVec.ofInt 4 b : BitVec 4) ++ (BitVec.ofInt 4 a : BitVec 4))

/-- The bytes of INT4 elements. -/
def int4Bytes : List Int → List Byte
  | a :: b :: t => int4Byte a b :: int4Bytes t
  | _ => []

/-- The running maximum over staged magnitudes (R60, R223): NaN once any value is NaN. -/
def stageMax (a : Word) (ys : List Word) : Word :=
  if isNaN a || ys.any isNaN then canonNaN else maxAbs (a :: ys)

/-- Writes the K (sel false) or V vector of position j of a head as KVAPP does (R223): rotated, then quantised or staged. -/
def State.appendVec (s : State) (x : Desc) (h : Nat) (r : Res) (j : Nat) (sel : Bool) (vec : List Word) : State :=
  let d := x.d
  let rot := hadamard vec
  if !(x.isPriv h) then
    let q := quantInt4 rot
    (s.storeBytes (r.frame + (if sel then 32 * d else 0) + j * d / 2) (int4Bytes q.1)).storeBytes
      (r.frame + 64 * d + (if sel then 128 else 0) + 2 * j) (bytesOf 2 q.2)
  else
    let ys := rot.map fun y => (cvtFB y).1
    let s1 := s.storeBytes (r.frame + (if sel then 128 * d else 0) + 2 * d * j) (ys.flatMap fun y => bytesOf 2 y.toNat)
    let a := BitVec.ofNat 32 (s1.frameNat r.frame (256 * d) 4)
    s1.storeBytes (r.frame + 256 * d) (bytesOf 4 (stageMax a (ys.map cvtBF)).toNat)

/-- Seals a head's block (R60, R225, R308): the sealed frame is written, then SEALED is set. -/
def State.sealHead (s : State) (x : Desc) (r : Res) : State :=
  let d := x.d
  let a := BitVec.ofNat 32 (s.frameNat r.stage (256 * d) 4)
  let out := (List.range (128 * d)).map fun i =>
    BitVec.ofNat 8 (sealElement a (cvtBF (BitVec.ofNat 32 (s.frameNat r.stage (2 * i) 2))))
  let s1 := (s.storeBytes r.sframe out).storeBytes (r.sframe + 128 * d) (bytesOf 4 (sealScale a).toNat)
  s1.storeBytes r.entry [BitVec.ofNat 8 (s1.readNat r.entry 1 ||| 4)]

/-! ## Publication groups (R219) and the home package (R281) -/

/-- The address of the publication group of layer l and block b. -/
def Desc.group (x : Desc) (l b : Nat) : Nat := x.pub + 64 * (l * x.nb + b)

/-- The home package of a context (R218, R281): HOMEPEER, or, when HOME is package, the package that holds the descriptor. -/
def Desc.homeAt (x : Desc) : Nat := if x.home = 1 then x.homePeer else peerOf x.dom

/-- A virtual address at the context's home (R218: the same virtual address), own being where the gust's own translation
puts it: its domain address and what its page refuses to an access, found through the home package's own tables when that is
another package. -/
def State.homeDom (s : State) (q asid : Nat) (x : Desc) (va own : Nat) (wr : Bool) : Option (Nat × Option (Nat × Nat)) :=
  if x.homeAt = peerOf own ∨ x.homeAt = s.self then some (own, (s.heldPages.find va).bind fun y => y.refuses wr)
  else
    match ({ s with hub := { s.hub with peerId := BitVec.ofNat 6 x.homeAt } } : State).walk q asid va with
    | .leaf y _ _ => some (y.domain va, y.refuses wr)
    | _ => none

/-- The domain address of a word at the context's home, or the fault of the access (R281, R288, R298, R417). -/
def Ctx.atHome (c : Ctx) (s : State) (x : Desc) (va own : Nat) (wr : Bool) : Except Stop Nat :=
  let fr := s.frontOf c.g
  match s.homeDom fr.part fr.asid x va own wr with
  | none => .error (c.formFault s 0x08 2 va)
  | some (_, some f) => .error (c.formFault s f.1 f.2 va)
  | some (d, none) => .ok d

/-! ## Requests to other packages (R341) -/

/-- What a form touches of a block: its residency entry and its frames. -/
def Res.spans (x : Desc) (h : Nat) (r : Res) (sealing : Bool) : List (Nat × Nat) :=
  let priv := x.isPriv h
  (r.entry, 16) :: (r.frame, frameBytes x.d priv r.isSealed) :: if sealing then [(r.sframe, frameBytes x.d priv true)] else []

/-- The lines of other packages that byte ranges touch (R341, R342): the group reserves their reply slots, is charged as a
load is (log 52), sends its requests and waits; it is performed when the replies have arrived. A failure names va. -/
def Ctx.fabricAt (c : Ctx) (s : State) (va : Nat) (spans : List (Nat × Nat)) : Except Stop State :=
  if s.heldPages.served then .ok s
  else
    match prepare c s (spanLines spans) with
    | .error st => .error st
    | .ok (s1, ls) =>
      if ls.isEmpty then .ok s1
      else
        .error (.wait (s1.sendLines ls)
          (.form { lines := ls, mask := c.wm, addr := va, sentAt := s1.hub.now.toNat, held := s1.heldLines ls }))

/-- The lines of other packages that an attention form touches beside those of its descriptor. -/
def Ctx.fabric (c : Ctx) (s : State) (e : Desc) (spans : List (Nat × Nat)) : Except Stop State :=
  c.fabricAt s e.va ((e.dom, 256) :: spans)

end Sys2Proof.Machine
end

