-- ==== Sys2Proof/Machine/Attention.lean ====
section
/-! DEFINITION. The attention instructions, major 0x37 (spec/07 R220 to R229). -/

namespace Sys2Proof.Machine

/-! ## What the forms share -/

/-- The check of a block extent of n registers from field d (R220): FLT.WINDOW, then its drift records (R30). -/
def Ctx.extent (c : Ctx) (s : State) (d : BitVec 7) (n : Nat) : Option Stop :=
  if 120 < d.toNat + n || !(c.g.runOk (d.toNat, n)) then some (c.fault s 0x02 1)
  else (c.g.runDrift (d.toNat, n)).map fun y => .wait s (.drift y)

/-- Causes 4 and 3 of FLT.CAP (R221). -/
def Ctx.capOk (c : Ctx) (s : State) (x : Cap) (p : CtxPerm) (inRange : Bool) : Option Stop :=
  if !(capHas x p) then some (c.attCap s x 4) else if !inRange then some (c.attCap s x 3) else none

/-- Whether positions p to p + n - 1 lie in the capability and in the context's capacity (R221, R218). -/
def posIn (x : Cap) (e : Desc) (p n : Nat) : Bool :=
  decide (capPosLo x ≤ p) && decide (p + n ≤ capPosHi x + 1) && decide (p + n ≤ 64 * e.nb)

/-- Whether a block exists and meets the capability's range. -/
def capBlock (x : Cap) (e : Desc) (b : Nat) : Bool := decide (b < e.nb) && capRangeMask x b != 0

/-- The vector of d elements whose registers start at field value n (R223): element 32j + l in lane l of register n + j. -/
def Ctx.vec (c : Ctx) (n d : Nat) : List Word := (List.range d).map fun e => c.lead.lane (c.lead.reg (n + e / 32)) (e % 32)

/-- The lowest lane of register n. -/
def Ctx.lowReg (c : Ctx) (n : Nat) : Nat := (c.lead.lane (c.lead.reg n) c.low).toNat

/-- A form with an empty Active() (R220). -/
def unlessEmpty (body : Body) : Body := fun c s => if c.wm = 0 then .ok { s := s, move := .yield } else body c s

/-- The leave of an instruction (R202, R328): granted, with the request used up; or the wait. -/
def Ctx.leave (c : Ctx) (s : State) : Except Stop State :=
  let die := dieOf s.curCore
  let key := leaveKey s.cur c.b
  let d := s.die die
  match d.leave.find? fun r => r.eng == key with
  | none =>
    .error (.wait (s.setDie die { d with leave := d.leave ++
      [{ part := (s.frontOf c.g).part, eng := key, num := 0, core := s.curCore, cost := 1 }] }) .leave)
  | some r =>
    if r.granted then .ok (s.setDie die { d with leave := d.leave.filter fun q => q.eng != key }) else .error (.wait s .leave)

/-! ## KVRES (R222) -/

/-- The status and the new counter of KVRES (R222). -/
def reserve (pos n nb lo hi : Nat) : Nat × Nat :=
  if min (2 ^ 32) (64 * nb) < pos + n then (1, pos)
  else if 0 < n ∧ (pos < lo ∨ hi < pos + n - 1) then (2, pos)
  else (0, pos + n)

/-- KVRES (R222). -/
def kvresBody (f : RForm) : Body := undriftedActive (unlessEmpty fun c s =>
  match c.openContext s f.sa with
  | .error e => .error e
  | .ok (s1, x, e) =>
    if !(capHas x .write) then .error (c.attCap s1 x 4)
    else if e.home = 1 ∧ c.scope < 4 then .error (c.attCap s1 x 8)
    else
      match c.atHome s1 e (e.va + 8) (e.dom + 8) true with
      | .error st => .error st
      | .ok d =>
        if !(c.resultFits [(f.d.toNat, .u 0), (f.d.toNat + 1, .u 0)]) then .error (c.fault s1 0x04 0)
        else
          match c.fabric s1 e [(d, 8)] with
          | .error st => .error st
          | .ok s2 =>
            let pos := s2.readNat d 8
            let r := reserve pos (c.rd f.sb c.low).toNat e.nb (capPosLo x) (capPosHi x)
            let s3 := if r.1 = 0 then s2.storeBytes d (bytesOf 8 r.2) else s2
            match putPair c s3 f.d (.u (BitVec.ofNat 32 pos)) (.u (BitVec.ofNat 32 r.1)) with
            | .error e => .error e
            | .ok o => .ok { o with move := .yield })
/-- KVRES (R222). -/
def execKvres (p : Pfx) (f : RForm) (s : State) : Outcome := runGroup (.kvres p f) s (kvresBody f)

/-! ## KVAPP (R223) -/

/-- Writes the K and V vectors of a list of heads at position j of their blocks (R223). -/
def appendAll (s : State) (e : Desc) (j : Nat) : List (Nat × Res × List Word × List Word) → State
  | [] => s
  | (h, r, k, v) :: t => appendAll ((s.appendVec e h r j false k).appendVec e h r j true v) e j t

/-- KVAPP (R223). -/
def kvappBody (f : RForm) : Body := undriftedActive (unlessEmpty fun c s =>
  match c.openContext s f.sa with
  | .error e => .error e
  | .ok (s1, x, e) =>
    let ctl := c.ctl f.sb
    let n := ctlCount ctl
    let h := ctlHead ctl
    let p := c.even f.sb c.low
    let fits := decide (n * e.g ≤ 32) && decide (h + n ≤ e.nhead + 1)
    match firstStop [if fits then c.extent s1 f.d (2 * n * e.g) else none,
                     c.capOk s1 x .write (fits && decide (ctlLayer ctl ≤ e.nlayer) && posIn x e p 1)] with
    | some st => .error st
    | none =>
      match c.blocks s1 e (ctlLayer ctl) ((List.range n).map fun i => (h + i, p / 64)) true false with
      | .error st => .error st
      | .ok (s2, rs) =>
        let heads := (List.zip (List.range n) rs).map fun t =>
          (h + t.1, t.2, c.vec (f.d.toNat + t.1 * e.g) e.d, c.vec (f.d.toNat + (n + t.1) * e.g) e.d)
        match c.fabric s2 e (heads.flatMap fun t => t.2.1.spans e t.1 false) with
        | .error st => .error st
        | .ok s3 => .ok { s := appendAll s3 e (p % 64) heads, move := .yield })
/-- KVAPP (R223). -/
def execKvapp (p : Pfx) (f : RForm) (s : State) : Outcome := runGroup (.kvapp p f) s (kvappBody f)

/-! ## KVPUB and KVACQ (R224) -/

/-- The groups of a list of blocks, each reached for reading and, for KVPUB, writing (R417): their domain addresses. -/
def Ctx.groups (c : Ctx) (s : State) (e : Desc) (l : Nat) (wr : Bool) : List Nat → Except Stop (State × List (Nat × Nat))
  | [] => .ok (s, [])
  | b :: bs =>
    match c.reach s (e.group l b) 64 true wr with
    | .error st => .error st
    | .ok (s1, d) =>
      match c.groups s1 e l wr bs with
      | .error st => .error st
      | .ok (s2, ds) => .ok (s2, (b, d) :: ds)

/-- The domain addresses of the groups of a list of blocks at the context's home (R281). -/
def Ctx.homes (c : Ctx) (s : State) (e : Desc) (l : Nat) : List (Nat × Nat) → Except Stop (List Nat)
  | [] => .ok []
  | (b, d) :: gs =>
    match c.atHome s e (e.group l b) d true, c.homes s e l gs with
    | .ok h, .ok hs => .ok (h :: hs)
    | .error st, _ | _, .error st => .error st

/-- Positions p to p + n - 1 within block b, as a mask. -/
def posBits (p n b : Nat) : Nat :=
  (List.range 64).foldl (fun m j => if p ≤ 64 * b + j ∧ 64 * b + j < p + n then m + 2 ^ j else m) 0

/-- ORs bits into an 8-byte word (R219). -/
def State.orWord (s : State) (d bits : Nat) : State := s.storeBytes d (bytesOf 8 (s.readNat d 8 ||| bits))

/-- The words that KVPUB sets in one block (R224): the die word, and by scope the package word and the home's domain word. -/
def publishBlock (s : State) (scope die d home bits : Nat) : State :=
  let s1 := s.orWord (d + 8 * die) bits
  let s2 := if 3 ≤ scope then s1.orWord (d + 0x20) bits else s1
  if 4 ≤ scope then s2.orWord (home + 0x28) bits else s2

/-- KVPUB (R224). -/
def kvpubBody (f : RForm) : Body := undriftedActive (unlessEmpty fun c s =>
  match c.openContext s f.sa with
  | .error e => .error e
  | .ok (s1, x, e) =>
    let ctl := c.ctl f.sb
    let n := ctlCount ctl
    let p := c.even f.sb c.low
    let l := ctlLayer ctl
    match c.capOk s1 x .publish (decide (l ≤ e.nlayer) && posIn x e p n) with
    | some st => .error st
    | none =>
      match c.groups s1 e l true ((List.range ((p + n - 1) / 64 - p / 64 + 1)).map (p / 64 + ·)) with
      | .error st => .error st
      | .ok (s2, gs) =>
        match (if 4 ≤ c.scope then c.homes s2 e l gs else .ok []) with
        | .error st => .error st
        | .ok hs =>
          match s2.release c c.scope with
          | (s3, some w) => .error (.wait s3 w)
          | (s3, none) =>
            match c.fabric s3 e ((gs.map fun g => (g.2, 64)) ++ hs.map fun h => (h, 64)) with
            | .error st => .error st
            | .ok s4 =>
              .ok { s := (List.zip gs (hs ++ gs.map fun _ => 0)).foldl
                      (fun t g => publishBlock t c.scope (dieOf s.curCore) g.1.2 g.2 (posBits p n g.1.1)) s4,
                    move := .yield })
/-- KVPUB (R224). -/
def execKvpub (p : Pfx) (f : RForm) (s : State) : Outcome := runGroup (.kvpub p f) s (kvpubBody f)

/-- KVACQ (R224, R281). -/
def kvacqBody (f : RForm) : Body := undriftedActive (unlessEmpty fun c s =>
  match c.openContext s f.sa with
  | .error e => .error e
  | .ok (s1, x, e) =>
    let ctl := c.ctl f.sb
    let l := ctlLayer ctl
    let b := c.even f.sb c.low
    match c.capOk s1 x .acquire (decide (l ≤ e.nlayer) && capBlock x e b) with
    | some st => .error st
    | none =>
      match c.reach s1 (e.group l b) 64 true false with
      | .error st => .error st
      | .ok (s2, d) =>
        match (if c.scope = 2 then Except.ok (d + 8 * dieOf s.curCore) else if c.scope = 3 then .ok (d + 0x20)
          else (c.atHome s2 e (e.group l b) d false).map (· + 0x28)) with
        | .error st => .error st
        | .ok a =>
          if !(c.resultFits [(f.d.toNat, .u 0), (f.d.toNat + 1, .u 0)]) then .error (c.fault s2 0x04 0)
          else if !c.g.loadsDone then .error (.wait s2 (.fence 1 []))
          else
            match c.fabric s2 e [(a, 8)] with
            | .error st => .error st
            | .ok s3 =>
              let v : DWord := BitVec.ofNat 64 (s3.readNat a 8)
              match putPair c s3 f.d (.u v.lo) (.u v.hi) with
              | .error e => .error e
              | .ok o => .ok { o with s := o.s.drainAcq s.curCore (scopeRemote c.scope), move := .yield })
/-- KVACQ (R224). -/
def execKvacq (p : Pfx) (f : RForm) (s : State) : Outcome := runGroup (.kvacq p f) s (kvacqBody f)

/-! ## KVSEAL (R225, R308) -/

/-- The fault of what KVSEAL will write of a block: its sealed frame's page (R307), and its entry, which no write reaches in
HBF or while its page moves (R288, R298; log 53). -/
def Res.sealFault (r : Res) : Option (Nat × Nat × Nat) :=
  if r.isSealed then none
  else
    match ({ r with code := r.scode } : Res).fault true with
    | some f => some f
    | none => r.efault.map fun f => (if f.1 = 0x08 then 1 else 2, f.1, f.2)

/-- KVSEAL (R225): statuses in the order 3, 1, 2. -/
def kvsealBody (f : RForm) : Body := undriftedActive (unlessEmpty fun c s =>
  match c.openContext s f.sa with
  | .error e => .error e
  | .ok (s1, x, e) =>
    let l := ctlLayer (c.ctl f.sb)
    let b := c.even f.sb c.low
    match c.capOk s1 x .write (decide (l ≤ e.nlayer) && capBlock x e b) with
    | some st => .error st
    | none =>
      match c.blocks s1 e l (e.privHeads.map fun h => (h, b)) true true with
      | .error st => .error st
      | .ok (s2, rs) =>
        match worst (rs.filterMap Res.sealFault) with
        | some w => .error (c.formFault s2 w.1 w.2 e.va)
        | none =>
          let spans := (List.zip e.privHeads rs).flatMap fun t => t.2.spans e t.1 true
          if rs.isEmpty then putU c s2 f.d 3 .yield
          else if rs.all fun r => r.isSealed then putU c s2 f.d 1 .yield
          else
            match c.reach s2 (e.group l b) 64 true false with
            | .error st => .error st
            | .ok (s3, d) =>
              if !(c.resultFits [(f.d.toNat, .u 0)]) then .error (c.fault s3 0x04 0)
              else
                match c.fabric s3 e ((d, 64) :: spans) with
                | .error st => .error st
                | .ok s4 =>
                  if s4.readNat (d + 0x20) 8 ≠ 2 ^ 64 - 1 then putU c s4 f.d 2 .yield
                  else
                    match (if 16 < rs.length then c.leave s4 else .ok s4) with
                    | .error st => .error st
                    | .ok s5 => putU c ((rs.filter fun r => !r.isSealed).foldl (fun t r => t.sealHead e r) s5) f.d 0 .yield)
/-- KVSEAL (R225). -/
def execKvseal (p : Pfx) (f : RForm) (s : State) : Outcome := runGroup (.kvseal p f) s (kvsealBody f)

/-! ## KVG and KVRM (R226) -/

/-- The residency of the distinct blocks of the lanes (R305: each entry once per instruction). -/
def Ctx.laneBlocks (c : Ctx) (s : State) (e : Desc) (l h : Nat) (bs : List Nat) : State × List (Nat × Res) :=
  let fr := s.frontOf c.g
  let ks := bs.dedup
  let r := s.residencies fr.part fr.asid e l (ks.map fun b => (h, b))
  (r.1, List.zip ks r.2)

/-- The requests of a form that reports residency (R226, R341): the entries of its blocks, and the frames of those that have
one to be read; its results must fit first (R359). -/
def Ctx.readFabric (c : Ctx) (s : State) (e : Desc) (h : Nat) (ws : List (Nat × Val)) (rb : List (Nat × Res)) :
    Except Stop State :=
  if !(c.resultFits ws) then .error (c.fault s 0x04 0)
  else c.fabric s e (rb.flatMap fun t => if t.2.code = 1 ∨ t.2.code = 3 then [(t.2.entry, 16)] else t.2.spans e h false)

/-- The status of KVG for a residency code (R226, R307). -/
def kvgStatus (code : Nat) : Nat :=
  match code with
  | 0 => 0
  | 2 | 4 => 2
  | n => n

/-- KVG (R226). -/
def kvgBody (f : RForm) : Body := undriftedActive (unlessEmpty fun c s =>
  match c.openContext s f.sa with
  | .error e => .error e
  | .ok (s1, x, e) =>
    let ctl := c.ctl f.sb
    let l := ctlLayer ctl
    let h := ctlHead ctl
    let ch := bitsOf ctl 23 16
    match c.capOk s1 x .read (decide (l ≤ e.nlayer) && decide (h ≤ e.nhead) && decide (ch < e.d)) with
    | some st => .error st
    | none =>
      let pos := c.even f.sb
      let live := (lanesOf c.wm).filter fun i => posIn x e (pos i) 1
      let rb := c.laneBlocks s1 e l h (live.map fun i => pos i / 64)
      match c.readFabric rb.1 e h [(f.d.toNat, c.g.mkG fun _ => 0), (f.d.toNat + 1, c.g.mkG fun _ => 0)] rb.2 with
      | .error st => .error st
      | .ok s2 =>
        let res := fun i => if live.contains i then (tabGet? rb.2 (pos i / 64)).getD { code := 1 } else { code := 1 }
        let val := fun i =>
          let r := res i
          if kvgStatus r.code = 1 ∨ kvgStatus r.code = 3 then (0 : Word)
          else
            let row := s2.frameRow e h r (pos i % 64) (ctlSel ctl)
            elemValue e h r (row.1.getD ch 0) row.2
        match putPair c s2 f.d (c.g.mkG val) (c.g.mkG fun i => BitVec.ofNat 32 (kvgStatus (res i).code)) with
        | .error st => .error st
        | .ok o => .ok { o with move := .yield })
/-- KVG (R226). -/
def execKvg (p : Pfx) (f : RForm) (s : State) : Outcome := runGroup (.kvg p f) s (kvgBody f)

/-- KVRM (R226). -/
def kvrmBody (f : RForm) : Body := undriftedActive (unlessEmpty fun c s =>
  match c.openContext s f.sa with
  | .error e => .error e
  | .ok (s1, x, e) =>
    let ctl := c.ctl f.sb
    let l := ctlLayer ctl
    let h := ctlHead ctl
    match c.capOk s1 x .read (decide (l ≤ e.nlayer) && decide (h ≤ e.nhead)) with
    | some st => .error st
    | none =>
      let blk := c.even f.sb
      let live := (lanesOf c.wm).filter fun i => capBlock x e (blk i)
      let rb := c.laneBlocks s1 e l h (live.map blk)
      match c.readFabric rb.1 e h [(f.d.toNat, c.g.mkG fun _ => 0)] (rb.2.map fun t => (t.1, { t.2 with code := 1 })) with
      | .error st => .error st
      | .ok s2 =>
        let code := fun i => if live.contains i then ((tabGet? rb.2 (blk i)).map fun r => r.code).getD 1 else 1
        match putResult c s2 f.d (c.g.mkG fun i => BitVec.ofNat 32 (code i)) with
        | .error st => .error st
        | .ok o => .ok { o with move := .yield })
/-- KVRM (R226). -/
def execKvrm (p : Pfx) (f : RForm) (s : State) : Outcome := runGroup (.kvrm p f) s (kvrmBody f)

/-! ## KVQK and KVAV (R227, R228) -/

/-- The bitmap words of n blocks from b0, ANDed with the capability range (R227). -/
def Ctx.bitmaps (c : Ctx) (s : State) (x : Cap) (e : Desc) (a b0 n : Nat) : List (Nat × Nat) :=
  (List.range n).map fun i =>
    (b0 + i, if b0 + i < e.nb then natOfBytes (c.spGet s (a + 8 * i) 8) &&& capRangeMask x (b0 + i) else 0)

/-- The set positions of a list of blocks in order, with their residency: (index of the block, j, residency). -/
def setPositions (ws : List (Nat × Nat)) (rs : List (Nat × Res)) : List (Nat × Nat × Res) :=
  (List.range ws.length).flatMap fun i =>
    let w := ws.getD i (0, 0)
    (List.range 64).filterMap fun j =>
      if w.2 / 2 ^ j % 2 = 1 then (tabGet? rs w.1).map fun r => (i, j, r) else none

/-- The blocks with a set bit, checked for reading (R221), with their residency. -/
def Ctx.readBlocks (c : Ctx) (s : State) (e : Desc) (l h : Nat) (ws : List (Nat × Nat)) :
    Except Stop (State × List (Nat × Res)) :=
  let ks := (ws.filter fun w => w.2 != 0).map fun w => w.1
  match c.blocks s e l (ks.map fun b => (h, b)) false true with
  | .error st => .error st
  | .ok (s1, rs) => (c.fabric s1 e (rs.flatMap fun r => r.spans e h false)).map fun s2 => (s2, List.zip ks rs)

/-- The groups of 32 terms of a score, summed in order (R64). -/
def scoreSum : List Word → List Word → Nat → Option Word → Word
  | _, _, 0, acc => acc.getD 0
  | q, k, n + 1, acc =>
    let g := treeSum (List.zipWith mulNE (q.take 32) (k.take 32))
    scoreSum (q.drop 32) (k.drop 32) n (some (match acc with | none => g | some a => addNE a g))

/-- The score of a position (R64). -/
def score (q k : List Word) (g : Nat) (sc sigma : Word) : Word := mulNE (mulNE (scoreSum q k g none) sc) sigma

/-- KVQK (R227). -/
def kvqkBody (f : RForm) : Body := undriftedActive (unlessEmpty fun c s =>
  match c.openContext s f.sa with
  | .error e => .error e
  | .ok (s1, x, e) =>
    let ctl := c.ctl f.sb
    let l := ctlLayer ctl
    let h := ctlHead ctl
    let n := ctlCount ctl
    let b0 := c.even f.sb c.low
    let d := f.d.toNat
    let bm := c.lowReg (d + e.g + 1)
    let out := c.lowReg (d + e.g + 2)
    match firstStop [c.extent s1 f.d (e.g + 3), c.capOk s1 x .read (decide (l ≤ e.nlayer) && decide (h ≤ e.nhead)),
                     c.spOperand s1 8 (8 * n) bm, c.spOperand s1 4 (256 * n) out] with
    | some st => .error st
    | none =>
      let ws := c.bitmaps s1 x e bm b0 n
      match c.readBlocks s1 e l h ws with
      | .error st => .error st
      | .ok (s2, rs) =>
        let q := c.vec d e.d
        let sigma := BitVec.ofNat 32 (c.lowReg (d + e.g))
        let words := (List.range n).flatMap fun i => (List.range 64).map fun j =>
          let w := ws.getD i (0, 0)
          match (if w.2 / 2 ^ j % 2 = 1 then tabGet? rs w.1 else none) with
          | none => (0xFF800000 : Word)
          | some r =>
            let row := s2.frameRow e h r j false
            score q row.1 e.g row.2 sigma
        .ok { s := c.spStore s2 out (words.flatMap fun w => bytesOf 4 w.toNat), move := .yield })
/-- KVQK (R227). -/
def execKvqk (p : Pfx) (f : RForm) (s : State) : Outcome := runGroup (.kvqk p f) s (kvqkBody f)

/-- One output channel of KVAV (R65): start is the current value under ACC, none otherwise. -/
def kvavChannel (terms : List (Word × List Word × Word)) (ch : Nat) (start : Option Word) : Word :=
  (terms.foldl (fun acc t =>
    let v := mulNE t.1 (mulNE t.2.2 (t.2.1.getD ch 0))
    some (match acc with | none => v | some a => addNE a v)) start).getD 0

/-- KVAV (R228). -/
def kvavBody (f : RForm) : Body := undriftedActive (unlessEmpty fun c s =>
  match c.openContext s f.sa with
  | .error e => .error e
  | .ok (s1, x, e) =>
    let ctl := c.ctl f.sb
    let l := ctlLayer ctl
    let h := ctlHead ctl
    let n := ctlCount ctl
    let b0 := c.even f.sb c.low
    let d := f.d.toNat
    let wa := c.lowReg (d + e.g)
    let bm := c.lowReg (d + e.g + 1)
    match firstStop [c.extent s1 f.d (e.g + 2), c.capOk s1 x .read (decide (l ≤ e.nlayer) && decide (h ≤ e.nhead)),
                     c.spOperand s1 4 (256 * n) wa, c.spOperand s1 8 (8 * n) bm] with
    | some st => .error st
    | none =>
      let ws := c.bitmaps s1 x e bm b0 n
      match c.readBlocks s1 e l h ws with
      | .error st => .error st
      | .ok (s2, rs) =>
        let terms := (setPositions ws rs).map fun t =>
          let row := s2.frameRow e h t.2.2 t.2.1 true
          (BitVec.ofNat 32 (natOfBytes (c.spGet s2 (wa + 4 * (64 * t.1 + t.2.1)) 4)), row.1, row.2)
        let cur := c.vec d e.d
        let raw := (List.range e.d).map fun ch => kvavChannel terms ch (if ctlSel ctl then some (cur.getD ch 0) else none)
        let row := if ctlSel2 ctl then hadamard raw else raw
        match wrAll c s2 ((List.range e.g).map fun i => (d + i, c.g.mkG fun t => row.getD (32 * i + t) 0)) with
        | .error st => .error st
        | .ok (s3, l1) => .ok { s := s3, l1 := l1, move := .yield })
/-- KVAV (R228). -/
def execKvav (p : Pfx) (f : RForm) (s : State) : Outcome := runGroup (.kvav p f) s (kvavBody f)

/-! ## KVPROM (R229) -/

/-- Bytes at a virtual address, page by page (R417): the fault of a blocking load there names the whole read's address. -/
def Ctx.readVa (c : Ctx) (s : State) (va name : Nat) : Nat → Nat → List Byte → Except Stop (State × List Byte)
  | 0, _, bs => .ok (s, bs)
  | fuel + 1, n, bs =>
    if n = 0 then .ok (s, bs)
    else
      let k := min n (0x10000 - va % 0x10000)
      let fr := s.frontOf c.g
      match s.ordinary fr.part fr.asid va k true false with
      | (s1, .error e) => .error (c.formFault s1 e.1 e.2 name)
      | (s1, .ok d) => c.readVa s1 (va + k) name fuel (n - k) (bs ++ s1.readBytes d k)

/-- The address of node k of a side buffer, for a layer and a head (R229). -/
def Desc.node (e : Desc) (side l k h : Nat) : Nat := (side + ((k * (e.nlayer + 1) + l) * (e.nhead + 1) + h) * (8 * e.d)) % 2 ^ 64

/-- The domain byte ranges of the nodes of a list, on pages that have been translated. -/
def State.nodeSpans (s : State) (e : Desc) (side l : Nat) (ks : List Nat) : List (Nat × Nat) :=
  ks.flatMap fun k => (List.range (e.nhead + 1)).flatMap fun h =>
    let va := e.node side l k h
    let n := min (8 * e.d) (0x10000 - va % 0x10000)
    [(va, n), (va + n, 8 * e.d - n)].filterMap fun r => (s.heldPages.find r.1).map fun x => (x.domain r.1, r.2)

/-- The nodes of KVPROM (R229, R417): for each index i of the list and each head, its 8d bytes. -/
def Ctx.nodes (c : Ctx) (s : State) (e : Desc) (side l : Nat) : List (Nat × Nat × Nat) →
    Except Stop (State × List (Nat × Nat × List Byte))
  | [] => .ok (s, [])
  | (i, k, h) :: t =>
    let va := e.node side l k h
    match c.readVa s va va 8 (8 * e.d) [] with
    | .error st => .error st
    | .ok (s1, bs) =>
      match c.nodes s1 e side l t with
      | .error st => .error st
      | .ok (s2, rest) => .ok (s2, (i, h, bs) :: rest)

/-- FP32 words of bytes. -/
def fpWords (bs : List Byte) (n : Nat) : List Word := (List.range n).map fun i => BitVec.ofNat 32 (natOfBytes ((bs.drop (4 * i)).take 4))

/-- KVPROM (R229). -/
def kvpromBody (f : RForm) : Body := undriftedActive (unlessEmpty fun c s =>
  match c.extent s f.d 3 with
  | some st => .error st
  | none =>
    match c.openContext s f.sa with
    | .error e => .error e
    | .ok (s1, x, e) =>
      let ctl := c.ctl f.sb
      let l := ctlLayer ctl
      let n := ctlCount ctl
      let p := c.even f.sb c.low
      let side := (c.rdPair f.d.toNat c.low).toNat
      let la := c.lowReg (f.d.toNat + 2)
      match firstStop [c.capOk s1 x .write (decide (l ≤ e.nlayer) && decide (n ≤ 64) && posIn x e p n),
                       c.spOperand s1 1 n la] with
      | some st => .error st
      | none =>
        let ks := (c.spGet s1 la n).map fun b => b.toNat
        if ks.any fun k => 63 < k then .error (c.attCap s1 x 3)
        else
          let hs := List.range (e.nhead + 1)
          let keys := ((List.range n).flatMap fun i => hs.map fun h => (h, (p + i) / 64)).dedup
          match c.blocks s1 e l keys true false with
          | .error st => .error st
          | .ok (s2, rs) =>
            match c.nodes s2 e side l ((List.range n).flatMap fun i => hs.map fun h => (i, ks.getD i 0, h)) with
            | .error st => .error st
            | .ok (s3, nodes) =>
              let spans := ((List.zip keys rs).flatMap fun t => t.2.spans e t.1.1 false) ++ s3.nodeSpans e side l (ks.take n)
              match c.fabric s3 e spans with
              | .error st => .error st
              | .ok s4 =>
                match c.leave s4 with
                | .error st => .error st
                | .ok s5 =>
                  let res := fun (h b : Nat) => (((List.zip keys rs).find? fun t => t.1 == (h, b)).map fun t => t.2).getD { code := 1 }
                  .ok { s := nodes.foldl (fun t nd =>
                          let w := fpWords nd.2.2 (2 * e.d)
                          appendAll t e ((p + nd.1) % 64)
                            [(nd.2.1, res nd.2.1 ((p + nd.1) / 64), w.take e.d, w.drop e.d)]) s5,
                        move := .yield })
/-- KVPROM (R229). -/
def execKvprom (p : Pfx) (f : RForm) (s : State) : Outcome := runGroup (.kvprom p f) s (kvpromBody f)

end Sys2Proof.Machine
end

