-- ==== Sys2Proof/Machine/Place.lean ====
section
/-! DEFINITION. Gust slots and register storage of a bank (spec/01 R14, R26, spec/11 R322, spec/13 R372), and the launch values
of a gust (spec/01 R11). -/

namespace Sys2Proof.Machine

/-- The bytes of register bank that a gust commits (R26). -/
def commitBytes (alloc gbud : Nat) : Nat := 128 * gbud + 8 * (alloc - gbud) + alloc / 4

/-- The bytes of a register bank (R14). -/
def bankBytes : Nat := 524288

/-- The gusts in a bank of a core: bank 0 active, 1 shadow (R354). -/
def State.bankGusts (s : State) (core bank : Nat) : List (Nat × Gust) :=
  s.gusts.filter fun e => e.1 / 64 == core * 2 + bank

/-- The gust slots of a bank in use, with the slots of twins (R372). -/
def State.slotsUsed (s : State) (core bank : Nat) : List Nat :=
  (s.bankGusts core bank).flatMap fun e => (e.1 % 64) :: e.2.twin.toList

/-- The bytes of a bank that its gusts commit (R26, R372). -/
def State.committed (s : State) (core bank : Nat) : Nat :=
  ((s.bankGusts core bank).map fun e =>
    (if e.2.twin.isSome then 2 else 1) * commitBytes e.2.alloc e.2.gbud).sum

/-- How many gust slots of a quadrant are in use. -/
def inQuad (used : List Nat) (q : Nat) : Nat := (used.filter fun n => n / 16 == q).length

/-- The quadrant of a list with the fewest resident gusts, the first on a tie (R322). -/
def fewest (used : List Nat) : List Nat → Option Nat
  | [] => none
  | q :: qs =>
    match fewest used qs with
    | none => some q
    | some r => if inQuad used q ≤ inQuad used r then some q else some r

/-- A gust slot of a bank for one more gust, and the slot of its twin (R129, R322, R372): the quadrant with the fewest
resident gusts, its lowest free slot. -/
def freeSlot (used : List Nat) (twin : Bool) : Option (Nat × Option Nat) :=
  if twin then
    (fewest used [0, 2]).bind fun q =>
      ((List.range 16).find? fun i => !used.contains (16 * q + i) && !used.contains (16 * (q + 1) + i)).map fun i =>
        (16 * q + i, some (16 * (q + 1) + i))
  else
    (fewest used [0, 1, 2, 3]).bind fun q =>
      ((List.range 16).find? fun i => !used.contains (16 * q + i)).map fun i => (16 * q + i, none)

/-- Whether the uncommitted bytes of a bank cover one more gust (R26, R372). -/
def State.bankCovers (s : State) (core bank alloc gbud : Nat) (twin : Bool) : Bool :=
  decide (s.committed core bank + (if twin then 2 else 1) * commitBytes alloc gbud ≤ bankBytes)

/-- A gust at its launch (R11): slot A at the entry, its frame and its save area free values (log 8). -/
def launchGust (front gustId alloc gbud : Nat) (entry : BitVec 56) (lmask : Word) (members : List (BitVec 16))
    (frame : Nat) (twin : Option Nat) : Gust where
  gustId := gustId
  front := front
  a := { pc := entry, mask := lmask }
  alloc := alloc
  gbud := gbud
  lmask := lmask
  members := members
  frame := BitVec.ofNat 56 (frame * 1024)
  saveArea := 64 * Config.saveArea frame
  twin := twin

end Sys2Proof.Machine
end

