-- ==== Sys2Proof/Machine/Control.lean ====
section
/-! DEFINITION. Control flow and gust management: branches, calls, divergence, EXIT, SPAWN, REGROUP (spec/05 R120 to R132). -/

namespace Sys2Proof.Machine

/-! ## Branches (R122) -/

/-- The target of a B-format branch (R77), modulo 2^56 (log 44). -/
def Ctx.target (c : Ctx) (off : BitVec 20) : BitVec 56 := c.pc + off.signExtend 56 * 4

/-- BRA (R122). -/
def braBody (f : BForm) : Body := fun c s => .ok { s := s, pc := some (c.target f.off), move := .control }
/-- BRA (R122). -/
def execBra (p : Pfx) (f : BForm) (s : State) : Outcome := runGroup (.bra p f) s (braBody f)

/-- The condition of BRC (R86) on a mask s of the slot's mask m. -/
def brcTaken (cond : Nat) (s m : Word) : Bool :=
  match cond with
  | 0 => s != 0
  | 1 => s == m
  | 2 => s == 0
  | _ => s != m

/-- BRC (R122). -/
def brcBody (f : BForm) : Body := fun c s =>
  let taken := brcTaken f.c.toNat (c.g.maskReg f.mr.toNat &&& c.smask) c.smask
  .ok { s := s, pc := some (if taken then c.target f.off else c.next), move := .control }
/-- BRC (R122). -/
def execBrc (p : Pfx) (f : BForm) (s : State) : Outcome := runGroup (.brc p f) s (brcBody f)

/-! ## BRD (R124) -/

/-- The 16-byte store of a push to FRAME + 16·DSP (R40), or the fault that it raises at the BRD. -/
def pushSlot (c : Ctx) (s : State) (y : Slot) : Except Stop State :=
  let va := c.g.stackAddr c.g.dsp
  let fr := s.frontOf c.g
  let (s1, x?) := s.translate s.curCore fr.part fr.asid va
  match laneFault s1 .store 16 va 0 x? [] with
  | some f =>
    .error (.fault s1 { code := f.code, cause := f.cause, xmask := c.smask,
                        xaddr := some (lanes.map fun l => if inMask c.smask l then BitVec.ofNat 64 va else 0) })
  | none =>
    match x? with
    | some x => .ok (s1.storeBytes (x.domain va) (recordBytes y))
    | none => .ok s1

/-- The slot that a split gives the taken path (R124); a wait of the other slot that its own event ends goes on in the
slot, and the path that takes the slot runs after it. -/
def takenSlot (y : Slot) (target : BitVec 56) (t : Word) (join : BitVec 56) : Slot :=
  match y.wait with
  | some w =>
    if w.byEvent then { pc := y.pc, mask := t, join := join, wait := some w, waitNext := target, pages := y.pages }
    else { pc := target, mask := t, join := join }
  | none => { pc := target, mask := t, join := join }

/-- The replay of the path that a push puts on the stack goes with it (R193); one whose group has issued, and waits for an
event, stays with that wait. -/
def Gust.pushedReplay (g : Gust) (b : Bool) : Gust :=
  if ((g.slot b).wait.map Wait.byEvent) = some true ∨ (g.replayOf b).isNone then g else g.pushReplay b g.dsp

/-- A split (R124): the taken path in slot Y, the rest in X; the state holds the pushed record already. -/
def splitSlots (c : Ctx) (s : State) (push : Bool) (f t : Word) (target join : BitVec 56) : Except Stop Done :=
  let g1 := if push then { c.g.pushedReplay (!c.b) with dsp := c.g.dsp + 1, frozen := false } else c.g
  let y := if push then takenSlot (g1.slot (!c.b)) target t join else { pc := target, mask := t, join := join }
  let x := { g1.slot c.b with mask := f, join := join }
  .ok { s := s.putGust ((g1.setSlot (!c.b) y).setSlot c.b x), move := .both }

/-- BRD (R124). -/
def brdBody (f : BForm) : Body := fun c s =>
  let m := c.g.maskReg f.mr.toNat
  let t := c.smask &&& (if f.c = 0 then m else ~~~m)
  let rest := c.smask &&& ~~~t
  let join := c.pc + c.i.view.p.eff.aux.signExtend 56 * 4
  if t = 0 then .ok { s := s, move := .control }
  else if rest = 0 then .ok { s := s, pc := some (c.target f.off), move := .control }
  else
    let y := c.g.slot (!c.b)
    if !y.live then splitSlots c s false rest t (c.target f.off) join
    else if 64 ≤ c.g.dsp then .error (c.fault s 0x05 0)
    else
      match pushSlot c s y with
      | .error e => .error e
      | .ok s1 => splitSlots c s1 true rest t (c.target f.off) join
/-- BRD (R124). -/
def execBrd (p : Pfx) (f : BForm) (s : State) : Outcome := runGroup (.brd p f) s (brdBody f)

/-! ## Calls (R123) -/

/-- CALL (R123). -/
def callBody (f : BForm) : Body := fun c s =>
  if !(c.g.runOk (118, 2)) then .error (c.fault s 0x02 1)
  else
    match c.g.runDrift (118, 2) with
    | some y => .error (.wait s (.drift y))
    | none =>
      let r : DWord := c.next.zeroExtend 64
      match wrAll c s [(118, .u r.lo), (119, .u r.hi)] with
      | .error e => .error e
      | .ok (s1, _) => .ok { s := s1, pc := some (c.target f.off), move := .control }
/-- CALL (R123). -/
def execCall (p : Pfx) (f : BForm) (s : State) : Outcome := runGroup (.call p f) s (callBody f)

/-- RET and JMPR (R123): a misaligned target faults here; one outside the virtual address space is the fetch fault of the
target group, with its address in every lane of XADDR (R358). -/
def jumpBody (sa : BitVec 7) : Body := undrifted fun c s =>
  let t := c.rd64 sa c.low
  if t.extractLsb' 0 2 != (0 : BitVec 2) then
    .error (.fault s { code := 0x06, cause := 4, xmask := c.smask,
                       xaddr := some (lanes.map fun l => if inMask c.smask l then t else 0) })
  else if t.extractLsb' 56 8 != (0 : BitVec 8) then
    let x := { (c.g.slot c.b).noLatches with pc := t.truncate 56 }
    .error (.fault (s.putGust (c.g.setSlot c.b x)) { code := 0x08, cause := 1, xmask := c.smask,
                                                     xaddr := some (lanes.map fun _ => t) })
  else .ok { s := s, pc := some (t.truncate 56), move := .control }
/-- RET (R123). -/
def execRet (p : Pfx) (f : RForm) (s : State) : Outcome := runGroup (.ret p f) s (jumpBody f.sa)
/-- JMPR (R123). -/
def execJmpr (p : Pfx) (f : RForm) (s : State) : Outcome := runGroup (.jmpr p f) s (jumpBody f.sa)

/-! ## RECON and EXIT -/

/-- RECON (R126). -/
def execRecon (p : Pfx) (f : RForm) (s : State) : Outcome :=
  runGroup (.recon p f) s fun _ s => .ok { s := s, move := .control }

/-- EXIT (R127): the slot's mask becomes 0; Settle follows. -/
def exitBody : Body := fun c s =>
  .ok { s := s.putGust (c.g.setSlot c.b { c.g.slot c.b with mask := 0 }), move := .control }
/-- EXIT (R127). -/
def execExit (p : Pfx) (f : RForm) (s : State) : Outcome := runGroup (.exit p f) s exitBody

/-! ## SPAWN (R129) -/

/-- The values and tags of the spawner's block (R129). -/
def spawnBlock (c : Ctx) (sa : BitVec 7) : List Val := (List.range 8).map fun j => c.g.reg (sa.toNat + j)

/-- The membership slots that AUX[7:4] selects (R82). -/
def Ctx.spawnSlots (c : Ctx) : List Nat :=
  let a := (c.i.view.p.eff.aux.extractLsb' 4 4).toNat
  [0, 1, 2, 3].filter fun k => a / 2 ^ k % 2 == 1

/-- Whether a membership slot names an open cohort of the front (R129). -/
def Front.openSlot (fr : Front) (g : Gust) (k : Nat) : Bool :=
  match g.memberOf k with
  | none => false
  | some i => match fr.cohorts[i]? with | some c => c.isOpen | none => false

/-- SPAWN's status (R129, Table 4), and the gust slot for the new gust. -/
def spawnStatus (c : Ctx) (s : State) (blk : List Val) (entry : DWord) : Nat × Option (Nat × Option Nat) :=
  let fr := s.frontOf c.g
  let at' := freeSlot (s.slotsUsed s.curCore 0) c.g.twin.isSome
  let st :=
    if at'.isNone then 1
    else if !(s.bankCovers s.curCore 0 c.g.alloc c.g.gbud c.g.twin.isSome)
        || decide (c.g.gbud < (blk.filter Val.wide).length) then 2
    else if 65535 < fr.spawn then 3
    else if entry.extractLsb' 0 2 != (0 : BitVec 2) then 4
    else if c.spawnSlots.any fun k => !(fr.openSlot c.g k) then 5
    else 0
  (st, at')

/-- A join of a cohort of gust g's front (R140): E rises at once. -/
def State.join (s : State) (g : Gust) (cohort : Nat) : State :=
  match s.cohortCounter g cohort with
  | none => s
  | some (d, n) =>
    match s.counter? d n with
    | none => s
    | some x => s.setCounter d n { x with e := x.e + 1 }

/-- Creates the new gust of a SPAWN (R129). Bits 63 to 56 of the entry pair are dropped (log 45). -/
def createSpawned (c : Ctx) (s : State) (blk : List Val) (entry : DWord) (at' : Nat × Option Nat) : State :=
  let fr := s.frontOf c.g
  let (frame, s1) := s.freshNat
  let joins := c.spawnSlots
  let members := [0, 1, 2, 3].map fun k => if joins.contains k then c.g.members.getD k 0 else 0
  let g0 := launchGust c.g.front fr.spawn c.g.alloc c.g.gbud (entry.truncate 56) 0xFFFFFFFF members frame at'.2
  let g1 := { g0 with regs := (List.range 8).map fun j => (j, blk.getD j (.u 0)) }
  let s2 := (s1.setGust (s.curCore * 128 + at'.1) g1).setFront c.g.front { fr with spawn := fr.spawn + 1 }
  joins.foldl (fun t k => match c.g.memberOf k with | some i => t.join c.g i | none => t) s2

/-- SPAWN (R129). -/
def spawnBody (f : RForm) : Body := undrifted fun c s =>
  let blk := spawnBlock c f.sa
  let entry := c.rd64 f.sb c.low
  let (st, at') := spawnStatus c s blk entry
  match putResult c s f.d (.u (BitVec.ofNat 32 st)) with
  | .error e => .error e
  | .ok r =>
    match st, at' with
    | 0, some a => .ok { r with s := createSpawned c r.s blk entry a, move := .yield }
    | _, _ => .ok { r with move := .yield }
/-- SPAWN (R129). -/
def execSpawn (p : Pfx) (f : RForm) (s : State) : Outcome := runGroup (.spawn p f) s (spawnBody f)

/-! ## Arriving and waiting at a barrier -/

/-- Whether an operation of the group's gust has still to be applied (R135, R136). -/
def Ctx.unitHolds (c : Ctx) (s : State) : Bool := !c.g.unitOps.isEmpty || !(s.heldAt s.cur).isEmpty

/-- The counter of a cohort of a gust's front, when the unit has it. -/
def State.liveCounter (s : State) (g : Gust) (i : Nat) : Option (Nat × Nat) :=
  match s.cohortCounter g i with
  | some (d, n) => if (s.counter? d n).isSome then some (d, n) else none
  | none => none

/-- A gust arrives and waits (R134): kind 0 BAR, 2 REGROUP. In DRAIN, or behind a held arrival of its own, it waits for its
arrival to be applied first, and then for the phase. -/
def arriveWaiting (c : Ctx) (s : State) (die n kind : Nat) : State :=
  (s.setWait c s.cur (.drain die n kind)).unitOp s.cur c.b die n kind

/-! ## REGROUP (R130 to R132) -/

/-- Whether the flag of a REGROUP may be written partially (R130), into a register that counts: D then counts as G until the
flag is written, whatever tag it holds. -/
def Ctx.flagPartial (c : Ctx) (d : BitVec 7) : Bool :=
  !c.w && c.smask != c.g.lmask && !(c.g.inTrapBank d.toNat)

/-- Whether the flag's register raises GCNT (R130): it counts as no G or D yet. -/
def Ctx.flagGrows (c : Ctx) (d : BitVec 7) : Bool :=
  c.flagPartial d && !(c.g.reg d.toNat).wide && !(c.g.reserved (c.g.wb + d.toNat))

/-- The gust with the reservation of a REGROUP's flag (R130). -/
def Ctx.reserveFlag (c : Ctx) (d : BitVec 7) : Gust :=
  let r := (c.b, c.g.wb + d.toNat)
  if c.flagPartial d && !(c.g.flagReserved.contains r) then { c.g with flagReserved := c.g.flagReserved ++ [r] } else c.g

/-- Eligibility (R130), the membership aside. -/
def regroupEligible (g : Gust) (desc : Nat) : Bool :=
  let first := bitsOf desc 14 8
  let count := bitsOf desc 23 16
  (g.a.live != g.b.live) && g.dsp == 0
    && bitsOf desc 7 2 == 0 && bitsOf desc 15 15 == 0 && bitsOf desc 31 24 == 0
    && decide (first + count ≤ 120) && decide (g.wb + first + count ≤ g.alloc)

/-- REGROUP (R130): room for its flag first, then its waits, then its arrival; the pairing belongs to the phase (R131). -/
def regroupBody (f : RForm) : Body := fun c s =>
  if c.flagGrows f.d ∧ c.g.gbud < c.g.gcnt + 1 then .error (c.fault s 0x04 0)
  else
    let g1 := c.reserveFlag f.d
    let s1 := s.putGust g1
    match c.g.driftOf c.b c.i with
    | some y => .error (.wait s1 (.drift y))
    | none =>
      let desc := (c.rd f.sa c.low).toNat
      match (c.g.memberOf (bitsOf desc 1 0)).bind (s.liveCounter c.g ·) with
      | none =>
        let c1 : Ctx := { c with g := g1.dropSlot c.b }
        match putResult c1 s f.d (.u 2) with
        | .error e => .error e
        | .ok r => .ok { r with move := .yield }
      | some (die, n) =>
        if !(c.g.noDrift && c.g.posted.all fun p => p.counter.isNone) then .error (.wait s1 .quiet)
        else if !(s.accessesDone s.cur c.g 2) then .error (.wait s1 (.fence 2 []))
        else
          let rg : Regroup :=
            { slotB := c.b, mask := c.smask, window := c.g.window, dest := if c.w then none else some f.d.toNat,
              first := bitsOf desc 14 8, count := bitsOf desc 23 16, eligible := regroupEligible c.g desc }
          .error (.arrived (arriveWaiting c
            (s.putGust { g1 with regroup := (g1.regroup.filter fun r => r.slotB != c.b) ++ [rg] }) die n 2))
/-- REGROUP (R130). -/
def execRegroup (p : Pfx) (f : RForm) (s : State) : Outcome := runGroup (.regroup p f) s (regroupBody f)

end Sys2Proof.Machine
end

