-- ==== Sys2Proof/Machine/Barrier.lean ====
section
/-! DEFINITION. Cohort barriers (spec/05 R134 to R140). -/

namespace Sys2Proof.Machine

/-- BAR (R134, R135): its arrival is a release at die scope (R136), so that it waits for the gust's earlier accesses to be
performed at die scope first. -/
def barBody (slot : BitVec 7) : Body := fun c s =>
  match (c.g.memberOf slot.toNat).bind (s.liveCounter c.g ·) with
  | none => .ok { s := s, move := .yield }
  | some (die, n) =>
    if s.accessesDone s.cur c.g 2 then .error (.arrived (arriveWaiting c s die n 0)) else .error (.wait s (.fence 2 []))
/-- BAR (R134). -/
def execBar (p : Pfx) (f : RForm) (s : State) : Outcome := runGroup (.bar p f) s (barBody f.sa)

/-- BARARR (R134, R135): the gust continues. -/
def bararrBody (slot : BitVec 7) : Body := fun c s =>
  match (c.g.memberOf slot.toNat).bind (s.liveCounter c.g ·) with
  | none => .ok { s := s }
  | some (die, n) => .ok { s := s.unitOp s.cur c.b die n 1 }
/-- BARARR (R134). -/
def execBararr (p : Pfx) (f : RForm) (s : State) : Outcome := runGroup (.bararr p f) s (bararrBody f.sa)

/-- BARWT (R134, R135): behind a held arrival of its own it waits; in DRAIN it takes one match; in OPEN with a split arrival
pending it waits for the phase. -/
def barwtBody (slot : BitVec 7) : Body := fun c s =>
  match (c.g.memberOf slot.toNat).bind (s.liveCounter c.g ·) with
  | none => .ok { s := s, move := .yield }
  | some (die, n) =>
    match s.counter? die n with
    | none => .ok { s := s, move := .yield }
    | some x =>
      if c.unitHolds s then .error (.wait s (.held die n))
      else if x.drain then
        let s1 := (s.setCounter die n { x with s := x.s - 1 }).counterStep die n false (2 * x.held.length + 4)
        .ok { s := if x.held.isEmpty then s1 else s1.settleUnits, move := .yield }
      else if x.s = 0 then .ok { s := s, move := .yield }
      else
        .error (.arrived ((s.setWait c s.cur (.barrier die n 1)).setCounter die n
          { x with waiters := x.waiters ++ [(s.cur, c.b, 1)] }))
/-- BARWT (R134). -/
def execBarwt (p : Pfx) (f : RForm) (s : State) : Outcome := runGroup (.barwt p f) s (barwtBody f.sa)

/-- Whether a cohort of a front is open. -/
def Front.isOpen (fr : Front) (i : Nat) : Bool := match fr.cohorts[i]? with | some c => c.isOpen | none => false

/-- CLEAVE (R138): a departure, and the slot is no longer valid; nothing for a closed cohort. -/
def cleaveBody (slot : BitVec 7) : Body := fun c s =>
  match c.g.memberOf slot.toNat with
  | none => .ok { s := s }
  | some i =>
    if (s.frontOf c.g).isOpen i then
      let g1 := { c.g with members := listSet c.g.members slot.toNat (c.g.members.getD slot.toNat 0 &&& 0x7FFF) }
      .ok { s := (s.putGust g1).depart s.cur c.g slot.toNat }
    else .ok { s := s }
/-- CLEAVE (R138). -/
def execCleave (p : Pfx) (f : RForm) (s : State) : Outcome := runGroup (.cleave p f) s (cleaveBody f.sa)

/-- The lowest free membership slot. -/
def Gust.freeMember (g : Gust) : Option Nat := [0, 1, 2, 3].find? fun k => (g.memberOf k).isNone

/-- CJOIN's status (R139, Table 7). -/
def cjoinStatus (fr : Front) (g : Gust) (i : Nat) : Nat :=
  if fr.cohorts.length ≤ i then 7
  else if !(fr.isOpen i) then 5
  else if [0, 1, 2, 3].any fun k => g.memberOf k == some i then 6
  else match g.freeMember with
    | none => 4
    | some k => k

/-- CJOIN's join (R140): behind the gust's operations that the unit has still to apply (R135), at once otherwise. -/
def State.joinAs (s : State) (c : Ctx) (cohort : Nat) : State :=
  match s.liveCounter c.g cohort with
  | none => s
  | some (d, n) => if c.unitHolds s then s.unitOp s.cur c.b d n 4 else s.join c.g cohort

/-- CJOIN (R139, R140). -/
def cjoinBody (f : RForm) : Body := undrifted fun c s =>
  let i := (c.rd f.sa c.low).toNat % 256
  let st := cjoinStatus (s.frontOf c.g) c.g i
  let g1 := if st < 4 then { c.g with members := listSet c.g.members st (BitVec.ofNat 16 (0x8000 + i)) } else c.g
  match putResult { c with g := g1 } s f.d (.u (BitVec.ofNat 32 st)) with
  | .error (.fault _ r) => .error (.fault s r)
  | .error e => .error e
  | .ok r => .ok { r with s := if st < 4 then r.s.joinAs c i else r.s }
/-- CJOIN (R139). -/
def execCjoin (p : Pfx) (f : RForm) (s : State) : Outcome := runGroup (.cjoin p f) s (cjoinBody f)

end Sys2Proof.Machine
end

