-- ==== Sys2Proof/Machine/Clock.lean ====
section
/-! DEFINITION. The PTP clock (spec/12 R356). -/

namespace Sys2Proof.Machine

/-- PTPSTAT changed, with MSI-X vector 3 of each function when its value differs (R350). -/
def State.setPtp (s : State) (v : BitVec 3) : State :=
  if v = s.hub.ptpStat then s else { s with hub := { s.hub with ptpStat := v } }.msiAll 3

/-- PTPSTAT for an offset that remains, out of holdover; stepped says that a step has been applied. -/
def ptpFor (old : BitVec 3) (offset : Int) (stepped : Bool) : BitVec 3 :=
  (if offset.natAbs < 100 then 1 else 0) ||| (old &&& 4) ||| (if stepped then 4 else 0)

/-- PTP_SYNC (R356): a Sync message has measured that NOW must gain input.offset ns: one forward step above 1 ms while no
schedule entry is valid, otherwise a slew. -/
def execPtpSync (s : State) : Outcome :=
  let x := s.input.offset
  if 1000000 < x ∧ !(s.sched.any fun e => e.2.valid) then
    let s1 := s.toNow (s.hub.now.toNat + x.toNat)
    .next ({ s1 with hub := { s1.hub with slew := 0, lastSync := s1.hub.now.toNat } }.setPtp (ptpFor s.hub.ptpStat 0 true))
  else
    .next ({ s with hub := { s.hub with slew := x, lastSync := s.hub.now.toNat } }.setPtp (ptpFor s.hub.ptpStat x false))

/-- PTP_HOLDOVER (R356): no Sync message for 4 s. -/
def execPtpHoldover (s : State) : Outcome :=
  if s.hub.ptpStat.getLsbD 1 ∨ s.hub.now.toNat < s.hub.lastSync + 4000000000 then .refused .noSuchEvent
  else .next (s.setPtp (s.hub.ptpStat ||| 2))

end Sys2Proof.Machine
end

