-- ==== Sys2Proof/Machine/Window.lean ====
section
/-! DEFINITION. The on-chip window (spec/12 R354, R355). -/

namespace Sys2Proof.Machine

/-- Where a byte of the on-chip window lies (R354, Table 9). -/
inductive WinPlace where
  | reg (gust n lane byte : Nat)
  | trap (gust n lane byte : Nat)
  | scratch (core a : Nat)
  | accum (core a : Nat)
  deriving DecidableEq, Repr

/-- The place of a byte offset of the on-chip window; none where it is not populated (R354). -/
def winPlace (off : Nat) : Option WinPlace :=
  let core := off / 0x1000000
  let o := off % 0x1000000
  if 320 ≤ core then none
  else if o < 0x800000 then some (.reg (core * 128 + o / 0x10000) (o % 0x10000 / 128) (o % 128 / 4) (o % 4))
  else if o < 0x840000 then
    let t := o - 0x800000
    some (.trap (core * 128 + t / 0x800) (t % 0x800 / 128) (t % 128 / 4) (t % 4))
  else if 0xC00000 ≤ o ∧ o < 0xC00000 + scratchSize core then some (.scratch core (o - 0xC00000))
  else if 0xE00000 ≤ o ∧ o < 0xE00000 + accumSize core then some (.accum core (o - 0xE00000))
  else none

/-- Byte b of a word. -/
def byteOf (w : Word) (b : Nat) : Byte := BitVec.ofNat 8 (w.toNat / 2 ^ (8 * b))
/-- A word with byte b replaced. -/
def setByteOf (w : Word) (b : Nat) (v : Byte) : Word :=
  BitVec.ofNat 32 (w.toNat - (byteOf w b).toNat * 2 ^ (8 * b) + v.toNat * 2 ^ (8 * b))

/-- Whether a value is a drift record. -/
def Val.isD : Val → Bool
  | .d _ _ => true
  | _ => false

/-- The gust in a gust slot, with its key and whether the slot is that of its twin (R354, R372). -/
def State.slotGust? (s : State) (k : Nat) : Option (Nat × Bool × Gust) :=
  match s.gust? k with
  | some g => some (k, false, g)
  | none => (s.gusts.find? fun e => e.1 / 64 == k / 64 && e.2.twin == some (k % 64)).map fun e => (e.1, true, e.2)

/-- Whether the record of a twinned gust, or of its twin, stands in State.twins at the moment. -/
def State.aside (s : State) (twin : Bool) (g : Gust) : Bool := g.twin.isSome && twin != s.twinRun

/-- The gust whose registers a gust slot holds. -/
def State.winGust? (s : State) (k : Nat) : Option Gust :=
  (s.slotGust? k).map fun e => if s.aside e.2.1 e.2.2 then tabGetD s.twins e.1 e.2.2 else e.2.2

/-- The registers that a gust slot holds changed. -/
def State.setWinGust (s : State) (k : Nat) (g : Gust) : State :=
  match s.slotGust? k with
  | some (p, twin, h) => if s.aside twin h then { s with twins := tabSet s.twins p g } else s.setGust p g
  | none => s

/-- A byte read through the window (R355); none: the access is refused. -/
def State.winRead (s : State) (off : Nat) : Option Byte :=
  match winPlace off with
  | none => none
  | some (.reg k n l b) =>
    match s.winGust? k with
    | none => none
    | some g =>
      let v := tabGetD g.regs n (.u 0)
      if g.alloc ≤ n || v.isD then none else some (byteOf (g.lane v l) b)
  | some (.trap k n l b) =>
    match s.winGust? k with
    | none => none
    | some g =>
      let v := tabGetD g.trapBank n (.u 0)
      if v.isD then none else some (byteOf (g.lane v l) b)
  | some (.scratch c a) => some (memGet (s.core c).scratch a)
  | some (.accum c a) => some (memGet (s.core c).accum a)

/-- A byte written through the window (R355): a register becomes G, GCNT rises when needed, its capability tag is cleared;
none: the access is refused. -/
def State.winWrite (s : State) (off : Nat) (x : Byte) : Option State :=
  match winPlace off with
  | none => none
  | some (.reg k n l b) =>
    match s.winGust? k with
    | none => none
    | some g =>
      let v := tabGetD g.regs n (.u 0)
      if g.alloc ≤ n || v.isD || (!v.wide && decide (g.gbud < g.gcnt + 1)) then none
      else
        let w := g.mkG fun j => if j = l then setByteOf (g.lane v l) b x else g.lane v j
        some (s.setWinGust k { g with regs := tabSet g.regs n w, capTags := g.capTags.filter (· != n / 4) })
  | some (.trap k n l b) =>
    match s.winGust? k with
    | none => none
    | some g =>
      let v := tabGetD g.trapBank n (.u 0)
      if v.isD then none
      else
        let w := g.mkG fun j => if j = l then setByteOf (g.lane v l) b x else g.lane v j
        some (s.setWinGust k { g with trapBank := tabSet g.trapBank n w, trapCapTags := g.trapCapTags.filter (· != n / 4) })
  | some (.scratch c a) => some (s.setCore c { s.core c with scratch := memSet (s.core c).scratch a x })
  | some (.accum c a) => some (s.setCore c { s.core c with accum := memSet (s.core c).accum a x })

/-- Bytes read through the window. -/
def State.winReads (s : State) (off : Nat) : Nat → Option (List Byte)
  | 0 => some []
  | n + 1 =>
    match s.winRead off, s.winReads (off + 1) n with
    | some b, some bs => some (b :: bs)
    | _, _ => none

/-- Bytes written through the window: all or none (R355). -/
def State.winWrites (s : State) (off : Nat) : List Byte → Option State
  | [] => some s
  | b :: bs =>
    match s.winWrite off b with
    | some t => t.winWrites (off + 1) bs
    | none => none

end Sys2Proof.Machine
end

