-- ==== Sys2Proof/Machine/Engine.lean ====
section
/-! DEFINITION. Engine contexts at work (spec/07 R195, R200 to R203, spec/11 R326 to R328): how commands start, ask for leave,
fault and complete; how engines reach memory, scratchpads and the on-chip window. -/

namespace Sys2Proof.Machine

/-! ## Jobs -/

/-- A command of an engine context with the front that pushed it. -/
structure Job where
  key : Nat
  eng : Eng
  fr : Front
  cmd : Cmd
  deriving DecidableEq, Repr

/-- The n-byte field at an offset of the command's record (R201). -/
def Job.f (j : Job) (off n : Nat) : Nat := cmdField j.cmd.bytes off n
/-- The command's type (R201, Table 3). -/
def Job.type (j : Job) : Nat := j.f 0 1
/-- The die of the pushing core. -/
def Job.die (j : Job) : Nat := dieOf j.cmd.core

/-- The command num of a list of commands. -/
def findCmd (cs : List Cmd) (num : Nat) : Option Cmd := cs.find? fun c => c.num == num

/-- The started command num of a context. -/
def Eng.run? (e : Eng) (num : Nat) : Option Started := e.started.find? fun x => x.cmd.num == num

/-- A command of a context as a job. -/
def State.job? (s : State) (key : Nat) (c : Cmd) : Option Job :=
  match s.eng? key with
  | none => none
  | some e => (s.front? e.front).map fun fr => { key := key, eng := e, fr := fr, cmd := c }

/-- Changes a started command. -/
def State.modStarted (s : State) (key num : Nat) (f : Started → Started) : State :=
  match s.eng? key with
  | none => s
  | some e => s.setEng key { e with started := e.started.map fun x => if x.cmd.num == num then f x else x }

/-- The scoreboard entry and the task of a command are freed (R198). -/
def State.freeCommand (s : State) (key num : Nat) : State :=
  { s with cores := s.cores.map fun c => (c.1,
      { c.2 with rsb := c.2.rsb.filter fun r => !(r.eng == key && r.num == num),
                 tasks := c.2.tasks.filter fun t => !(t.1 == key && t.2 == num) }) }

/-! ## Command faults (R200) -/

/-- Why a command faults: the first offending field, the class and code of its record (13 Table 7), the address that it
names with its kind, and, for a loop queue, the queue. -/
structure CmdFault where
  off : Nat
  cls : Nat := 0x01
  code : Nat := 0x0010
  akind : Nat := 0
  addr : Nat := 0
  queue : Option Nat := none
  deriving DecidableEq, Repr

/-- The fault with the smallest offset (R200: the first offending field). -/
def firstFault : List (Option CmdFault) → Option CmdFault
  | [] => none
  | none :: t => firstFault t
  | some f :: t =>
    match firstFault t with
    | none => some f
    | some g => if g.off < f.off then some g else some f

/-- A field check: the fault at an offset unless the field is in its range. -/
def fieldOk (off : Nat) (ok : Bool) : Option CmdFault := if ok then none else some { off := off }

/-- The first nonzero byte of a run of reserved bytes (R200, R213). -/
def reservedFault (bs : List Byte) (off n : Nat) : Option CmdFault :=
  ((List.range n).find? fun i => bs.getD (off + i) 0 != 0).map fun i => { off := off + i }

/-- The checks of the common fields (R201, Table 3), and the reserved runs of the type. -/
def Job.common (j : Job) (gaps : List (Nat × Nat)) : List (Option CmdFault) :=
  fieldOk 1 (j.f 1 1 < 2) :: (gaps.map fun r => reservedFault j.cmd.bytes r.1 r.2) ++ [reservedFault j.cmd.bytes 2 2]

/-- The check of an address field (R201, Table 4; R203). -/
def Job.addrOk (j : Job) (off : Nat) : Option CmdFault :=
  let v := j.f off 8
  if bitsOf v 63 58 ≠ 0 ∨ bitsOf v 57 56 = 3 then some { off := off }
  else if bitsOf v 57 56 = 2 ∧ !j.cmd.supervisor then some { off := off, cls := 0x02 }
  else if bitsOf v 57 56 = 1 ∧ j.fr.scratch ≤ bitsOf v 55 0 then some { off := off, cls := 0x02 }
  else none

/-- The engine of a matrix task that has been issued (R326). -/
def Job.engine (j : Job) : Nat := ((j.eng.run? j.cmd.num).map fun x => x.engine).getD 0

/-- The unit, die, instance and context of a job in a record (R374); the instance of a matrix engine is its number in its core
(log 55). -/
def Job.unit (j : Job) : Nat × Nat × Nat × Nat :=
  match j.eng.cls with
  | 0 => (1, j.die, j.engine, j.key % 16)
  | 1 => (2, j.die, (j.key - 5120) % 256 / 8, (j.key - 5120) % 256)
  | 2 => (3, 4, 0, j.eng.ctx)
  | _ => (4, 4, 0, j.eng.ctx)

/-- A command faults (R200): it has no further effect, its context becomes faulted, its commands that have not started are
discarded, and one record with recovery action 10 is written. -/
def State.commandFault (s : State) (j : Job) (f : CmdFault) : State :=
  let s1 := (s.discardQueue j.key).freeCommand j.key j.cmd.num
  let s2 :=
    match s1.eng? j.key with
    | none => s1
    | some e => s1.setEng j.key { e with faulted := true, started := e.started.filter fun x => x.cmd.num != j.cmd.num }
  let u := j.unit
  s2.record { cls := f.cls, code := f.code, action := 10, part := j.fr.part, akind := f.akind, unit := u.1, die := u.2.1,
              num := u.2.2.1, ctx := u.2.2.2, asid := j.fr.asid, front := j.fr.frontId.toNat, addr := f.addr,
              detail := bytesOf 2 (f.queue.getD f.off) ++ [0, 0] ++ bytesOf 4 (j.f 4 4), user := j.fr.user.toNat }

/-! ## How engines reach memory -/

/-- Where a byte of an address space of Table 4 lies: memory, a scratchpad, the on-chip window. -/
inductive EPlace where
  | mem (d : Nat)
  | scratch (core a : Nat)
  | win (off : Nat)
  deriving DecidableEq, Repr

/-- A place n bytes on. -/
def EPlace.plus (p : EPlace) (n : Nat) : EPlace :=
  match p with
  | .mem d => .mem (d + n)
  | .scratch c a => .scratch c (a + n)
  | .win o => .win (o + n)

/-- Whether two runs of n bytes share one. -/
def EPlace.meets (p q : EPlace) (n m : Nat) : Bool :=
  match p, q with
  | .mem a, .mem b => decide (a < b + m) && decide (b < a + n)
  | .scratch c a, .scratch d b => c == d && decide (a < b + m) && decide (b < a + n)
  | .win a, .win b => decide (a < b + m) && decide (b < a + n)
  | _, _ => false

/-- Why an engine cannot access an address (R200, R298, R214). -/
inductive EErr where
  | absent | hbf | perm | poison | feature
  deriving DecidableEq, Repr

/-- The status byte of GATHER and SCATTER (R214); a page that needs a feature which is not accepted is one not permitted (log
57). -/
def EErr.status : EErr → Byte
  | .absent => 1
  | .perm | .feature => 2
  | .poison => 3
  | .hbf => 4

/-- The record's class and code of an access error (13 Table 7, R393). -/
def EErr.fault (e : EErr) (off akind addr : Nat) : CmdFault :=
  match e with
  | .feature => { off := off, akind := akind, addr := addr }
  | .poison => { off := off, cls := 0x06, code := 0x0007, akind := akind, addr := addr }
  | _ => { off := off, cls := 0x02, code := 0x0010, akind := akind, addr := addr }

/-- Translation through the TLB of a die (R294); a stale entry may still be in use: a free choice (log 6). -/
def State.translateEng (s : State) (die q asid va : Nat) : State × Option Xlat :=
  let fillDie := fun (t : State) (x : Xlat) =>
    if x.mig != 0 then t else t.setDie die { t.die die with tlb := tlbFill dieTlb (t.die die).tlb x }
  let walked := fun (t : State) =>
    match t.walkServed q asid va with
    | (t1, some y) => (fillDie t1 y, some y)
    | (t1, none) => (t1, none)
  match tlbHit (s.die die).tlb q asid (s.gen q asid) va with
  | none => walked s
  | some x =>
    if (match s.walk q asid va with | .leaf y _ _ => x == y | _ => false) then (s, some x)
    else
      let (b, s1) := s.freshBool
      if b then (s1, some x) else walked s1

/-- The place of n bytes at an address of the front's virtual space, all on one page, for a read or a write. -/
def State.engVa (s : State) (j : Job) (va n : Nat) (wr : Bool) : State × Except EErr EPlace :=
  if 2 ^ 56 < va + n then (s, .error .absent)
  else
    match s.translateEng j.die j.fr.part j.fr.asid va with
    | (s1, none) => (s1, .error .absent)
    | (s1, some x) =>
      let d := x.domain va
      if s1.lacksFeature x then (s1, .error .feature)
      else if x.mig = 2 ∨ (wr ∧ x.mig ≠ 0) then (s1, .error .absent)
      else if wr ∧ x.tier = 1 then (s1, .error .hbf)
      else if (if wr then !x.w else !x.r) then (s1, .error .perm)
      else if !wr && s1.poisoned d n then (s1, .error .poison)
      else (s1, .ok (.mem d))

/-- The place of n bytes at an offset of a space of Table 4 (R201, R203), all on one page. -/
def State.engPlace (s : State) (j : Job) (space a n : Nat) (wr : Bool) : State × Except EErr EPlace :=
  match space with
  | 0 => s.engVa j a n wr
  | 1 =>
    if j.fr.scratch < a + n then (s, .error .perm)
    else (s, .ok (.scratch j.cmd.core (j.fr.spBase j.cmd.core + a)))
  | _ =>
    let ok := if wr then (s.winWrites a (List.replicate n 0)).isSome else (s.winReads a n).isSome
    if ok then (s, .ok (.win a)) else (s, .error .perm)

/-- Reads n bytes at a place. -/
def State.placeRead (s : State) (p : EPlace) (n : Nat) : List Byte :=
  match p with
  | .mem d => s.readBytes d n
  | .scratch c a => (s.core c).spBytes a n
  | .win o => (s.winReads o n).getD (List.replicate n 0)

/-- Writes bytes at a place (R201: the memory tags of the granules are cleared). -/
def State.placeWrite (s : State) (p : EPlace) (bs : List Byte) : State :=
  match p with
  | .mem d => s.storeBytes d bs
  | .scratch c a => s.setCore c ((s.core c).spSet a bs)
  | .win o => (s.winWrites o bs).getD s

/-- The space of an address field. -/
def Job.space (j : Job) (off : Nat) : Nat := bitsOf (j.f off 8) 57 56
/-- The address of an address field. -/
def Job.addr (j : Job) (off : Nat) : Nat := bitsOf (j.f off 8) 55 0

/-- The kind and the address that a record names for an offset in a space. -/
def spaceAddr (space a : Nat) : Nat × Nat :=
  match space with
  | 0 => (1, a % 2 ^ 56)
  | 1 => (0, 0)
  | _ => (2, 0xD0000000000 + a)

/-- The place of n bytes at an offset in the space of an address field, or the fault that names the field. -/
def State.fieldPlace (s : State) (j : Job) (off : Nat) (a : Int) (n : Nat) (wr : Bool) : State × Except CmdFault EPlace :=
  let sp := j.space off
  let at' := if a < 0 then 2 ^ 56 else a.toNat
  let k := spaceAddr sp at'
  match s.engPlace j sp at' n wr with
  | (s1, .ok p) => (s1, .ok p)
  | (s1, .error e) => (s1, .error (e.fault off k.1 k.2))

/-! ## What a command does -/

/-- What a step of a command's effect gives: its effect is done; it has faulted; it goes on; it cannot go on yet. -/
inductive CmdResult where
  | done (s : State)
  | fault (s : State) (f : CmdFault)
  | partly (s : State)
  | never
  deriving DecidableEq, Repr

/-- The outcome of the event by which a started command of a type takes effect. -/
def runCommand (s : State) (key num type : Nat) (run : Job → Started → State → CmdResult) : Outcome :=
  match s.eng? key with
  | none => .refused .noSuchEvent
  | some e =>
    match e.run? num with
    | none => .refused .noSuchEvent
    | some st =>
      match s.job? key st.cmd with
      | none => .refused .noSuchEvent
      | some j =>
        if st.done || j.type != type then .refused .noSuchEvent
        else
          match run j st s with
          | .done t => .next (t.modStarted key num fun x => { x with done := true })
          | .fault t f => .next (t.commandFault j f)
          | .partly t => .next t
          | .never => .refused .noSuchEvent

/-- A part of a command's effect: the state after it, and its fault. -/
abbrev CmdPart := State → State × Option CmdFault

/-- The parts of a command, by number; single says that they are the single bytes of a move, inOrder that they go in
ascending order. -/
structure Parts where
  single : Bool := false
  inOrder : Bool := false
  count : Nat
  part : Nat → CmdPart

/-- A turn of a copy command (R327): it does one part, of at most 4 KiB, of those that are left; which one is a free value
(log 6), unless they go in order. With the last, its effect is done. -/
def Parts.turn (p : Parts) (j : Job) (st : Started) (s : State) : CmdResult :=
  match (st.left.map fun l => l.2).getD (List.range p.count) with
  | [] => .done s
  | i :: is =>
    let left := i :: is
    let (k, s1) := if p.inOrder || is.isEmpty then (0, s) else s.freshNat
    let n := left.getD (k % left.length) i
    match p.part n s1 with
    | (t, some f) => .fault t f
    | (t, none) =>
      if is.isEmpty then .done t
      else .partly (t.modStarted j.key j.cmd.num fun x => { x with left := some (p.single, left.erase n) })

/-- A command whose fields are in order, or its fault. -/
def checked (fs : List (Option CmdFault)) (s : State) (go : CmdResult) : CmdResult :=
  match firstFault fs with
  | some f => .fault s f
  | none => go

/-! ## Starting a command -/

/-- The types that a class accepts (R194, Table 1). -/
def classAccepts (cls type : Nat) : Bool :=
  match cls with
  | 0 => type == 0x01 || type == 0x02
  | 1 => decide (0x10 ≤ type) && decide (type ≤ 0x19)
  | 2 => type == 0x20
  | _ => type == 0x30

/-- The feature bit that a type needs (R393, Table 3); 0 is always accepted. -/
def typeFeature (type : Nat) : Nat :=
  match type with
  | 0x02 => 11
  | 0x18 => 10
  | 0x19 => 4
  | 0x20 => 6
  | _ => 0

/-- Whether a context accepts a type with the features accepted (R200, R393). -/
def State.typeOk (s : State) (cls type : Nat) : Bool := classAccepts cls type && s.features.getLsbD (typeFeature type)

/-- Where a command's leave request stands: none, waiting, granted. -/
def State.leaveOf (s : State) (die key num : Nat) : Option Bool :=
  ((s.die die).leave.find? fun r => r.eng == key && r.num == num).map fun r => r.granted

/-- Asks the governor for leave (R328). -/
def State.askLeave (s : State) (die : Nat) (r : LeaveReq) : State :=
  s.setDie die { s.die die with leave := (s.die die).leave ++ [r] }

/-- A granted request is used up. -/
def State.useLeave (s : State) (die key num : Nat) : State :=
  s.setDie die { s.die die with leave := (s.die die).leave.filter fun r => !(r.eng == key && r.num == num) }

/-- A command leaves its queue and starts (R194, R195), a matrix task on a task engine of its core (R326); a type that the
context does not accept faults (R200). -/
def State.startCommand (s : State) (j : Job) (engine : Nat) : State :=
  if !(s.typeOk j.eng.cls j.type) then s.commandFault j { off := 0 }
  else
    s.setEng j.key { j.eng with queue := j.eng.queue.filter fun c => c.num != j.cmd.num,
                                started := j.eng.started ++ [{ cmd := j.cmd, engine := engine }] }

/-- A command at the moment it would start (R202, R328): it asks for leave, waits for it, or starts. -/
def State.startWithLeave (s : State) (j : Job) (cost : Nat) : Outcome :=
  if cost = 0 ∨ !(s.typeOk j.eng.cls j.type) then .next (s.startCommand j 0)
  else
    match s.leaveOf j.die j.key j.cmd.num with
    | none => .next (s.askLeave j.die { part := j.fr.part, eng := j.key, num := j.cmd.num, core := j.cmd.core, cost := cost })
    | some false => .refused .noSuchEvent
    | some true => .next ((s.useLeave j.die j.key j.cmd.num).startCommand j 0)

/-- The job at the head of a context's queue, when the context may start it (R195, R327: at most four of a copy context at
once; ORD waits for every earlier command). -/
def State.headJob? (s : State) (key : Nat) : Option Job :=
  match s.eng? key with
  | none => none
  | some e =>
    match e.queue with
    | [] => none
    | c :: _ =>
      if e.faulted || (cmdField c.bytes 1 1 % 2 == 1 && !e.started.isEmpty) || (e.cls == 1 && decide (4 ≤ e.started.length)) then
        none
      else s.job? key c

/-! ## Completion (R195) -/

/-- The timeline after completions: it advances while the next number has completed. -/
def advanceTimeline : Nat → Nat → List Nat → Nat × List Nat
  | 0, t, done => (t, done)
  | n + 1, t, done =>
    if done.contains (t + 1) then advanceTimeline n (t + 1) (done.filter (· != t + 1)) else (t, done)

/-- COMMAND_COMPLETE (R195): a started command whose effect is done completes. -/
def execCommandComplete (key num : Nat) (s : State) : Outcome :=
  match s.eng? key with
  | none => .refused .noSuchEvent
  | some e =>
    match e.run? num with
    | none => .refused .noSuchEvent
    | some st =>
      if !st.done then .refused .noSuchEvent
      else
        let r := advanceTimeline (e.completed.length + 1) e.timeline (e.completed ++ [num])
        .next ((s.setEng key { e with started := e.started.filter (fun x => x.cmd.num != num), timeline := r.1,
                                      completed := r.2 }).freeCommand key num)

/-- Whether a context is idle (R195). -/
def Eng.idle (e : Eng) : Bool := e.queue.isEmpty && e.started.isEmpty

end Sys2Proof.Machine
end

