-- ==== Sys2Proof/Machine/Tiles.lean ====
section
/-! DEFINITION. Plane-tile slots as bytes: reading an element, and requantising a tile (spec/02 R56 to R58, spec/07 R207). -/

namespace Sys2Proof.Machine

/-- The bytes of a slot of stored planes, or of 17 lines when it is outlier-capable (R56). -/
def slotLen (planes : Nat) (outl : Bool) : Nat := if outl then 17 * 128 else (1 + planes) * 128

/-- The header of block n of a slot (R56). -/
def slotHeader (bs : List Byte) (n : Nat) : Nat := natOfBytes ((bs.drop (2 * n)).take 2)

/-- The bit of element e in plane line p of a slot (R56). -/
def slotBit (bs : List Byte) (e p : Nat) : Bool := (bs.getD (128 * (1 + p) + e / 8) 0).getLsbD (e % 8)

/-- The value of element e of a slot read with k planes, block length b (R57, R58). -/
def slotValue (bs : List Byte) (k : Nat) (outl : Bool) (b e : Nat) : Word :=
  (elementValue (slotHeader bs (e / b)) k outl (slotBit bs e)).1

/-- A byte from its bits, bit 0 first. -/
def byteOfBits (f : Nat → Bool) : Byte :=
  BitVec.ofNat 8 ((List.range 8).foldl (fun n i => if f i then n + 2 ^ i else n) 0)

/-- The bytes of a slot of k planes that holds 1024 values requantised in blocks of b (R207, R56, R57). -/
def tileSlot (k b : Nat) (xs : List Word) : List Byte :=
  let blocks := (List.range (1024 / b)).map fun n => (xs.drop (n * b)).take b
  let heads := blocks.map blockHeader
  let elems := (List.zip heads blocks).flatMap fun hb => hb.2.map (blockElement hb.1)
  let line := (heads.flatMap fun h => bytesOf 2 h)
  let plane := fun p => (List.range 128).map fun i =>
    byteOfBits fun t => (elems.getD (8 * i + t) 0) / 2 ^ (7 - p) % 2 == 1
  line ++ List.replicate (128 - line.length) 0 ++ (List.range k).flatMap plane

/-- A block length of a code (R292: 1, 2, 3 for 16, 32, 64). -/
def blenOf (code : Nat) : Nat := 8 * 2 ^ code

end Sys2Proof.Machine
end

