-- ==== Sys2Proof/Machine/Copy.lean ====
section
/-! DEFINITION. The copy family: CPY, CPY2D, GATHER, SCATTER, FILL, XPOSE, HOSTFL, RINGX (spec/07 R213 to R216). -/

namespace Sys2Proof.Machine

/-! ## Moving runs of bytes -/

/-- Cuts a move of len bytes from a to b into runs of at most 4 KiB, none of which crosses a 64 KiB boundary at either
end, as (offset, length) (R327). -/
def cuts (a b len : Nat) : Nat → Nat → List (Nat × Nat)
  | 0, _ => []
  | n + 1, off =>
    if len ≤ off then []
    else
      let k := min (min (len - off) 4096) (min (0x10000 - (a + off) % 0x10000) (0x10000 - (b + off) % 0x10000))
      (off, k) :: cuts a b len n (off + k)

/-- The pieces of len bytes at b, as (offset, length), of at most limit bytes, of which none but the last ends inside a
naturally aligned 8 bytes: what an engine writes of these is one write (R265). -/
def chunks (limit b len : Nat) : Nat → Nat → List (Nat × Nat)
  | 0, _ => []
  | n + 1, off =>
    if len ≤ off then []
    else
      let k := min (len - off) (limit - (b + off) % 8)
      (off, k) :: chunks limit b len n (off + k)

/-- A run of bytes from one place to another. -/
structure Run where
  src : EPlace
  dst : EPlace
  n : Nat
  deriving DecidableEq, Repr

/-- Places the runs of a move, each given by its two addresses and its length, up to the first fault. -/
def State.placeRuns (s : State) (j : Job) (so dof : Nat) : List (Int × Int × Nat) → List Run →
    State × List Run × Option CmdFault
  | [], done => (s, done, none)
  | (a, b, n) :: rest, done =>
    match s.fieldPlace j so a n false with
    | (s1, .error f) =>
      match s1.fieldPlace j dof b n true with
      | (s2, .error g) => (s2, done, firstFault [some f, some g])
      | (s2, .ok _) => (s2, done, some f)
    | (s1, .ok p) =>
      match s1.fieldPlace j dof b n true with
      | (s2, .error f) => (s2, done, some f)
      | (s2, .ok q) => s2.placeRuns j so dof rest (done ++ [{ src := p, dst := q, n := n }])

/-- Moves a list of runs in order. -/
def State.moveRuns (s : State) (rs : List Run) : State := rs.foldl (fun t r => t.placeWrite r.dst (t.placeRead r.src r.n)) s

/-- Whether a source run shares a byte with a destination run. -/
def overlapping (rs : List Run) : Bool := rs.any fun r => rs.any fun q => r.src.meets q.dst r.n q.n

/-- The runs of one row. -/
def rowRuns (a b : Int) (n : Nat) : List (Int × Int × Nat) :=
  (cuts a.toNat b.toNat n n 0).map fun c => (a + c.1, b + c.1, c.2)

/-- A signed 8-byte field. -/
def Job.sf (j : Job) (off n : Nat) : Int := (BitVec.ofNat (8 * n) (j.f off n)).toInt

/-- The rows of a move, by source and destination: of CPY one, of CPY2D NROWS (R214). -/
def Job.rows (j : Job) : List (Int × Int) :=
  if j.type = 0x10 then [((j.addr 0x08 : Nat), (j.addr 0x10 : Nat))]
  else (List.range (j.f 0x1C 4)).map fun (i : Nat) => (j.addr 0x08 + i * j.sf 0x20 8, j.addr 0x10 + i * j.sf 0x28 8)

/-- The pieces of a move, of at most limit bytes each. -/
def Job.moves (j : Job) (limit : Nat) : List (Int × Int × Nat) :=
  j.rows.flatMap fun r => (chunks limit r.2.toNat (j.f 0x18 4) (j.f 0x18 4) 0).map fun c => (r.1 + c.1, r.2 + c.1, c.2)

/-- One piece of a move (R214): its runs are placed, and what they read is written. -/
def movePart (j : Job) (r : Int × Int × Nat) (s : State) : State × Option CmdFault :=
  match s.placeRuns j 0x08 0x10 (rowRuns r.1 r.2.1 r.2.2) [] with
  | (s1, _, some f) => (s1, some f)
  | (s1, rs, none) => (s1.moveRuns rs, none)

/-- Runs in an order of free choice (log 6). -/
def State.shuffled (s : State) : Nat → List Run → State × List Run
  | 0, rs => (s, rs)
  | n + 1, rs =>
    let (k, s1) := s.freshNat
    match rs[k % rs.length]? with
    | none => (s1, rs)
    | some r =>
      let t := s1.shuffled n (rs.eraseIdx (k % rs.length))
      (t.1, r :: t.2)

/-- One piece of a move whose source and destination overlap, within 8 aligned bytes: its bytes move in some order (R214),
and what they leave is one write (R265). -/
def bytesPart (j : Job) (r : Int × Int × Nat) (s : State) : State × Option CmdFault :=
  match s.placeRuns j 0x08 0x10 ((List.range r.2.2).map fun i => (r.1 + i, r.2.1 + i, 1)) [] with
  | (s1, _, some f) => (s1, some f)
  | (s1, rs, none) =>
    let t := s1.shuffled rs.length rs
    (t.1.moveRuns t.2, none)

/-- The parts of a move (R214): pieces of at most 4 KiB, or, where source and destination overlap as the command begins, of 8
aligned bytes, whose single bytes move in some order. -/
def moveParts (j : Job) (st : Started) (s : State) : Parts :=
  let single : Bool := match st.left with
    | some l => l.1
    | none =>
      overlapping (s.placeRuns j 0x08 0x10 ((j.moves 4096).flatMap fun r => rowRuns r.1 r.2.1 r.2.2) []).2.1
  if single then { single := true, count := (j.moves 8).length, part := fun i => bytesPart j ((j.moves 8).getD i (0, 0, 0)) }
  else { count := (j.moves 4096).length, part := fun i => movePart j ((j.moves 4096).getD i (0, 0, 0)) }

/-! ## CPY, CPY2D, FILL -/

/-- CPY (R214). -/
def cpyRun (j : Job) (st : Started) (s : State) : CmdResult :=
  checked (j.common [(0x1C, 36)] ++ [j.addrOk 0x08, j.addrOk 0x10, fieldOk 0x18 (0 < j.f 0x18 4)]) s
    ((moveParts j st s).turn j st s)

/-- CPY2D (R214). -/
def cpy2dRun (j : Job) (st : Started) (s : State) : CmdResult :=
  checked (j.common [(0x30, 16)] ++ [j.addrOk 0x08, j.addrOk 0x10]) s ((moveParts j st s).turn j st s)

/-- The pieces of the range of FILL and HOSTFL: 4 KiB from an aligned start, no page boundary cuts 8 aligned bytes (R265). -/
def Job.pieces (j : Job) : List (Nat × Nat) :=
  (chunks 4096 (j.addr 0x08) (j.f 0x18 4) (j.f 0x18 4) 0).flatMap fun r =>
    (cuts (j.addr 0x08 + r.1) (j.addr 0x08 + r.1) r.2 r.2 0).map fun c => (r.1 + c.1, c.2)

/-- One piece of FILL (R213). -/
def fillPart (j : Job) (c : Nat × Nat) (s : State) : State × Option CmdFault :=
  match s.fieldPlace j 0x08 (j.addr 0x08 + c.1) c.2 true with
  | (s1, .error f) => (s1, some f)
  | (s1, .ok p) => (s1.placeWrite p ((List.range c.2).map fun i => BitVec.ofNat 8 (j.f (0x1C + (c.1 + i) % 4) 1)), none)

/-- FILL (R213). -/
def fillRun (j : Job) (st : Started) (s : State) : CmdResult :=
  checked (j.common [(0x10, 8), (0x20, 32)] ++ [j.addrOk 0x08]) s
    (({ count := j.pieces.length, part := fun i => fillPart j (j.pieces.getD i (0, 0)) } : Parts).turn j st s)

/-! ## GATHER and SCATTER (R214) -/

/-- The element size of an ESZ code (R213). -/
def elemSize (code : Nat) : Nat :=
  match code with
  | 0 => 1 | 1 => 2 | 2 => 4 | 3 => 8 | 4 => 16 | 5 => 64 | _ => 128

/-- The field checks of GATHER and SCATTER (R213). -/
def Job.indexChecks (j : Job) : List (Option CmdFault) :=
  j.common [(0x2D, 19)] ++
    [j.addrOk 0x08, j.addrOk 0x10, j.addrOk 0x18, j.addrOk 0x20,
     fieldOk 0x28 (decide (0 < j.f 0x28 4) && decide (j.f 0x28 4 ≤ 2 ^ 20)), fieldOk 0x2C (j.f 0x2C 1 ≤ 6)]

/-- Bytes of a command's own run at an address, which may cross a page boundary: read one by one. -/
def State.fieldRead (s : State) (j : Job) (off : Nat) (a : Int) (n : Nat) : State × Except CmdFault (List Byte) :=
  (rowRuns a a n).foldl (fun acc c =>
    match acc with
    | (t, .error f) => (t, .error f)
    | (t, .ok bs) =>
      match t.fieldPlace j off c.1 c.2.2 false with
      | (t1, .error f) => (t1, .error f)
      | (t1, .ok p) => (t1, .ok (bs ++ t1.placeRead p c.2.2))) (s, .ok [])

/-- Bytes written at an address of a field, which may cross a page boundary: up to the first fault. -/
def State.fieldWrite (s : State) (j : Job) (off : Nat) (a : Int) (bs : List Byte) : State × Option CmdFault :=
  ((cuts a.toNat a.toNat bs.length bs.length 0)).foldl (fun acc c =>
    match acc with
    | (t, some f) => (t, some f)
    | (t, none) =>
      match t.fieldPlace j off (a + c.1) c.2 true with
      | (t1, .error f) => (t1, some f)
      | (t1, .ok p) => (t1.placeWrite p ((bs.drop c.1).take c.2), none)) (s, none)

/-- The element of BASE that an index names (R214): its place, or its status. -/
def State.elemPlace (s : State) (j : Job) (idx : Nat) (wr : Bool) : State × Except Byte EPlace :=
  let n := elemSize (j.f 0x2C 1)
  let a := j.addr 0x10 + idx * n
  if a % n ≠ 0 then (s, .error 5)
  else
    match s.engPlace j (j.space 0x10) a n wr with
    | (s1, .ok p) => (s1, .ok p)
    | (s1, .error e) => (s1, .error e.status)

/-- Element i of GATHER (R214): zeros and a status when it fails; a poisoned index is a failed element (R200). -/
def gatherPart (j : Job) (i : Nat) (s : State) : State × Option CmdFault :=
  let n := elemSize (j.f 0x2C 1)
  let put := fun (t : State) (bs : List Byte) (st : Byte) =>
    match t.fieldWrite j 0x18 (j.addr 0x18 + i * n) bs with
    | (t1, some f) => (t1, some f)
    | (t1, none) => t1.fieldWrite j 0x20 (j.addr 0x20 + i) [st]
  match s.fieldRead j 0x08 (j.addr 0x08 + 4 * i) 4 with
  | (s1, .error f) => if f.cls = 0x06 then put s1 (List.replicate n 0) 3 else (s1, some f)
  | (s1, .ok ix) =>
    match s1.elemPlace j (natOfBytes ix) false with
    | (s2, .error st) => put s2 (List.replicate n 0) st
    | (s2, .ok p) => put s2 (s2.placeRead p n) 0

/-- GATHER (R214). -/
def gatherRun (j : Job) (st : Started) (s : State) : CmdResult :=
  checked j.indexChecks s (({ count := j.f 0x28 4, part := gatherPart j } : Parts).turn j st s)

/-- Element i of SCATTER (R214): an element that fails writes nothing but its status. -/
def scatterPart (j : Job) (i : Nat) (s : State) : State × Option CmdFault :=
  let n := elemSize (j.f 0x2C 1)
  match s.fieldRead j 0x08 (j.addr 0x08 + 4 * i) 4 with
  | (s1, .error f) => (s1, some f)
  | (s1, .ok ix) =>
    match s1.fieldRead j 0x18 (j.addr 0x18 + i * n) n with
    | (s2, .error f) => (s2, some f)
    | (s2, .ok bs) =>
      match s2.elemPlace j (natOfBytes ix) true with
      | (s3, .error st) => s3.fieldWrite j 0x20 (j.addr 0x20 + i) [st]
      | (s3, .ok p) => (s3.placeWrite p bs).fieldWrite j 0x20 (j.addr 0x20 + i) [0]

/-- SCATTER (R214): ascending, so that the higher index of a repeated element is written last. -/
def scatterRun (j : Job) (st : Started) (s : State) : CmdResult :=
  checked j.indexChecks s (({ inOrder := true, count := j.f 0x28 4, part := scatterPart j } : Parts).turn j st s)

/-! ## XPOSE (R215) -/

/-- The bytes of a source element of XPOSE. -/
def xposeSize (code : Nat) : Nat := match code with | 0 => 4 | 1 => 2 | _ => 1

/-- The FP32 value of a source element of XPOSE (R215: INT8 elements take scale 1.0). -/
def xposeValue (code : Nat) (bs : List Byte) : Word :=
  match code with
  | 0 => BitVec.ofNat 32 (natOfBytes bs)
  | 1 => cvtBF (BitVec.ofNat 32 (natOfBytes bs))
  | _ => intNE (BitVec.ofNat 8 (natOfBytes bs)).toInt

/-- The 32 values of one row of a tile. -/
def State.xposeRow (s : State) (j : Job) (i c r : Nat) : State × Except CmdFault (List Word) :=
  let n := xposeSize (j.f 0x28 1)
  match s.fieldRead j 0x08 (j.addr 0x08 + ((32 * i + r : Nat) : Int) * j.sf 0x20 8 + ((32 * c * n : Nat) : Int)) (32 * n) with
  | (s1, .error f) => (s1, .error f)
  | (s1, .ok bs) => (s1, .ok ((List.range 32).map fun t => xposeValue (j.f 0x28 1) ((bs.drop (n * t)).take n)))

/-- Tile (i, c) of XPOSE. -/
def xposePart (j : Job) (t : Nat × Nat) (s : State) : State × Option CmdFault :=
  let rows := (List.range 32).foldl (fun (acc : State × Except CmdFault (List Word)) r =>
    match acc with
    | (u, .error f) => (u, .error f)
    | (u, .ok xs) =>
      match u.xposeRow j t.1 t.2 r with
      | (u1, .error f) => (u1, .error f)
      | (u1, .ok ys) => (u1, .ok (xs ++ ys))) (s, .ok [])
  match rows with
  | (u, .error f) => (u, some f)
  | (u, .ok xs) =>
    let k := j.f 0x29 1
    u.fieldWrite j 0x10 (j.addr 0x10 + (t.1 * (j.f 0x1C 4 / 32) + t.2) * ((1 + k) * 128)) (tileSlot k (blenOf (j.f 0x2A 1)) xs)

/-- XPOSE (R215). -/
def xposeRun (j : Job) (st : Started) (s : State) : CmdResult :=
  let cols := j.f 0x1C 4 / 32
  checked (j.common [(0x2B, 21)] ++
      [j.addrOk 0x08, j.addrOk 0x10, fieldOk 0x18 (j.f 0x18 4 % 32 == 0), fieldOk 0x1C (j.f 0x1C 4 % 32 == 0),
       fieldOk 0x28 (j.f 0x28 1 < 3), fieldOk 0x29 (decide (2 ≤ j.f 0x29 1) && decide (j.f 0x29 1 ≤ 8)),
       fieldOk 0x2A (decide (1 ≤ j.f 0x2A 1) && decide (j.f 0x2A 1 ≤ 3))]) s
    (({ count := j.f 0x18 4 / 32 * cols, part := fun i => xposePart j (i / cols, i % cols) } : Parts).turn j st s)

/-! ## HOSTFL (R214) -/

/-- One run of HOSTFL's range: it must translate (R200). -/
def hostflPart (j : Job) (c : Nat × Nat) (s : State) : State × Option CmdFault :=
  match s.fieldPlace j 0x08 (j.addr 0x08 + c.1) c.2 false with
  | (s1, .error f) => (s1, if f.cls = 0x06 then none else some f)
  | (s1, .ok _) => (s1, none)

/-- The domain byte ranges of HOSTFL's range that translate. -/
def State.hostSpans (s : State) (j : Job) : List (Nat × Nat) :=
  j.pieces.filterMap fun c =>
    match (s.fieldPlace j 0x08 (j.addr 0x08 + c.1) c.2 false).2 with
    | .ok (.mem d) => some (d, c.2)
    | _ => none

/-- A poster of a posted operation of a front's gusts, resident or retired. -/
def State.postsFor (s : State) (f : Nat) (p : Nat × Nat × Word) : Bool :=
  (s.gusts.any fun e => e.2.front == f && e.2.posted.any fun x => x.id == p.2.1)
    || match s.front? f with
       | some fr => fr.posted.any fun x => x.id == p.2.1
       | none => false

/-- HOSTFL (R214): the writes of the front to host memory of its range that were issued before it starts have to complete;
those to the own host memory have when they are performed, those to a peer's when they are acknowledged (R183). -/
def hostflRun (j : Job) (st : Started) (s : State) : CmdResult :=
  let n := if st.left.isNone then s.hub.nextReq else st.gen
  let mark := fun (t : State) (l : Option (Bool × List Nat)) => t.modStarted j.key j.cmd.num fun x => { x with gen := n, left := l.orElse fun _ => x.left }
  checked (j.common [(0x10, 8), (0x1C, 36)] ++ [j.addrOk 0x08]) s
    (match ({ count := j.pieces.length, part := fun i => hostflPart j (j.pieces.getD i (0, 0)) } : Parts).turn j st s with
     | .done t =>
       if (t.hostWrites (t.hostSpans j) (t.postsFor j.eng.front)).all fun id => n ≤ id then .done t
       else if st.left = some (false, []) then .never
       else .partly (mark t (some (false, [])))
     | .partly t => .partly (mark t none)
     | r => r)

/-! ## RINGX (R216) -/

/-- The byte runs of memory where n bytes at an address of a field lie, with the state after their translations. -/
def State.fieldRuns (s : State) (j : Job) (off : Nat) (a : Int) (n : Nat) : State × Except CmdFault (List (Nat × Nat)) :=
  (cuts a.toNat a.toNat n n 0).foldl (fun acc c =>
    match acc with
    | (t, .error f) => (t, .error f)
    | (t, .ok rs) =>
      match t.fieldPlace j off (a + c.1) c.2 true with
      | (t1, .error f) => (t1, .error f)
      | (t1, .ok (.mem d)) => (t1, .ok (rs ++ [(d, c.2)]))
      | (t1, .ok _) => (t1, .ok rs)) (s, .ok [])

/-- A triple that goes to another package (R347): one request of the engine, on the plane of its first line and a buffer of
the hub's own pool, performed at DST's home when it is sent. -/
def State.sendTriple (s : State) (j : Job) (runs : List (Nat × Nat)) (ws : List Word) (d : Nat) : State :=
  s.sendRequest { id := 0, peer := peerOf d, part := j.fr.part, plane := s.planeOf d, line := d / 128, core := j.cmd.core,
                  unit := false, posters := [], engine := some (j.key, j.cmd.num) } (.triple runs ws)

/-- Triple i of RINGX: merged into the triple at the same index of DST, the held triple first (R216, R69), at DST's home. -/
def ringxPart (j : Job) (i : Nat) (s : State) : State × Option CmdFault :=
  let d := 32 * 2 ^ j.f 0x1C 4
  let n : Nat := (2 + d) * 4
  let at' : Int := j.addr 0x10 + (i * n : Nat)
  match s.fieldRead j 0x08 (j.addr 0x08 + (i * n : Nat)) n with
  | (s1, .error f) => (s1, some f)
  | (s1, .ok src) =>
    match s1.fieldRead j 0x10 at' n with
    | (s2, .error f) => (s2, some f)
    | (s2, .ok held) =>
      match s2.fieldRuns j 0x10 at' n with
      | (s3, .error f) => (s3, some f)
      | (s3, .ok (r :: rs)) =>
        if peerOf r.1 ≠ s3.self then (s3.sendTriple j (r :: rs) (wordsOf src (2 + d)) r.1, none)
        else s3.fieldWrite j 0x10 at' ((ringMerge (wordsOf held (2 + d)) (wordsOf src (2 + d))).flatMap fun w => bytesOf 4 w.toNat)
      | (s3, .ok []) =>
        s3.fieldWrite j 0x10 at' ((ringMerge (wordsOf held (2 + d)) (wordsOf src (2 + d))).flatMap fun w => bytesOf 4 w.toNat)

/-- Whether a command waits for acknowledgements of its requests (R216, R347). -/
def State.engineWaits (s : State) (key num : Nat) : Bool := s.hub.requests.any fun r => r.engine == some (key, num)

/-- RINGX (R216): it completes when every merge has been acknowledged. -/
def ringxRun (j : Job) (st : Started) (s : State) : CmdResult :=
  checked (j.common [(0x20, 32)] ++
      [j.addrOk 0x08, j.addrOk 0x10, fieldOk 0x18 (decide (1 ≤ j.f 0x18 4) && decide (j.f 0x18 4 ≤ 128)),
       fieldOk 0x1C (decide (1 ≤ j.f 0x1C 4) && decide (j.f 0x1C 4 ≤ 3))]) s
    (match ({ count := j.f 0x18 4, part := ringxPart j } : Parts).turn j st s with
     | .done t =>
       if !(t.engineWaits j.key j.cmd.num) then .done t
       else if st.left = some (false, []) then .never
       else .partly (t.modStarted j.key j.cmd.num fun x => { x with left := some (false, []) })
     | r => r)

end Sys2Proof.Machine
end

