-- ==== Sys2Proof/Machine/Governor.lean ====
section
/-! DEFINITION. The die governor (spec/14 R394 to R397, spec/11 R328): grants, and the budget of an interval. -/

namespace Sys2Proof.Machine

/-! ## LEAVE_GRANT (R395) -/

/-- Whether the command or the instruction that asked for leave still waits for it. -/
def State.leaveLive (s : State) (r : LeaveReq) : Bool :=
  !r.granted &&
    (if r.eng < 1000000 then (match s.eng? r.eng with | some e => (findCmd e.queue r.num).isSome | none => false)
     else match s.gust? ((r.eng - 1000000) / 2) with
       | some g => (g.slot (r.eng % 2 == 1)).wait == some .leave
       | none => false)

/-- The requests of a die that wait, in request order. -/
def State.leaveWaiting (s : State) (die : Nat) : List LeaveReq := (s.die die).leave.filter s.leaveLive

/-- Whether what is left of a die's tokens lets a request be granted (R395). -/
def Die.covers (d : Die) (r : LeaveReq) : Bool := decide (r.cost ≤ d.budget - d.spent) || d.spent == 0

/-- The first request of a partition on a die, when it can be granted. -/
def State.grantable (s : State) (die q : Nat) : Option LeaveReq :=
  ((s.leaveWaiting die).find? fun r => r.part == q).filter (s.die die).covers

/-- LEAVESHARE of a partition. -/
def State.leaveShare (s : State) (q : Nat) : Nat := (s.hub.leaveShare.getD q 0).toNat

/-- The partitions in the order of a die's round robin: those behind the one served last, which is the last itself. -/
def Die.around (d : Die) : List Nat := (List.range 16).map fun i => (d.served + 1 + i) % 16

/-- The partition that the weighted round robin of a die serves next (R395, log 62): the one served last, while it has been
granted leave less often in its turn than its share; then the next that can be granted any; without a share only when no
partition with one can. -/
def State.nextServed (s : State) (die : Nat) : Option Nat :=
  let d := s.die die
  let can := fun p => (s.grantable die p).isSome
  if d.servedTimes < s.leaveShare d.served ∧ can d.served then some d.served
  else ((d.around.filter can).find? fun p => s.leaveShare p != 0) <|> d.around.find? can

/-- LEAVE_GRANT (R395): the round robin of a die serves partition input.which. -/
def execLeaveGrant (die : Nat) (s : State) : Outcome :=
  let q := s.input.which
  match s.grantable die q with
  | none => .refused .noSuchEvent
  | some r =>
    if s.nextServed die ≠ some q then .refused .noSuchEvent
    else
      let d := s.die die
      .next (s.setDie die { d with
        spent := d.spent + r.cost
        served := q
        servedTimes := if d.servedTimes < s.leaveShare q ∧ q = d.served then d.servedTimes + 1 else 1
        leave := d.leave.map fun x => if x = r then { x with granted := true } else x })

/-! ## GOVERNOR_INTERVAL (R394, R396, R397) -/

/-- The full budget of a die: 4 tokens for each core that is not retired (R394). -/
def State.fullTokens (s : State) (die : Nat) : Nat :=
  4 * ((List.range 320).filter fun c => dieOf c == die && !(s.core c).retired).length

/-- A budget reduced by 10 % for each degree above 95 °C (R397). -/
def heatReduced (b t : Nat) : Nat := if t ≤ 95 then b else b * (10 - (t - 95)) / 10

/-- The length of an excursion after an interval at a power in mW (R396): it runs above 3400 W, and at or below ends. -/
def excursionNext (n mW : Nat) : Nat := if mW ≤ 3400000 then 0 else if mW ≤ 3800000 then n + 1 else n

/-- The intervals of an excursion at full budget: 10 ms (R396). -/
def excursionFull : Nat := 10000

/-- The budget of a die for the next interval (R396): n intervals of excursion. -/
def budgetFor (full n mW temp : Nat) : Nat :=
  if 3800000 < mW then 0
  else heatReduced (if mW ≤ 3400000 then full else full / 2 ^ (n - excursionFull)) temp

/-- A record of the governor. -/
def govRecord (cls code die : Nat) (detail : List Byte) : ErrRec :=
  { cls := cls, code := code, action := 0, part := 0xFF, unit := 11, die := die, detail := detail }

/-- The end of an interval on a die, and its budget for the next: with its records (R396, R397). -/
def State.dieInterval (s : State) (n : Nat) (die : Nat) : State :=
  let d := s.die die
  let waiting := !(s.leaveWaiting die).isEmpty
  let temp := s.input.temps.getD die d.temp
  let starved := if waiting ∧ d.spent = 0 then d.starved + 1 else 0
  let d1 : Die :=
    { d with budget := budgetFor (s.fullTokens die) n s.input.count temp, spent := 0, grantedAll := !waiting,
             starved := if starved = 1000 then 0 else starved, halvings := n - excursionFull, temp := temp }
  let s1 := s.setDie die d1
  let s2 := if starved = 1000 then s1.record (govRecord 0x09 0x0001 die (bytesOf 1 die)) else s1
  if d.temp ≤ 95 ∧ 95 < temp then s2.record (govRecord 0x0A 0x0001 die (bytesOf 1 die ++ bytesOf 1 temp)) else s2

/-- GOVERNOR_INTERVAL (R394): the governor has measured input.count mW and junction temperatures input.temps. -/
def execGovernorInterval (s : State) : Outcome :=
  let n := excursionNext s.hub.excursion s.input.count
  let s1 := { s with hub := { s.hub with excursion := n, mW := s.input.count } }
  let s2 := if n = excursionFull + 1 ∧ s.hub.excursion = excursionFull then
      s1.record (govRecord 0x09 0x0002 4 (bytesOf 4 s.input.count)) else s1
  .next ([0, 1, 2, 3].foldl (fun t d => t.dieInterval n d) s2)

end Sys2Proof.Machine
end

