-- ==== Sys2Proof/Machine/Migrate.lean ====
section
/-! DEFINITION. The migration controller (spec/07 R215, R239, spec/10 R295 to R302, R309 to R311) and page pools (R302,
spec/12 R352): swaps, MIGRATE, REQNT, prefetch schedules, OLDEST. -/

namespace Sys2Proof.Machine

/-! ## Pages -/

/-- The content of n bytes copied from one own page to another (R297 step 4); memory tags of the target are cleared. -/
def State.copyPage (s : State) (src dst n : Nat) : State :=
  let moved := (s.mem.filter fun c => decide (src ≤ c.1) && decide (c.1 < src + n)).map fun c => (c.1 - src + dst, c.2)
  { s with mem := (s.mem.filter fun c => decide (c.1 < dst)) ++ moved ++ s.mem.filter fun c => decide (dst + n ≤ c.1)
           memTags := s.memTags.filter fun t => !(decide (dst ≤ 16 * t) && decide (16 * t < dst + n))
           sec := { s.sec with ranges := keepRanges s dst n } }

/-- A new format of plane tiles: planes and block-length code (R215). -/
structure TileFmt where
  planes : Nat
  blen : Nat
  deriving DecidableEq, Repr

/-- The slots of a page of a format that REQNT converts: as many as both pages hold. The spec does not say where further slots
of the old page go; the model drops them (DESIGN CHOICE, log 71). -/
def requantSlots (x : Xlat) (f : TileFmt) : Nat :=
  min (pageBytes x.size / slotLen x.planes x.outl) (pageBytes x.size / slotLen f.planes false)

/-- Slots lo up to hi of a page requantised into a new page, slot by slot (R215, R207). -/
def State.requantPage (s : State) (x : Xlat) (f : TileFmt) (src dst lo hi : Nat) : State :=
  ((List.range hi).drop lo).foldl (fun t i =>
    let bs := s.readBytes (src + i * slotLen x.planes x.outl) (slotLen x.planes x.outl)
    let xs := (List.range 1024).map (slotValue bs x.planes x.outl (blenOf x.blen))
    t.storeBytes (dst + i * slotLen f.planes false) (tileSlot f.planes (blenOf f.blen) xs)) s

/-- The wear counters of the zones that a page written at an HBF address touches (R288). -/
def State.wearPage (s : State) (pa n : Nat) : State :=
  let z := (pa - 0x40000000000) / 2 ^ 28
  (List.range (max 1 (n / 2 ^ 28))).foldl (fun t i =>
    let a := t.own (winBase + 4 * (z + i))
    t.hubStore a (bytesOf 4 (min (2 ^ 32 - 1) (memNat t.mem a 4 + min n (2 ^ 28) / 0x10000)))) s

/-- A leaf with its entry's two words and its place (R292). -/
structure PageAt where
  x : Xlat
  entry : Nat
  w0 : Nat
  w1 : Nat
  deriving DecidableEq, Repr

/-- The leaf that maps an address, with its words; a malformed entry is recorded (R293). -/
def State.pageAt (s : State) (q asid va : Nat) : State × Option PageAt :=
  match s.walk q asid va with
  | .leaf x e _ => (s, some { x := x, entry := e, w0 := memNat s.mem (s.own e) 8, w1 := memNat s.mem (s.own (e + 8)) 8 })
  | .malformed pa level => (s.malformedRecord q asid pa level, none)
  | .absent => (s, none)

/-- Step 1 of a swap for one page (R297): a leaf of the size, stable, of the own package. -/
def PageAt.swappable (p : PageAt) (self size : Nat) : Bool := p.x.mig == 0 && p.x.size == size && p.x.peer == self

/-- Writes the two words of an entry, as one 16-byte write (R297). -/
def State.writeEntry (s : State) (e w0 w1 : Nat) : State := s.storeBytes (s.own e) (bytesOf 8 w0 ++ bytesOf 8 w1)

/-- An entry's MIG set (R297 step 2, R311). -/
def State.setMig (s : State) (p : PageAt) (m : Nat) : State :=
  s.writeEntry p.entry (p.w0 - bitsOf p.w0 10 9 * 512 + m * 512) p.w1

/-- Word 0 with a new PA and TIER, and MIG 0 (R297 step 5). -/
def newWord0 (w0 pa tier : Nat) : Nat :=
  w0 - bitsOf w0 43 16 * 2 ^ 16 + pa / 0x10000 * 2 ^ 16 - bitsOf w0 10 9 * 512 - bitsOf w0 6 5 * 32 + tier * 32

/-- LWV and LOWER of word 1 (R292). -/
def lowerOf (w1 : Nat) : Bool × Nat := (bitsOf w1 15 15 == 1, bitsOf w1 43 16 * 0x10000)

/-- Word 1 with LWV and LOWER replaced. -/
def setLower (w1 : Nat) (lwv : Bool) (pa : Nat) : Nat :=
  w1 - bitsOf w1 15 15 * 2 ^ 15 - bitsOf w1 43 16 * 2 ^ 16 + (if lwv then 2 ^ 15 else 0) + pa / 0x10000 * 2 ^ 16

/-- Places an old page on the reclaim list (R299). -/
def State.listPage (s : State) (q asid pa size tier gen : Nat) : State :=
  s.setPart q { s.part q with listed := (s.part q).listed ++ [{ asid := asid, pa := pa, size := size, tier := tier, gen := gen }] }

/-- What steps 4 and 5 of a swap give for one page (R297): swapped, a poisoned source, or no page in the pool. -/
inductive PageSwap where
  | swapped (s : State)
  | poisoned
  | noPage
  deriving DecidableEq, Repr

/-- Whether LOWER restores a page that goes to HBF (R300). -/
def PageAt.restores (p : PageAt) (tier : Nat) : Bool :=
  tier == 1 && p.x.tier == 0 && (lowerOf p.w1).1 && !p.x.w && !p.x.a

/-- Steps 4 and 5 of a swap for one page that MIGRATE or the prefetch walk copies (R297, R300). -/
def State.swapPage (s : State) (q asid : Nat) (p : PageAt) (tier gen : Nat) : PageSwap :=
  let n := pageBytes p.x.size
  let lower := lowerOf p.w1
  if p.restores tier then
    .swapped ((s.writeEntry p.entry (newWord0 p.w0 lower.2 1) (setLower p.w1 false lower.2)).listPage q asid p.x.pa p.x.size 0 gen)
  else if s.poisoned (s.own p.x.pa) n then .poisoned
  else
    match (s.part q).pools.getD (3 * tier + p.x.size) [] with
    | [] => .noPage
    | pa :: rest =>
      let s1 := s.setPart q { s.part q with pools := listSet (s.part q).pools (3 * tier + p.x.size) rest }
      let s2 := s1.copyPage (s1.own p.x.pa) (s1.own pa) n
      let s3 := if tier = 1 then s2.wearPage pa n else s2
      if p.x.tier = 1 ∧ tier = 0 then .swapped (s3.writeEntry p.entry (newWord0 p.w0 pa 0) (setLower p.w1 true p.x.pa))
      else .swapped ((s3.writeEntry p.entry (newWord0 p.w0 pa tier) p.w1).listPage q asid p.x.pa p.x.size p.x.tier gen)

/-- The entry of a page that REQNT has converted into a new page (R297 step 5, R300). -/
def State.requantEntry (s : State) (q asid : Nat) (p : PageAt) (f : TileFmt) (pa gen : Nat) : State :=
  let lower := lowerOf p.w1
  let w1 := setLower (p.w1 / 2 ^ 15 * 2 ^ 15) false lower.2 + 1 + f.planes * 2 ^ 8 + f.blen * 2 ^ 12
  let s1 := (s.writeEntry p.entry (newWord0 p.w0 pa 0) w1).listPage q asid p.x.pa p.x.size p.x.tier gen
  if lower.1 then s1.listPage q asid lower.2 p.x.size 1 gen else s1

/-- The record and the vector of an empty pool (R302). -/
def State.poolEmpty (s : State) (q i : Nat) : State := (s.popPool q i).2

/-! ## MIGRATE and REQNT (R215, R297) -/

/-- A swap command: its pages, its target, BUMP, and the new format of REQNT. -/
structure SwapCmd where
  va : Nat
  pages : Nat
  tier : Nat
  bump : Bool
  fmt : Option TileFmt
  deriving DecidableEq, Repr

/-- A fault at a page of a swap command. -/
def pageFaultAt (va : Nat) : CmdFault := { off := 0x08, cls := 0x02, akind := 1, addr := va }

/-- Step 1 for the pages of a command (R297): their leaves, or the fault. -/
def swapPages (j : Job) (w : SwapCmd) (size : Nat) : List Nat → State → State × Except CmdFault (List PageAt)
  | [], s => (s, .ok [])
  | i :: is, s =>
    let va := w.va + i * pageBytes size
    match s.pageAt j.fr.part j.fr.asid va with
    | (s1, none) => (s1, .error (pageFaultAt va))
    | (s1, some p) =>
      if s1.lacksFeature p.x then (s1, .error (EErr.feature.fault 0x08 1 va))
      else if !(p.swappable s1.self size) || (w.fmt.isSome && p.x.fmt != 1) then (s1, .error (pageFaultAt va))
      else
        match swapPages j w size is s1 with
        | (s2, .error f) => (s2, .error f)
        | (s2, .ok ps) => (s2, .ok (p :: ps))

/-- BUMP at the end of a command (R297 step 6, R301); a raise that R295 holds back waits. -/
def bumpEnd (j : Job) (w : SwapCmd) (s : State) : CmdResult :=
  if w.bump then
    match s.raiseGen? j.fr.part j.fr.asid with
    | some t => .done t
    | none => .never
  else .done s

/-- The pages of a command from one on are returned (R297): MIG := 0. -/
def returnPages (j : Job) (w : SwapCmd) (size : Nat) (is : List Nat) (s : State) : State :=
  is.foldl (fun t i =>
    match t.pageAt j.fr.part j.fr.asid (w.va + i * pageBytes size) with
    | (t1, some p) => if p.x.mig = 1 then t1.setMig p 0 else t1
    | (t1, none) => t1) s

/-- The size code of the leaf that maps the command's VA. -/
def SwapCmd.size (w : SwapCmd) (j : Job) (s : State) : Nat :=
  match s.walk j.fr.part j.fr.asid w.va with
  | .leaf x _ _ => x.size
  | _ => 0

/-- Steps 1 to 3 of a swap command (R297). -/
def swapBegin (j : Job) (w : SwapCmd) (s : State) : CmdResult :=
  match s.pageAt j.fr.part j.fr.asid w.va with
  | (s1, none) => .fault s1 (pageFaultAt w.va)
  | (s1, some p0) =>
    if w.va % pageBytes p0.x.size ≠ 0 then .fault s1 { off := 0x08 }
    else
      match swapPages j w p0.x.size (List.range w.pages) s1 with
      | (s2, .error f) => .fault s2 f
      | (s2, .ok ps) =>
        let s3 := ps.foldl (fun t p => t.setMig p 1) s2
        if ps.any fun p => p.x.w || p.x.a then
          match s3.raiseGen? j.fr.part j.fr.asid with
          | none => .never
          | some t =>
            .partly (t.modStarted j.key j.cmd.num fun y => { y with phase := 1, gen := t.gen j.fr.part j.fr.asid })
        else
          .partly (s3.modStarted j.key j.cmd.num fun y => { y with phase := 2, gen := s3.gen j.fr.part j.fr.asid })

/-- The new page of REQNT's page in progress goes back to its pool (R297). -/
def State.returnFresh (s : State) (q size : Nat) (st : Started) : State :=
  match st.fresh with
  | none => s
  | some pa => s.setPart q { s.part q with pools := listSet (s.part q).pools size (pa :: (s.part q).pools.getD size []) }

/-- A turn of REQNT's page in progress (R215, R297, R327): its slots whose bytes come to at most 4 KiB are converted into new
page pa; behind the last of them its entry is swapped. -/
def requantPart (j : Job) (st : Started) (p : PageAt) (f : TileFmt) (pa : Nat) (s : State) : PageSwap :=
  let a := slotLen p.x.planes p.x.outl
  let count := requantSlots p.x f
  let hi := min count (st.slots + 0x1000 / max a (slotLen f.planes false))
  let stop := if hi = count then pageBytes p.x.size else hi * a
  if s.poisoned (s.own p.x.pa + st.slots * a) (stop - st.slots * a) then .poisoned
  else
    let s1 := s.requantPage p.x f (s.own p.x.pa) (s.own pa) st.slots hi
    .swapped (if hi = count then
        (s1.requantEntry j.fr.part j.fr.asid p f pa st.gen).modStarted j.key j.cmd.num fun y =>
          { y with phase := 2, pages := y.pages + 1, fresh := none, slots := 0 }
      else s1.modStarted j.key j.cmd.num fun y => { y with phase := 2, fresh := some pa, slots := hi })

/-- Steps 4 and 5 of a swap command for its page in progress, or one turn of them (R297, R327). -/
def swapPart (j : Job) (w : SwapCmd) (st : Started) (p : PageAt) (s : State) : PageSwap :=
  match w.fmt, st.fresh with
  | some f, some pa => requantPart j st p f pa s
  | some f, none =>
    match (s.part j.fr.part).pools.getD p.x.size [] with
    | [] => .noPage
    | pa :: rest =>
      requantPart j st p f pa (s.setPart j.fr.part { s.part j.fr.part with pools := listSet (s.part j.fr.part).pools p.x.size rest })
  | none, _ =>
    match s.swapPage j.fr.part j.fr.asid p w.tier st.gen with
    | .swapped t => .swapped (t.modStarted j.key j.cmd.num fun y => { y with phase := 2, pages := y.pages + 1 })
    | r => r

/-- A swap command goes on with its page in progress (R297 steps 4 and 5); phase 3 waits for the pool (R301). -/
def swapNext (j : Job) (w : SwapCmd) (st : Started) (s : State) : CmdResult :=
  let size := w.size j s
  let rest := (List.range w.pages).drop st.pages
  match rest with
  | [] => bumpEnd j w s
  | i :: _ =>
    let va := w.va + i * pageBytes size
    let back := fun (t : State) => (returnPages j w size rest t).returnFresh j.fr.part size st
    match s.pageAt j.fr.part j.fr.asid va with
    | (s1, none) => .fault (back s1) (pageFaultAt va)
    | (s1, some p) =>
      match swapPart j w st p s1 with
      | .swapped t => .partly t
      | .poisoned => .fault (back s1) { off := 0x08, cls := 0x06, code := 0x0007, akind := 1, addr := va }
      | .noPage =>
        if st.phase = 3 then .never
        else .partly ((s1.poolEmpty j.fr.part (3 * w.tier + p.x.size)).modStarted j.key j.cmd.num fun y => { y with phase := 3 })

/-- A swap command goes on by one step (R297, R301). -/
def swapRun (j : Job) (w : SwapCmd) (st : Started) (s : State) : CmdResult :=
  if w.pages = 0 then bumpEnd j w s
  else
    match st.phase with
    | 0 => swapBegin j w s
    | 1 => if genOlder (s.oldest j.fr.part j.fr.asid) st.gen then .never
           else .partly (s.modStarted j.key j.cmd.num fun y => { y with phase := 2 })
    | _ => swapNext j w st s

/-- The field checks that the two commands share (R213, R301). -/
def Job.swapChecks (j : Job) : List (Option CmdFault) :=
  [fieldOk 0x08 (j.f 0x08 8 % 0x10000 == 0 && decide (j.f 0x08 8 < 2 ^ 56)), fieldOk 0x10 (j.f 0x10 4 ≤ 2 ^ 20)]

/-- MIGRATE (R215). -/
def migrateRun (j : Job) (st : Started) (s : State) : CmdResult :=
  let w : SwapCmd := { va := j.f 0x08 8, pages := j.f 0x10 4, tier := j.f 0x14 1, bump := j.f 0x15 1 % 2 == 1, fmt := none }
  checked (j.common [(0x16, 42)] ++ j.swapChecks ++ [fieldOk 0x14 (j.f 0x14 1 < 2), fieldOk 0x15 (j.f 0x15 1 < 2)]) s
    (swapRun j w st s)
/-- MIGRATE (R215). -/
def execMigrate (key num : Nat) (s : State) : Outcome := runCommand s key num 0x20 migrateRun

/-- REQNT (R215). -/
def reqntRun (j : Job) (st : Started) (s : State) : CmdResult :=
  let w : SwapCmd :=
    { va := j.f 0x08 8, pages := j.f 0x10 4, tier := 0, bump := j.f 0x17 1 % 2 == 1,
      fmt := some { planes := j.f 0x15 1, blen := j.f 0x16 1 } }
  checked (j.common [(0x18, 40)] ++ j.swapChecks ++
    [fieldOk 0x14 (j.f 0x14 1 == 1), fieldOk 0x15 (decide (2 ≤ j.f 0x15 1) && decide (j.f 0x15 1 ≤ 8)),
     fieldOk 0x16 (decide (1 ≤ j.f 0x16 1) && decide (j.f 0x16 1 ≤ 3)), fieldOk 0x17 (j.f 0x17 1 < 2)]) s
    (swapRun j w st s)

/-! ## GRAPHPOST (R217) -/

/-- GRAPHPOST (R217): a waiting node becomes ready; a node in any other state is not affected. -/
def graphpostRun (j : Job) (_ : Started) (s : State) : CmdResult :=
  let n := j.f 0x08 2
  let nodes := ((tabGet? s.insts j.fr.inst).map fun x => x.nodes).getD []
  checked (j.common [(0x0A, 54)] ++ [fieldOk 0x08 (n < nodes.length)]) s
    (.done (if (nodes[n]?.map fun x => x.state) = some 0 then s.setNode j.fr.inst n 1 else s))
/-- GRAPHPOST (R217). -/
def execGraphpost (key num : Nat) (s : State) : Outcome := runCommand s key num 0x30 graphpostRun

/-! ## Pools (R302, R352) -/

/-- POOL_POP (R302): the page, or 0, as the last outside read. -/
def execPoolPop (q i : Nat) (s : State) : Outcome :=
  if 16 ≤ q ∨ 6 ≤ i then .refused .noSuchEvent
  else
    let r := s.popPool q i
    .next { r.2 with busData := bytesOf 8 r.1 }

/-- Whether a page may be pushed to a pool (R352). -/
def State.pushable (s : State) (q i pa : Nat) : Bool :=
  let n := pageBytes (i % 3)
  pa % n == 0
    && (if i < 3 then decide (pa + n ≤ 0x18000000000) else decide (0x40000000000 ≤ pa) && decide (pa + n ≤ 0x80000000000))
    && (s.part q).prange.any fun r => decide (r.1.toNat ≤ pa) && decide (pa + n ≤ r.1.toNat + r.2.toNat)

/-- A write of a PA to POOLPUSH i of a partition (R352). -/
def State.poolPush (s : State) (q i pa : Nat) : State :=
  if s.pushable q i pa then
    let p := s.part q
    let s1 := s.setPart q { p with pools := listSet p.pools i (p.pools.getD i [] ++ [pa]) }
    let a := s1.own (poolFillPa q i)
    s1.hubStore a (bytesOf 8 (memNat s1.mem a 8 + 1))
  else s.record { cls := 0x0D, code := 0x0002, action := 0, part := q, unit := 9, die := 4, akind := 2, addr := pa,
                  detail := bytesOf 1 i }

/-- POOL_PUSH (R352): partition input.which, pool input.count, the PA in input.data. -/
def execPoolPush (s : State) : Outcome :=
  if 16 ≤ s.input.which ∨ 6 ≤ s.input.count then .refused .noSuchEvent
  else .next (s.poolPush s.input.which s.input.count (natOfBytes s.input.data % 2 ^ 44))

/-! ## OLDEST (R296, R299) -/

/-- The generations of the translations of a space that instructions which have issued and not performed every lane hold
(R296): those of groups that wait, and of drift loads whose replies are out. -/
def State.heldGens (s : State) (q asid : Nat) : List Nat :=
  s.gusts.flatMap fun e =>
    let fr := s.frontOf e.2
    if fr.part = q ∧ fr.asid = asid then
      ([e.2.a, e.2.b].flatMap fun x => ((x.pages.getD {}).found.map fun y => y.gen))
        ++ (e.2.syms.filter fun y => y.state == 1 && !y.lines.isEmpty).map fun y => y.gen
    else []

/-- The oldest of a list of generations and the current one (R295, R296). -/
def oldestOf (gen : Nat) (gs : List Nat) : Nat := gs.foldl (fun m g => if genOlder g m then g else m) gen

/-- A TLB without the older entries of a space (R296). -/
def dropOld (t : List Xlat) (q asid gen : Nat) : List Xlat :=
  t.filter fun x => !(x.part == q && x.asid == asid && x.gen != gen)

/-- Frees the listed pages of a space that OLDEST has passed, as far as the reclaim queue has room (R299). -/
def State.freeListed (s : State) (q asid : Nat) : List Listed → State × List Listed
  | [] => (s, [])
  | x :: xs =>
    if x.asid = asid ∧ genOlder x.gen (s.oldest q asid) then
      match s.reclaim? q x.pa x.size x.tier with
      | some t => t.freeListed q asid xs
      | none => let r := s.freeListed q asid xs; (r.1, x :: r.2)
    else let r := s.freeListed q asid xs; (r.1, x :: r.2)

/-- OLDEST_ADVANCE (R296, R299): every TLB has dropped the older entries of a space, OLDEST reaches the least generation that
is still held, and the pages that it has passed are freed. -/
def execOldestAdvance (q asid : Nat) (s : State) : Outcome :=
  let gen := s.gen q asid
  let least := oldestOf gen (s.heldGens q asid)
  if 16 ≤ q ∨ 256 ≤ asid then .refused .noSuchEvent
  else
    let s1 := { s with cores := s.cores.map fun (c : Nat × Core) => (c.1, { c.2 with tlb := dropOld c.2.tlb q asid gen }),
                       dies := s.dies.map fun (d : Die) => { d with tlb := dropOld d.tlb q asid gen } }
    let s2 := s1.hubStore (s1.own (asRec q asid + 12)) (bytesOf 4 least)
    let r := s2.freeListed q asid (s2.part q).listed
    if least = s.oldest q asid ∧ r.2 = (s.part q).listed then .refused .noSuchEvent
    else .next (r.1.setPart q { r.1.part q with listed := r.2 })

/-! ## Prefetch schedules (R239, R309 to R311) -/

/-- A prefetch record (R309). -/
structure PfEntry where
  layer : Nat
  last : Bool
  tier : Nat
  deadline : Nat
  va : Nat
  pages : Nat
  ok : Bool
  deriving DecidableEq, Repr

/-- The record that 32 bytes hold; ok says whether its reserved bits are 0. -/
def pfEntry (bs : List Byte) : PfEntry :=
  { layer := cmdField bs 0 1, last := cmdField bs 1 1 % 2 == 1, tier := cmdField bs 1 1 / 2 % 2, deadline := cmdField bs 4 4,
    va := cmdField bs 8 8, pages := cmdField bs 16 4,
    ok := cmdField bs 1 1 / 4 == 0 && cmdField bs 2 2 == 0 && cmdField bs 20 12 == 0 }

/-- The bytes of a run of a space that lies on one page; none where they cannot be read. A malformed entry is recorded
(R293). -/
def State.pfBytes (s : State) (q asid va n : Nat) : State × Option (List Byte) :=
  match s.walkServed q asid va with
  | (s1, none) => (s1, none)
  | (s1, some x) =>
    if !x.r || x.mig == 2 || s1.poisoned (x.domain va) n then (s1, none) else (s1, some (s1.readBytes (x.domain va) n))

/-- The record at an address of a space, which may lie on two pages; none where it cannot be read. -/
def State.pfRead (s : State) (q asid va : Nat) : State × Option PfEntry :=
  let n := min 32 (0x10000 - va % 0x10000)
  match s.pfBytes q asid va n with
  | (s1, none) => (s1, none)
  | (s1, some a) =>
    if n = 32 then (s1, some (pfEntry a))
    else
      match s1.pfBytes q asid (va + n) (32 - n) with
      | (s2, none) => (s2, none)
      | (s2, some b) => (s2, some (pfEntry (a ++ b)))

/-- The records of a schedule (R309), or the index of the one that breaks it. -/
def State.pfWalk (s : State) (q asid base : Nat) : Nat → Nat → Nat → State × Except Nat (List PfEntry)
  | 0, i, _ => (s, .error i)
  | n + 1, i, layer =>
    match s.pfRead q asid (base + 32 * i) with
    | (s1, none) => (s1, .error i)
    | (s1, some e) =>
      if !e.ok || e.layer < layer then (s1, .error i)
      else if e.last then (s1, .ok [e])
      else
        match s1.pfWalk q asid base n (i + 1) e.layer with
        | (s2, .error k) => (s2, .error k)
        | (s2, .ok es) => (s2, .ok (e :: es))

/-- The next free number of a table. -/
def tabNext {α : Type} (t : Tab α) : Nat := t.foldl (fun m e => max m (e.1 + 1)) 0

/-- A mark starts its records (R310). -/
def State.pfStart (s : State) (q k asid layer : Nat) (es : List PfEntry) : State :=
  let mark := s.hub.pfRecs.foldl (fun m e => max m (e.2.mark + 1)) 0
  let mine := es.filter fun e => e.layer == layer
  let recs := mine.foldl (fun t e =>
    tabSet t (tabNext t)
      { part := q, asid := asid, sched := k, mark := mark, va := e.va, pages := e.pages, tier := e.tier,
        deadline := if e.deadline = 0 then none else some (s.hub.now.toNat + e.deadline) }) s.hub.pfRecs
  { s with hub := { s.hub with pfRecs := recs } }

/-- A PFMARK reaches the migration controller (R310): layer, schedule k of a partition. -/
def State.pfMark (s : State) (q k layer : Nat) : State :=
  let p := s.part q
  let base := (p.pfBase.getD k 0).toNat
  let asid := (p.pfAs.getD k 0).toNat
  if base = 0 ∨ layer = p.pfLast.getD k 256 then s
  else
    match s.pfWalk q asid base 65536 0 0 with
    | (s1, .error i) =>
      s1.record { cls := 0x02, code := 0x0013, action := 0, part := q, unit := 3, die := 4, asid := asid, akind := 1,
                  addr := base + 32 * i, detail := bytesOf 1 k ++ [0, 0, 0] ++ bytesOf 4 i }
    | (s1, .ok es) => (s1.setPart q { p with pfLast := listSet p.pfLast k layer }).pfStart q k asid layer es

/-- PFMARK (R239). -/
def pfmarkBody (f : RForm) : Body := undrifted fun c s =>
  .ok { s := s.pfMark (s.frontOf c.g).part ((c.rd f.sb c.low).toNat % 8) ((c.rd f.sa c.low).toNat % 256), move := .yield }
/-- PFMARK (R239). -/
def execPfmark (p : Pfx) (f : RForm) (s : State) : Outcome := runGroup (.pfmark p f) s (pfmarkBody f)

/-- Changes a prefetch record. -/
def State.modPf (s : State) (ix : Nat) (f : PfRec → PfRec) : State :=
  { s with hub := { s.hub with pfRecs := tabMod s.hub.pfRecs ix f } }

/-- The page of a record is behind it. -/
def State.pfPassed (s : State) (ix : Nat) (swapped : Bool) : State :=
  s.modPf ix fun x => { x with done := x.done + 1, phase := 0, swapped := x.swapped || swapped,
                               finished := decide (x.pages ≤ x.done + 1) }

/-- The last act of a mark (R310): every record of it has finished; GEN is raised once if a page was swapped. -/
def State.pfMarkEnd (s : State) (r : PfRec) : Option State :=
  let mine := s.hub.pfRecs.filter fun e => e.2.mark == r.mark
  if mine.all fun e => e.2.finished then
    let s1 := { s with hub := { s.hub with pfRecs := s.hub.pfRecs.filter fun e => e.2.mark != r.mark } }
    if mine.any fun e => e.2.swapped then s1.raiseGen? r.part r.asid else some s1
  else none

/-- The page of a record that is in progress goes on (R297, R310). -/
def State.pfPage (s : State) (ix : Nat) (r : PfRec) : Option State :=
  let va := r.va + r.done * 0x10000
  match s.pageAt r.part r.asid va with
  | (s1, none) => some (s1.pfPassed ix false)
  | (s1, some p) =>
    match r.phase with
    | 0 =>
      if !(p.swappable s1.self 0) || p.x.tier == r.tier then some (s1.pfPassed ix false)
      else
        let s2 := s1.setMig p 1
        if p.x.w || p.x.a then
          (s2.raiseGen? r.part r.asid).map fun t => t.modPf ix fun x => { x with phase := 1, gen := t.gen r.part r.asid }
        else some (s2.modPf ix fun x => { x with phase := 2, gen := s2.gen r.part r.asid })
    | 1 =>
      if genOlder (s1.oldest r.part r.asid) r.gen then none else some (s1.modPf ix fun x => { x with phase := 2 })
    | _ =>
      match s1.swapPage r.part r.asid p r.tier r.gen with
      | .swapped t => some (t.pfPassed ix true)
      | .poisoned => some ((s1.setMig p 0).pfPassed ix false)
      | .noPage =>
        if r.phase = 3 then none
        else some ((s1.poolEmpty r.part (3 * r.tier)).modPf ix fun x => { x with phase := 3 })

/-- PREFETCH_RECORD (R310): a record goes on by one step of one page; when all records of its mark have finished, the mark
ends. -/
def execPrefetchRecord (ix : Nat) (s : State) : Outcome :=
  match tabGet? s.hub.pfRecs ix with
  | none => .refused .noSuchEvent
  | some r =>
    match (if r.finished then s.pfMarkEnd r
           else if r.pages ≤ r.done then some (s.modPf ix fun x => { x with finished := true })
           else s.pfPage ix r) with
    | some t => .next t
    | none => .refused .noSuchEvent

/-- A record is abandoned (R311): its page in progress is returned; the miss counter rises. -/
def State.pfAbandon (s : State) (ix : Nat) (r : PfRec) : State :=
  let s1 :=
    if r.phase = 0 then s
    else
      match s.pageAt r.part r.asid (r.va + r.done * 0x10000) with
      | (t, some p) => if p.x.mig = 1 then t.setMig p 0 else t
      | (t, none) => t
  let p := s1.part r.part
  let n := (p.pfMiss.getD r.sched 0).toNat
  (s1.setPart r.part { p with pfMiss := listSet p.pfMiss r.sched (BitVec.ofNat 32 (min (2 ^ 32 - 1) (n + 1))) }).modPf ix
    fun x => { x with finished := true, phase := 0 }

/-- PREFETCH_DEADLINE (R311). -/
def execPrefetchDeadline (ix : Nat) (s : State) : Outcome :=
  match tabGet? s.hub.pfRecs ix with
  | none => .refused .noSuchEvent
  | some r =>
    match r.deadline with
    | none => .refused .noSuchEvent
    | some t => if r.finished || s.hub.now.toNat < t then .refused .noSuchEvent else .next (s.pfAbandon ix r)

/-! ## LEAVEQ (R239) -/

/-- LEAVEQ (R239). -/
def leaveqBody (f : RForm) : Body := undrifted fun c s =>
  let d := s.die (dieOf s.curCore)
  let n := (d.leave.filter fun r => r.core == s.curCore && s.leaveLive r).length
  putResult c s f.d (.u (BitVec.ofNat 32 (min 255 n + (if d.grantedAll then 256 else 0))))
/-- LEAVEQ (R239). -/
def execLeaveq (p : Pfx) (f : RForm) (s : State) : Outcome := runGroup (.leaveq p f) s (leaveqBody f)

end Sys2Proof.Machine
end

