-- ==== Sys2Proof/Machine/Queues.lean ====
section
/-! DEFINITION. Loop queues (spec/07 R230 to R233, R217): LQSEND, LQRECV, LQPEEK, LQFWD, an entry's arrival, and a pair set up
afresh. -/

namespace Sys2Proof.Machine

/-! ## Queues -/

/-- The queue on which a die sends for a pair (R230): a Zephyr die the forward queue, a Gale die the return queue. -/
def sendQueue (die pair : Nat) : Nat := if 2 ≤ die then 2 * pair else 2 * pair + 1
/-- The queue on which a die receives for a pair (R230). -/
def recvQueue (die pair : Nat) : Nat := if 2 ≤ die then 2 * pair + 1 else 2 * pair

/-- A loop queue. -/
def State.lq (s : State) (q : Nat) : LoopQueue := tabGetD s.hub.lq q {}
def State.setLq (s : State) (q : Nat) (x : LoopQueue) : State := { s with hub := { s.hub with lq := tabSet s.hub.lq q x } }

/-- The owner of a pair (R232): 0xFF none. -/
def State.lqOwner (s : State) (pair : Nat) : Nat := (tabGetD s.hub.lqOwn pair 0xFF).toNat

/-- Whether a queue is full (R233): 32 entries sent and not yet received. -/
def LoopQueue.full (x : LoopQueue) : Bool := decide (32 ≤ x.inFlight.length + x.entries.length)

/-- Sends an entry (R233): 0 sent, 1 full, 2 stopped. -/
def State.lqPut (s : State) (q : Nat) (bs : List Byte) : Nat × State :=
  let x := s.lq q
  if x.stopped then (2, s)
  else if x.full then (1, s)
  else (0, s.setLq q { x with inFlight := x.inFlight ++ [bs] })

/-- Sets a pair up afresh (R232). -/
def State.lqFresh (s : State) (pair : Nat) : State := (s.setLq (2 * pair) {}).setLq (2 * pair + 1) {}

/-! ## LQSEND, LQRECV, LQPEEK (R233) -/

/-- The pair that a kind-3 quad names, when it may be used with a permission bit (R221, R232, R233); or the FLT.CAP. -/
def Ctx.queueCap (c : Ctx) (s : State) (f : BitVec 7) (permBit : Nat) : Except Stop Nat :=
  let x := c.quad f c.low
  if !(c.g.capTag f.toNat) then .error (capFault c s 1)
  else if capKind x ≠ 3 then .error (capFault c s 2)
  else if capMalformed x then .error (capFault c s 6)
  else if capPerm x / 2 ^ permBit % 2 = 0 then .error (capFault c s 4)
  else if s.lqOwner (capQueue x) ≠ (s.frontOf c.g).part then .error (capFault c s 3)
  else .ok (capQueue x)

/-- LQSEND (R233): a release at package scope, then the entry leaves. -/
def lqsendBody (f : RForm) : Body := undriftedActive fun c s =>
  if c.wm = 0 then .ok { s := s, move := .yield }
  else
    match c.queueCap s f.sa 0 with
    | .error e => .error e
    | .ok pair =>
      let a := (c.rd f.sb c.low).toNat
      match c.spOperand s 64 512 a with
      | some e => .error e
      | none =>
        if !(c.resultFits [(f.d.toNat, .u 0)]) then .error (c.fault s 0x04 0)
        else
          match s.release c 3 with
          | (s1, some w) => .error (.wait s1 w)
          | (s1, none) =>
            let r := s1.lqPut (sendQueue (dieOf s.curCore) pair) (c.spGet s1 a 512)
            putU c r.2 f.d r.1 .yield
/-- LQSEND (R233). -/
def execLqsend (p : Pfx) (f : RForm) (s : State) : Outcome := runGroup (.lqsend p f) s (lqsendBody f)

/-- LQRECV (R233): an acquire at package scope. -/
def lqrecvBody (f : RForm) : Body := undriftedActive fun c s =>
  if c.wm = 0 then .ok { s := s, move := .yield }
  else
    match c.queueCap s f.sa 1 with
    | .error e => .error e
    | .ok pair =>
      let a := (c.rd f.sb c.low).toNat
      match c.spOperand s 64 512 a with
      | some e => .error e
      | none =>
        if !(c.resultFits [(f.d.toNat, .u 0)]) then .error (c.fault s 0x04 0)
        else if !c.g.loadsDone then .error (.wait s (.fence 1 []))
        else
          let q := recvQueue (dieOf s.curCore) pair
          let x := s.lq q
          if x.stopped then putU c s f.d 2 .yield
          else
            match x.entries with
            | [] => putU c s f.d 1 .yield
            | e :: es => putU c (c.spStore (s.setLq q { x with entries := es }) a e) f.d 0 .yield
/-- LQRECV (R233). -/
def execLqrecv (p : Pfx) (f : RForm) (s : State) : Outcome := runGroup (.lqrecv p f) s (lqrecvBody f)

/-- LQPEEK (R233). -/
def lqpeekBody (f : RForm) : Body := undriftedActive fun c s =>
  if c.wm = 0 then putU c s f.d 0 .shift
  else
    match c.queueCap s f.sa 1 with
    | .error e => .error e
    | .ok pair =>
      let x := s.lq (recvQueue (dieOf s.curCore) pair)
      putU c s f.d (x.entries.length + (if x.stopped then 64 else 0) + 256 * x.dup) .shift
/-- LQPEEK (R233). -/
def execLqpeek (p : Pfx) (f : RForm) (s : State) : Outcome := runGroup (.lqpeek p f) s (lqpeekBody f)

/-! ## LQFWD (R217) -/

/-- LQFWD (R217): it waits in the engine while the queue is full. -/
def lqfwdRun (j : Job) (_ : Started) (s : State) : CmdResult :=
  let pair := j.f 0x10 1
  checked (j.common [(0x11, 47)] ++ [j.addrOk 0x08, fieldOk 0x08 (j.addr 0x08 % 64 == 0), fieldOk 0x10 (pair < 64)]) s
    (match s.fieldRead j 0x08 (j.addr 0x08) 512 with
     | (s1, .error f) => .fault s1 f
     | (s1, .ok bs) =>
       let bad : CmdFault := { off := 0x10, cls := 0x08, code := 0x0002, queue := some pair }
       if s1.lqOwner pair ≠ j.fr.part then .fault s1 bad
       else
         match s1.lqPut (sendQueue j.die pair) bs with
         | (0, s2) => .done s2
         | (1, _) => .never
         | (_, s2) => .fault s2 bad)

/-! ## Arrival (R231) -/

/-- LQ_ENTRY_ARRIVAL (R231): the oldest entry in flight on queue input.which (2·pair forward, 2·pair + 1 return) reaches
its receiver; a stopped queue drops it. -/
def execLqEntryArrival (s : State) : Outcome :=
  let q := s.input.which
  let x := s.lq q
  match x.inFlight with
  | [] => .refused .noSuchEvent
  | e :: es =>
    let seq := natOfBytes (e.take 4)
    let y := { x with inFlight := es }
    if x.stopped then .next (s.setLq q y)
    else if seq = x.e.toNat then .next (s.setLq q { y with entries := x.entries ++ [e], e := x.e + 1 })
    else if 2 ^ 31 ≤ (seq + 2 ^ 32 - x.e.toNat) % 2 ^ 32 then .next (s.setLq q { y with dup := min 255 (x.dup + 1) })
    else
      .next ((s.setLq q { y with stopped := true }).record
        { cls := 0x08, code := 0x0001, action := 4, part := s.lqOwner (q / 2), unit := 13, num := q / 2,
          detail := bytesOf 1 (q / 2) ++ [0, 0, 0] ++ bytesOf 4 x.e.toNat ++ bytesOf 4 seq })

end Sys2Proof.Machine
end

