-- ==== Sys2Proof/Machine/CopyTurn.lean ====
section
/-! DEFINITION. The turns of the copy engines (spec/11 R327): an engine serves the contexts that have started commands in turn. -/

namespace Sys2Proof.Machine

/-! ## Whose turn it is -/

/-- What a turn of a command of the copy family does (R213 to R217). -/
def copyRun (type : Nat) : Job → Started → State → CmdResult :=
  match type with
  | 0x10 => cpyRun
  | 0x11 => cpy2dRun
  | 0x12 => gatherRun
  | 0x13 => scatterRun
  | 0x14 => fillRun
  | 0x15 => reqntRun
  | 0x16 => xposeRun
  | 0x17 => hostflRun
  | 0x18 => ringxRun
  | _ => lqfwdRun

/-- Whether a turn of a command would get on: it does not wait for a queue, a pool, OLDEST or an acknowledgement. -/
def State.getsOn (s : State) (key : Nat) (x : Started) : Bool :=
  match s.job? key x.cmd with
  | none => false
  | some j => !x.done && (match copyRun j.type j x s with | .never => false | _ => true)

/-- Whether a context has a started command that a turn would get on. -/
def State.servable (s : State) (key : Nat) : Bool :=
  match s.eng? key with
  | none => false
  | some e => e.started.any (s.getsOn key)

/-- The first of the eight contexts of a copy context's engine (R327). -/
def engineBase (key : Nat) : Nat := 5120 + (key - 5120) / 8 * 8

/-- The die of a copy context. -/
def engineDie (key : Nat) : Nat := (key - 5120) / 256

/-- The contexts of an engine that come before a context in its turn, from the one after that which it served last (log 56). -/
def State.before (s : State) (key : Nat) : List Nat :=
  let last := tabGetD (s.die (engineDie key)).copyLast (engineBase key) 7
  let all := (List.range 8).map fun i => engineBase key + (last + 1 + i) % 8
  all.takeWhile (· != key)

/-- Whether a context's turn has come (R327). -/
def State.copyTurn (s : State) (key : Nat) : Bool := (s.before key).all fun k => !(s.servable k)

/-- The engine has served a context. -/
def State.served (s : State) (key : Nat) : State :=
  let d := s.die (engineDie key)
  s.setDie (engineDie key) { d with copyLast := tabSet d.copyLast (engineBase key) ((key - 5120) % 8) }

/-- A turn of a copy command of a type (R327). -/
def runCopy (s : State) (key num type : Nat) : Outcome :=
  if s.copyTurn key then
    match runCommand s key num type (copyRun type) with
    | .next t => .next (t.served key)
    | r => r
  else .refused .noSuchEvent

/-! ## The copy family (R213 to R217) -/

/-- CPY (R214). -/
def execCpy (key num : Nat) (s : State) : Outcome := runCopy s key num 0x10
/-- CPY2D (R214). -/
def execCpy2d (key num : Nat) (s : State) : Outcome := runCopy s key num 0x11
/-- GATHER (R214). -/
def execGather (key num : Nat) (s : State) : Outcome := runCopy s key num 0x12
/-- SCATTER (R214). -/
def execScatter (key num : Nat) (s : State) : Outcome := runCopy s key num 0x13
/-- FILL (R213). -/
def execFill (key num : Nat) (s : State) : Outcome := runCopy s key num 0x14
/-- REQNT (R215). -/
def execReqnt (key num : Nat) (s : State) : Outcome := runCopy s key num 0x15
/-- XPOSE (R215). -/
def execXpose (key num : Nat) (s : State) : Outcome := runCopy s key num 0x16
/-- HOSTFL (R214). -/
def execHostfl (key num : Nat) (s : State) : Outcome := runCopy s key num 0x17
/-- RINGX (R216). -/
def execRingx (key num : Nat) (s : State) : Outcome := runCopy s key num 0x18
/-- LQFWD (R217). -/
def execLqfwd (key num : Nat) (s : State) : Outcome := runCopy s key num 0x19

end Sys2Proof.Machine
end

