-- ==== Sys2Proof/Machine/Gusts.lean ====
section
/-! DEFINITION. Steps of gusts that no instruction issues: retirement (spec/05 R128), drift arrival (spec/01 R32, R33, spec/06
R165), replies (R153), completion of posted operations (R176), and trap entry (spec/13 R362, R366). -/

namespace Sys2Proof.Machine

/-! ## Retirement -/

/-- GUST_RETIRE (R128): once its drift symbols have arrived. -/
def execGustRetire (k : Nat) (s : State) : Outcome :=
  match s.gust? k with
  | none => .refused .noSuchEvent
  | some g => if g.retiring && g.syms.all fun y => y.state == 0 then .next (s.retire k) else .refused .noSuchEvent

/-! ## Responses without a requester -/

/-- A packet dropped for its incarnation (R345): DROPINC saturates. -/
def Hub.dropped (h : Hub) : Hub := { h with dropInc := if h.dropInc = 0xFFFFFFFF then 0xFFFFFFFF else h.dropInc + 1 }

/-- A response or acknowledgement to a requester whose incarnation has changed (R345), when one can still come. -/
def State.staleResponse (s : State) : Outcome :=
  if s.input.stale ∧ 0 < s.hub.lost then .next { s with hub := { s.hub with lost := s.hub.lost - 1 }.dropped }
  else .refused .noSuchEvent

/-! ## Drift arrival -/

/-- The loaded value of lane l of a symbol, extended from its size (R27); 0 where the reply carries poison (R165). -/
def Sym.value (y : Sym) (l : Nat) : Word :=
  let x := laneGet y.raw l
  if inMask y.poison l then 0
  else
    match y.size, y.signed with
    | 0, true => (x.truncate 8).signExtend 32
    | 0, false => (x.truncate 8).zeroExtend 32
    | 1, true => (x.truncate 16).signExtend 32
    | 1, false => (x.truncate 16).zeroExtend 32
    | _, _ => x

/-- The 64-bit value of a kind-3 record over a loaded word (R27). -/
def pairValue (y : Sym) (a : Word) (b : DWord) (x : Word) : DWord :=
  b + a.signExtend 64 * (if y.signed then x.signExtend 64 else x.zeroExtend 64)

/-- What a record gives over a loaded word, with the flags of kind 2 (R32, R67); low is the record of the even register of
a pair, none when it no longer holds one: the value is then free. -/
def Drift.value (r : Drift) (y : Sym) (low : Option Drift) (free : Word) (x : Word) : Word × Fl :=
  match r.kind with
  | 0 => (x, {})
  | 1 => (r.a * x + r.b.lo, {})
  | 2 => fpFma .rne r.a x r.b.lo
  | 3 => ((pairValue y r.a r.b x).lo, {})
  | _ =>
    match low with
    | some q => ((pairValue y q.a q.b x).hi, {})
    | none => (free, {})

/-- A record resolved (R32): the captured lanes take its value, the others keep theirs. -/
def resolveVal (g : Gust) (y : Sym) (low : Option Drift) (free : Word) (r : Drift) (under : List Word) : Val :=
  let v := fun l => if inMask y.mask l then (r.value y low free (y.value l)).1 else laneGet under l
  if y.uniform && y.mask == g.lmask then .u (v (lowLane y.mask)) else g.mkG v

/-- The record of symbol n in register ix of a table, when it is of kind 3. -/
def lowRecord (t : Tab Val) (n ix : Nat) : Option Drift :=
  match tabGetD t ix (.u 0) with
  | .d r _ => if r.sym = n ∧ r.kind = 3 then some r else none
  | _ => none

/-- The registers of a table with symbol n resolved. -/
def resolveTab (g : Gust) (n : Nat) (y : Sym) (free : Word) (t : Tab Val) : Tab Val :=
  t.map fun e =>
    match e.2 with
    | .d r under => if r.sym = n then (e.1, resolveVal g y (lowRecord t n (e.1 - 1)) free r under) else e
    | _ => e

/-- A slot's latches with symbol n resolved (R19). -/
def Slot.resolve (x : Slot) (g : Gust) (n : Nat) (y : Sym) (free : Word) : Slot :=
  { x with latches := x.latches.map fun (e : Latch) =>
      match e with
      | .val (.d r under) => if r.sym = n then .val (resolveVal g y none free r under) else e
      | _ => e }

/-- The records of symbol n that a gust holds. -/
def Gust.recordsOf (g : Gust) (n : Nat) : List Drift :=
  let vals := (g.regs.map fun e => e.2) ++ (g.trapBank.map fun e => e.2)
    ++ (g.a.latches ++ g.b.latches).filterMap fun e => match e with | .val v => some v | .empty _ => none
  vals.filterMap fun v => match v with | .d r _ => if r.sym = n then some r else none | _ => none

/-- The quads of the registers of a table that hold symbol n. -/
def driftQuads (t : Tab Val) (n : Nat) : List Nat :=
  t.filterMap fun e => match e.2.sym? with | some m => if m = n then some (e.1 / 4) else none | none => none

/-- A symbol's arrival in a resident gust (R32): every register and latch that refers to it resolves in one step, the flags
of kind 2 are set (R67), capability tags are cleared (R37), and the symbol is free. -/
def Gust.resolve (g : Gust) (n : Nat) (free : Word) : Gust :=
  let y := g.syms.getD n {}
  let kind2 := (g.recordsOf n).filter fun r => r.kind == 2
  let fl := fun l => kind2.foldl (fun (f : Fl) r => f.or (r.value y none 0 (y.value l)).2) ({} : Fl)
  let g1 := if kind2.isEmpty then g else g.orFlags y.mask fl
  { g1 with
    regs := resolveTab g n y free g.regs
    trapBank := resolveTab g n y free g.trapBank
    capTags := g.capTags.filter fun q => !((driftQuads g.regs n).contains q)
    trapCapTags := g.trapCapTags.filter fun q => !((driftQuads g.trapBank n).contains q)
    a := g.a.resolve g n y free
    b := g.b.resolve g n y free
    syms := listSet g.syms n {} }

/-- A symbol of a gust resolved, with a free value for a high word that has lost its low record (log 6). -/
def State.resolveSym (s : State) (k n : Nat) : State :=
  match s.gust? k with
  | none => s
  | some g =>
    let (x, s1) := s.freshNat
    s1.setGust k (g.resolve n (BitVec.ofNat 32 x))

/-- The record of a drift load whose reply carries poison, and the end of its front (R165). -/
def State.driftPoison (s : State) (k : Nat) (g : Gust) (y : Sym) : State :=
  if y.poison = 0 then s else (s.endFront g.front).gustRecord k g 0x06 0x0005 y.pc y.poison 0 none

/-- A drift load served by the homes of its lines (R32), behind the requests of these lines that were sent before it (R335):
the words that its lanes in other packages read there, and those that meet poison (R165). -/
def State.serveSym (s : State) (y : Sym) : State × Sym :=
  let s1 := y.lines.foldl (fun t l => t.seeBelow y.num l.2) s
  let view := s1.seeing (y.lines.foldl (fun z l => s1.seeSym z l.2) y).seen
  let away := fun l => inMask y.mask l && peerOf (y.doms.getD l 0) != s.self
  (s1, { y with
    raw := lanes.map fun l => if away l then BitVec.ofNat 32 (view.readNat (y.doms.getD l 0) (2 ^ y.size)) else laneGet y.raw l
    poison := y.poison ||| maskOf fun l => away l && view.poisoned (y.doms.getD l 0) (2 ^ y.size) })

/-! ## Replies -/

/-- A blocking access some of whose lanes have faulted has its replies (R193, R366): the lanes performed join XDONE, and
the slot waits no longer; its entry is pending. -/
def Gust.lateDone (g : Gust) (b : Bool) (done : Word) : Gust :=
  Gust.setSlot { g with xdone := g.xdone ||| done } b { g.slot b with wait := none, pages := none }

/-- A blocking access completes (R153): its registers are written and its slot goes on; one whose lanes have all completed
has its effect as an acquire (R181). -/
def State.takeReply (s : State) (k : Nat) (b : Bool) (r : Reply) (g : Gust) : State :=
  let g1 := g.takeReply r (g.slot b).pc
  let s1 :=
    if r.faulted then s.setGust k (g1.lateDone b r.done)
    else ((s.setGust k (g1.endReplay b (g.replayOf b) (some r.done))).finishWaiting k b).drainAcq (coreOf k) r.drains
  s1.accessPerformed k none (some b)

/-- The writes of a blocking access would raise GCNT above GBUD, which the other slot has raised since the issue (R25):
FLT.GENOVF, and nothing is written; lanes that have faulted before go first (R360). -/
def State.replyOver (s : State) (k : Nat) (b : Bool) (r : Reply) (g : Gust) : State :=
  (if r.faulted then s.setGust k (g.lateDone b 0)
   else s.takeFault k b { code := 0x04, cause := 0, xmask := (g.slot b).mask }).accessPerformed k none (some b)

/-- The replies of a blocking access are there: its registers are written, once no drift record stands in them (R24). -/
def State.land (s : State) (k : Nat) (b : Bool) (r : Reply) : State :=
  match s.gust? k with
  | none => s
  | some g =>
    match r.drift g with
    | some y => s.setGust k (g.setSlot b { g.slot b with wait := some (.landed r y) })
    | none => if r.overBudget g then s.replyOver k b r g else s.takeReply k b r g

/-- The slots of a gust that wait with their replies for a drift symbol go on when it has resolved (R24). -/
def State.landSlots (s : State) (k : Nat) : State :=
  [false, true].foldl (fun t b =>
    match (t.gust? k).bind fun g => (g.slot b).wait with
    | some (.landed r _) => t.land k b r
    | _ => t) s

/-- The reply of an outstanding drift load (R32, R33, Table 7): a resident gust resolves it; a swapped-out one has it
landed, in its save area. Either way the load is performed (R136). -/
def State.driftReply (s : State) (k n : Nat) (y : Sym) (g : Gust) : State :=
  let landed : Sym := { y with state := 2, lines := [], seen := [] }
  let s1 := if inActive k then ((s.setGust k { g with syms := listSet g.syms n y }).resolveSym k n).landSlots k
            else s.setGust k { g with syms := listSet g.syms n landed }
  let s2 := if resident k then s1 else s1.landSaved k g n landed
  (s2.accessPerformed k (some n) none).driftPoison k g y

/-- DRIFT_ARRIVAL (R32); one that no symbol awaits is dropped, and counted as a response of an old incarnation (R345). -/
def execDriftArrival (k n : Nat) (s : State) : Outcome :=
  match (s.gust? k).bind fun g => (g.syms[n]?).map fun y => (g, y) with
  | none => s.staleResponse
  | some (g, y) =>
    if y.state = 1 then
      if y.held then .refused .noSuchEvent
      else
        let t := s.serveSym y
        .next (t.1.driftReply k n t.2 ((t.1.gust? k).getD g))
    else s.staleResponse

/-- The landed symbols of a gust whose context resumes (Table 7 of spec/01). -/
def State.resolveLanded (s : State) (k : Nat) : State :=
  ((List.range 8).foldl (fun t n =>
    match t.gust? k with
    | some g => if (g.syms.getD n {}).state = 2 then t.resolveSym k n else t
    | none => t) s).landSlots k

/-! ## The arrival of replies -/

/-- The replies of an attention form have arrived (R341): its group goes on. -/
def State.formServed (s : State) (k : Nat) (b : Bool) (f : FormWait) (g : Gust) : State :=
  let x := g.slot b
  (s.setGust k (g.setSlot b { x with wait := some (.form { f with arrived := true })
                                     pages := some { x.pages.getD {} with served := true } })).accessPerformed k none (some b)


/-- The reads of a reply in the lanes of a mask. -/
def Reply.only (r : Reply) (m : Word) : Reply :=
  { r with writes := r.writes.map fun w => { w with mask := w.mask &&& m }, done := r.done &&& m,
           capQuad := if r.done &&& ~~~m = 0 then r.capQuad else none,
           serve := r.serve.map fun v => (v.1, v.2.filter fun d => inMask m d.lane) }

/-- The address of a lane of a blocking access. -/
def Reply.addr (r : Reply) (l : Nat) : DWord := match r.places.find? fun p => p.1 == l with | some p => p.2.2 | none => 0

/-- Lanes of a blocking access that had faulted already take FLT.POISON 1 (R193): they join XMASK when the fault reported is
the same, XOTHER otherwise, as no cause has a lower priority. -/
def Gust.joinFault (g : Gust) (r : Reply) (lost : Word) : Gust :=
  let same := g.xcause == 0x000B0001
  { g with xmask := if same then g.xmask ||| lost else g.xmask
           xother := if same then g.xother else g.xother ||| lost
           xaddr := lanes.map fun l => if inMask lost l then r.addr l else g.xaddr.getD l 0 }

/-- The replies of a blocking access are there, and some of its lanes take FLT.POISON 1 (R193, R345): r is what the others
bring. xdone is what XDONE becomes with those that are performed. -/
def State.failLanes (s : State) (k : Nat) (b : Bool) (r : Reply) (lost xdone : Word) : State :=
  match s.gust? k with
  | none => s
  | some g =>
    let req : TrapReq :=
      { code := 0x0B, cause := 1, xmask := lost, xdone := xdone,
        xaddr := some (lanes.map fun l => if inMask lost l then r.addr l else 0) }
    if r.faulted then (s.setGust k (g.joinFault r lost)).land k b r
    else
      match r.drift g with
      | none => ((s.setGust k (g.takeReply r (g.slot b).pc)).takeFault k b req).accessPerformed k none (some b)
      | some _ => (s.faultAndWait k b req r).land k b { r with faulted := true }

/-- The replies of a blocking access are there, those of the lanes lost aside, whose requests have failed (R345, R346): the
homes serve what they have not served yet (R335); lanes whose reply carries poison fault as the lost ones do (R193); the
others are performed, unless their write would raise GCNT above GBUD (R25, R360). -/
def State.replyEnds (s : State) (k : Nat) (b : Bool) (r : Reply) (lost : Word) : State :=
  let s1 := r.lines.foldl (fun t l => t.seeBelow r.num l.2) s
  let bad := lost ||| (s1.seeing r.seen).poisonLanes r
  let ok := r.only (~~~bad)
  match s1.gust? k with
  | none => s1
  | some g =>
    if ok.done ≠ 0 ∧ ok.overBudget g then
      if bad = 0 then s1.replyOver k b r g else s1.failLanes k b (r.only 0) bad g.xdone
    else
      let t := s1.seeAll ok
      let v := t.2.valued (t.1.seeing t.2.seen) t.2.olds
      if bad = 0 then t.1.land k b v
      else t.1.failLanes k b v bad (match g.replayOf b with | some d => d ||| v.done | none => v.done)

/-- LOAD_REPLY (R153): the last reply of a blocking access has arrived; one that no requester of the same incarnation
awaits is dropped and counted (R345). -/
def execLoadReply (k : Nat) (b : Bool) (s : State) : Outcome :=
  match (s.gust? k).bind fun g => (g.slot b).wait.map fun w => (g, w) with
  | some (_, .reply r) => if r.held then .refused .noSuchEvent else .next (s.replyEnds k b r 0)
  | some (g, .form f) => if f.held || f.arrived then s.staleResponse else .next (s.formServed k b f g)
  | _ => s.staleResponse

/-- A blocking access some of whose requests have failed (R345, R346): the lanes of the peer take FLT.POISON 1. -/
def State.failReply (s : State) (k : Nat) (b : Bool) (r : Reply) (peer : Nat) : State :=
  s.replyEnds k b r (maskOf fun l => r.places.any fun p => p.1 == l && p.2.1 == peer)

/-- A request of an attention form has failed (R345, R346): FLT.POISON 1 in the lanes of Active(), with the descriptor's
address (log 52). -/
def State.failForm (s : State) (k : Nat) (b : Bool) (f : FormWait) : State :=
  (s.takeFault k b
    { code := 0x0B, cause := 1, xmask := f.mask,
      xaddr := some (lanes.map fun l => if inMask f.mask l then BitVec.ofNat 64 f.addr else 0) }).accessPerformed k none (some b)

/-! ## Posted operations -/

/-- A list of posted operations without a completed one; none when it is not there or still waits for lines. -/
def dropPosted (ps : List Posted) (id : Nat) : Option (List Posted) :=
  if ps.any fun p => p.id == id && p.lines.isEmpty then some (ps.filter fun p => p.id != id) else none

/-- The front that a retired gust left a posted operation to, without it. -/
def frontsDrop (id : Nat) : Tab Front → Option (Tab Front)
  | [] => none
  | (f, x) :: t =>
    match dropPosted x.posted id with
    | some ps => some ((f, { x with posted := ps }) :: t)
    | none => (frontsDrop id t).map fun u => (f, x) :: u

/-- POSTED_COMPLETION (R176): every lane of a posted operation has completed. -/
def execPostedCompletion (k id : Nat) (s : State) : Outcome :=
  match (s.gust? k).bind fun g => (dropPosted g.posted id).map fun ps => (g, ps) with
  | some (g, ps) => .next (s.setGust k { g with posted := ps })
  | none =>
    match frontsDrop id s.fronts with
    | some fs => .next { s with fronts := fs }
    | none => .refused .noSuchEvent

/-! ## Trap entry -/

/-- TRAP_ENTRY (R362): a fault or trap falls due for a live slot of a gust, at a group boundary: not while the replies of its
group are out (R153). -/
def execTrapEntry (k : Nat) (b : Bool) (r : TrapReq) (s : State) : Outcome :=
  match s.gust? k with
  | none => .refused .noSuchEvent
  | some g =>
    if resident k && (g.slot b).live && !(g.slot b).awaits then .next (s.takeFault k b r) else .refused .noSuchEvent

/-- Whether a gust's pending entry may complete (R366): resident in the active bank, not halted, the trapped slot not
waiting. -/
def Gust.entryDue (g : Gust) (k : Nat) : Bool :=
  g.pending != 0 && inActive k && (!g.halted || g.stepOnce)
    && (match g.trapRet with | some t => (g.slot t.slotB).wait.isNone | none => true)

/-- The pending entry of a gust completes: steps 4 to 6 of trap entry (R362, R366). -/
def State.completeEntry (s : State) (k : Nat) (g : Gust) : State :=
  let fr := s.frontOf g
  s.setGust k { g.enterHandler fr.uvec fr.svec with stepOnce := false }

/-- The debugger's step command is done once its gust has gone on (R385). -/
def State.stepDone (s : State) (g : Gust) : State :=
  if g.stepOnce ∧ s.dbg.cmd = 3 then { s with dbg := { s.dbg with st := 2, reason := 0, cmd := 0 } } else s

/-- A pending entry completes in place of a group (R366, R385). -/
def State.entryTurn (s : State) (k : Nat) (g : Gust) : State := (s.completeEntry k g).stepDone g

/-- PENDING_ENTRY_COMPLETE (R366), also of a stepped gust (R385); not while the resume of its context waits (R370). -/
def execPendingEntryComplete (k : Nat) (s : State) : Outcome :=
  match s.gust? k with
  | none => .refused .noSuchEvent
  | some g => if g.entryDue k && !(s.resuming k g) then .next (s.entryTurn k g) else .refused .noSuchEvent

end Sys2Proof.Machine
end

