-- ==== Sys2Proof/Machine/Banks.lean ====
section
/-! DEFINITION. Gusts that change their place: between the banks of a core and its save areas (spec/13 R368 to R371). Every
reference to a gust is by its key, so a move renames keys everywhere. -/

namespace Sys2Proof.Machine

/-- Who a leave request belongs to, with an instruction's gust renamed. -/
def LeaveReq.rekey (f : Nat → Nat) (r : LeaveReq) : LeaveReq :=
  if r.eng < 1000000 then r else { r with eng := 1000000 + 2 * f ((r.eng - 1000000) / 2) + (r.eng - 1000000) % 2 }

/-- The posters of a line renamed. -/
def rekeyPosters (f : Nat → Nat) (ps : List (Nat × Nat × Word)) : List (Nat × Nat × Word) := ps.map fun p => (f p.1, p.2)

/-- Gusts moved to new keys, with every reference to them. -/
def State.rekey (s : State) (f : Nat → Nat) : State :=
  { s with
    gusts := s.gusts.foldl (fun (t : Tab Gust) e => tabSet t (f e.1) e.2) []
    cores := s.cores.map fun c => (c.1,
      { c.2 with locks := c.2.locks.map fun l => (l.1, f l.2)
                 wcb := c.2.wcb.map fun w => { w with posters := rekeyPosters f w.posters } })
    dies := s.dies.map fun d =>
      { d with leave := d.leave.map (LeaveReq.rekey f)
               counters := d.counters.map fun c => (c.1,
                 { c.2 with held := c.2.held.map fun h => (f h.1, h.2), waiters := c.2.waiters.map fun h => (f h.1, h.2)
                            arrived := c.2.arrived.foldl (fun ks k => setAdd ks (f k)) [] }) }
    hub := { s.hub with requests := s.hub.requests.map fun r => { r with posters := rekeyPosters f r.posters } }
    cur := f s.cur }

/-- The gusts of a core that stand in its save area n. -/
def State.savedGusts (s : State) (core n : Nat) : List (Nat × Gust) := s.gusts.filter fun e => e.1 / 128 == core + 320 * n

/-- Whether a core's save area n belongs to a context in turn for its shadow bank. -/
def Core.keeps (c : Core) (n : Nat) : Bool := c.saved.any fun x => x.n == n

/-- The lowest save area of a core with no context in it. -/
def State.freeSave (s : State) (core : Nat) : Nat :=
  let used := ((s.gusts.filter fun e => coreOf e.1 == core).map fun e => saveNo e.1) ++ (s.core core).saved.map fun x => x.n
  ((List.range (used.length + 1)).find? fun n => !(used.contains (n + 1))).getD 0 + 1

/-! ## The spill engine (R370) -/

/-- The spill engine meets poison in a save area of a gust or of its twin (13 Table 7, 0x06/0x0008): the gust's front ends,
with a record. -/
def State.savePoisoned (s : State) (k : Nat) (g : Gust) (area : Nat) : State :=
  let fr := s.frontOf g
  (s.endFront g.front).record
    { cls := 0x06, code := 0x0008, action := 3, part := fr.part, unit := 14, die := dieOf (coreOf k), num := coreOf k,
      asid := fr.asid, gust := some g.gustId, front := fr.frontId.toNat, detail := bytesOf 8 area,
      user := fr.user.toNat }

/-- The save area, of a gust's and its twin's (R372), in whose given bytes the spill engine meets poison. -/
def State.poisonedArea (s : State) (k : Nat) (g : Gust) (len : Gust → Nat) : Option Nat :=
  ((s.withTwin k g).find? fun h => s.poisoned (s.own h.saveArea) (len h)).map Gust.saveArea

/-- A gust's context, and its twin's, written to its save area. -/
def State.saveGust (s : State) (k : Nat) (ts : List (Nat × Nat × List Byte)) : State :=
  match s.gust? k with
  | none => s
  | some g =>
    match s.poisonedArea k g fun h => (h.saveBytes (s.frontIdOf g) ts).length with
    | some a => s.savePoisoned k g a
    | none => s.writeSave k g ts

/-- A gust's context, and its twin's, read from its save area. -/
def State.loadGust (s : State) (k : Nat) : State :=
  match s.gust? k with
  | none => s
  | some g =>
    match s.poisonedArea k g fun h => max 0x700 (s.saveLength h) with
    | some a => s.savePoisoned k g a
    | none => s.readSave k

/-- A gust in the active bank again (01 Table 7, R132): landed symbols resolve, and flags of REGROUPs that completed while it
was out are written. -/
def State.resumed (s : State) (k : Nat) : State := (s.resolveLanded k).lateFlags k

/-! ## The debugger's target (R385), whose place DBGLOC gives -/

/-- The front that DBGPART and DBGFRONT name. -/
def State.dbgFront (s : State) : Option Nat :=
  (s.fronts.find? fun e => e.2.part == s.dbg.part.toNat && e.2.frontId == s.dbg.front).map fun e => e.1

/-- The gusts of a front. -/
def State.gustsOf (s : State) (f : Nat) : List (Nat × Gust) := s.gusts.filter fun e => e.2.front == f

/-- The gust that DBGGUST names in the target front. -/
def State.dbgGust (s : State) : Option (Nat × Gust) :=
  s.dbgFront.bind fun f => (s.gustsOf f).find? fun e => e.2.gustId == s.dbg.gust.toNat

/-- DBGLOC of the target gust now (Table 12). -/
def State.dbgLoc (s : State) : BitVec 17 :=
  match s.dbgGust with
  | none => 0
  | some (k, _) => BitVec.ofNat 17 (coreOf k + 512 * slotOf k + (if resident k then 2 ^ 16 else 0))

/-- DBGLOC brought up to date. -/
def State.updateLoc (s : State) : State := { s with dbg := { s.dbg with loc := s.dbgLoc } }

end Sys2Proof.Machine
end

