-- ==== Sys2Proof/Machine/Fabric.lean ====
section
/-! DEFINITION. Steps of the Plorvaino fabric (spec/12 R334 to R346): draining by age, allowance, acknowledgements, packets of
peers, incarnations, timeouts, and the remap procedure. -/

namespace Sys2Proof.Machine

/-! ## The write-combining buffer's age (R340) -/

/-- WC_AGE_DRAIN (R340): the age of entry ix of a core's buffer reaches WCAGE of its partition; entries of one line go in
their order (R266). -/
def execWcAgeDrain (core ix : Nat) (s : State) : Outcome :=
  let c := s.core core
  match c.wcb[ix]? with
  | none => .refused .noSuchEvent
  | some e =>
    if s.hub.now.toNat < e.time + 250 * (s.part e.part).wcAge.toNat ∨ (c.wcb.take ix).any fun x => x.line == e.line then
      .refused .noSuchEvent
    else .next ((s.setCore core { c with wcb := c.wcb.eraseIdx ix }).sendEntry core e)

/-! ## Send allowance (R343) -/

/-- The owner of a core (R378): 0xFF none; a change of PCOREMAP takes effect when the core holds no gust of its old
owner in its banks. -/
def State.ownerOf (s : State) (core : Nat) : Nat :=
  match s.gusts.find? fun e => resident e.1 && coreOf e.1 == core with
  | some e => (s.frontOf e.2).part
  | none => (tabGetD s.hub.coreMap core 0xFF).toNat
/-- The cores of a partition, ascending. -/
def State.coresOf (s : State) (q : Nat) : List Nat := (List.range 320).filter fun c => s.ownerOf c == q

/-- SHARE as R343 reads it: when every SHARE is 0, 1 for each partition that owns a core. -/
def State.shareOf (s : State) (q : Nat) : Nat :=
  if s.hub.share.all fun x => x == 0 then (if (s.coresOf q).isEmpty then 0 else 1) else (s.hub.share.getD q 0).toNat

/-- A partition's slice of a pool (R343). -/
def State.slice (s : State) (q : Nat) : Nat :=
  let sum := ((List.range 16).map s.shareOf).sum
  if sum = 0 then 0 else 1024 * s.shareOf q / sum

/-- The target of each core of a partition (R343). -/
def State.awTarget (s : State) (q : Nat) : Nat :=
  let n := (s.coresOf q).length
  if n = 0 then 0 else min 255 (s.slice q / n)

/-- The lines to a peer that a gust has been charged for and that stand for a unit spent (R177, R343). -/
def Gust.unitsTo (g : Gust) (p : Nat) : Nat :=
  let waits := [g.a, g.b].map fun x => match x.wait with
    | some w => ((w.lines ++ (x.pages.getD {}).charged).filter fun l => l.1 == p).length
    | none => 0
  let drifts := g.syms.map fun y => if y.state = 1 then (y.lines.filter fun l => l.1 == p).length else 0
  waits.sum + drifts.sum

/-- The units of a partition spent on a peer (R343). -/
def State.spentUnits (s : State) (q p : Nat) : Nat :=
  (s.hub.requests.filter fun r => r.unit && r.part == q && r.peer == p).length
    + (s.cores.map fun c => (c.2.wcb.filter fun e => e.part == q && e.peer == p).length).sum
    + (s.gusts.map fun e => if (s.frontOf e.2).part = q then e.2.unitsTo p else 0).sum

/-- F of a partition for a peer (R343): what of the slice is neither held by a core nor spent. -/
def State.freeUnits (s : State) (q p : Nat) : Nat :=
  s.slice q - ((s.coresOf q).map fun c => tabGetD (s.core c).aw p 0).sum - s.spentUnits q p

/-- The peers of the domain other than the own package. -/
def State.peers (s : State) : List Nat := (List.range 64).filter fun p => s.hub.domMask.getLsbD p && p != s.self

/-- Refills the cores of a partition for one peer (R343). -/
def refillPeer (s : State) (p target : Nat) : List Nat → Nat → State
  | [], _ => s
  | c :: cs, f =>
    let x := s.core c
    let n := min (target - tabGetD x.aw p 0) f
    refillPeer (if n = 0 then s else s.setCore c { x with aw := tabSet x.aw p (tabGetD x.aw p 0 + n) }) p target cs (f - n)

/-- ALLOWANCE_REFILL (R343). -/
def execAllowanceRefill (s : State) : Outcome :=
  .next ((List.range 16).foldl (fun t q =>
    let cs := t.coresOf q
    if cs.isEmpty then t else t.peers.foldl (fun u p => refillPeer u p (u.awTarget q) cs (u.freeUnits q p)) t) s)

/-! ## Acknowledgements (R343) -/

/-- The front, and where it still is resident the gust, that issued a posted operation. -/
def State.posterFront (s : State) (k id : Nat) : Option (Nat × Option Gust) :=
  match (s.gust? k).filter fun g => g.posted.any fun p => p.id == id with
  | some g => some (g.front, some g)
  | none => (s.fronts.find? fun e => e.2.posted.any fun p => p.id == id).map fun e => (e.1, none)

/-- Whether a posted operation has more to be acknowledged on the line of a request (R176): another request, or an entry
that still stands in a buffer. -/
def State.moreOnLine (s : State) (r : Request) (p : Nat × Nat × Word) : Bool :=
  let names := fun (ps : List (Nat × Nat × Word)) => ps.any fun q => q.1 == p.1 && q.2.1 == p.2.1
  (s.hub.requests.any fun q => q.id != r.id && q.line == r.line && names q.posters)
    || s.cores.any fun c => c.2.wcb.any fun e => e.line == r.line && names e.posters

/-- The posted operations of a request no longer wait for its line, unless more of theirs is out on it. -/
def State.lineDone (s : State) (r : Request) : State :=
  r.posters.foldl (fun t p =>
    if s.moreOnLine r p then t
    else t.modPosted p.1 p.2.1 fun x => { x with lines := x.lines.filter fun l => l.2.1 != r.line }) s

/-- Removes a request from the hub. -/
def State.dropRequest (s : State) (id : Nat) : State :=
  { s with hub := { s.hub with requests := s.hub.requests.filter fun r => r.id != id } }

/-- The failure of a posted operation (R176, R345, R346): its front ends, with a record of action 3. -/
def State.postedFailed (s : State) (cls code : Nat) (r : Request) (p : Nat × Nat × Word) : State :=
  match s.posterFront p.1 p.2.1 with
  | none => s
  | some (f, g?) =>
    let fr := (s.front? f).getD { frontId := 0, part := r.part, asid := 0, inst := 0, node := 0 }
    (s.endFront f).record
      { cls := cls, code := code, action := 3, part := fr.part, unit := if cls = 0x05 then 6 else 0,
        die := if cls = 0x05 then 4 else dieOf r.core, num := if cls = 0x05 then r.plane else r.core, asid := fr.asid,
        gust := g?.map fun g => g.gustId, front := fr.frontId.toNat, akind := 3, addr := r.line * 128,
        detail := if cls = 0x05 then bytesOf 1 r.peer else [0, 0, 0, 0] ++ bytesOf 4 p.2.2.toNat
        user := fr.user.toNat }

/-- The command of an engine fails with its request (R347): it faults (R200, log 61). -/
def State.engineFailed (s : State) (r : Request) (poison : Bool) : State :=
  match r.engine.bind fun e => (s.eng? e.1).bind fun x => (x.run? e.2).bind fun st => s.job? e.1 st.cmd with
  | none => s
  | some j =>
    s.commandFault j { off := 0x10, cls := if poison then 0x06 else 0x02, code := if poison then 0x0007 else 0x0010, akind := 3,
                       addr := r.line * 128 }

/-- The posted operations whose data a request carries: an HFLUSH that waits for it has none (R183). -/
def Request.withData (r : Request) : List (Nat × Nat × Word) := r.posters.filter fun p => p.2.2 != 0

/-- A request fails (R345, R346): what waits for it fails, and it is no longer outstanding. -/
def State.failRequest (s : State) (cls code : Nat) (r : Request) : State :=
  ((r.withData.foldl (fun t x => t.postedFailed cls code r x) (s.engineFailed r false)).lineDone r).dropRequest r.id

/-- ACK_RECEIVE (R343, R176): the acknowledgement of request input.which; input.flag says that its target reports poison. One
that no requester of the same incarnation awaits is dropped and counted (R345). -/
def execAckReceive (s : State) : Outcome :=
  match s.hub.requests.find? fun r => r.id == s.input.which with
  | none => s.staleResponse
  | some r =>
    if r.heldInHub then .refused .noSuchEvent
    else
      let s1 := if s.input.flag then r.withData.foldl (fun t p => t.postedFailed 0x06 0x0006 r p) (s.engineFailed r true) else s
      .next ((s1.lineDone r).dropRequest r.id)

/-! ## Packets of peers (R342, R345) -/

/-- What a packet asks, performed at home: the state and the bytes of the response (R216, R222, R224, R302). -/
def State.serve (s : State) (k : PacketKind) : State :=
  match k with
  | .load pa n => { s with busData := s.readBytes (s.own pa) n }
  | .store pa bs => { bs.foldl (fun t b => t.storeBytes (t.own (pa + b.1)) [b.2]) s with busData := [] }
  | .atomic pa size op b cmp =>
    let r := s.returning op size (s.own pa) b.toNat cmp.toNat
    { r.2 with busData := bytesOf size r.1 }
  | .ringx pa dcode triple =>
    let d := 2 + 32 * 2 ^ dcode
    let held := s.readBytes (s.own pa) (4 * d)
    { s.storeBytes (s.own pa) ((ringMerge (wordsOf held d) (wordsOf triple d)).flatMap fun w => bytesOf 4 w.toNat) with
      busData := [] }
  | .kvres pa n nb lo hi =>
    let pos := s.readNat (s.own pa) 8
    let r := reserve pos n nb lo hi
    { (if r.1 = 0 then s.storeBytes (s.own pa) (bytesOf 8 r.2) else s) with busData := bytesOf 8 pos ++ bytesOf 4 r.1 }
  | .kvpub pa bits => { s.orWord (s.own pa) bits.toNat with busData := [] }

/-- The address that a packet names. -/
def packetAddr : PacketKind → Nat
  | .load pa _ | .store pa _ | .atomic pa _ _ _ _ | .ringx pa _ _ | .kvres pa _ _ _ _ | .kvpub pa _ => pa

/-- REQUEST_PACKET_RECEIVE (R336, R345): the packet input.pkt is counted; with another incarnation it is dropped. -/
def execRequestPacketReceive (s : State) : Outcome :=
  let p := s.input.pkt
  if !(s.hub.domMask.getLsbD p.peer) || p.peer == s.self || 16 ≤ p.part || 8 ≤ p.plane then .refused .noSuchEvent
  else
    let n := p.peer * 8 + p.plane
    let s1 := { s with hub := { s.hub with received := tabSet s.hub.received n (tabGetD s.hub.received n 0 + 1) } }
    if p.inc ≠ s.hub.inc.getD p.part 0 then
      .next { s1 with hub := s1.hub.dropped }
    else if (regionOf (packetAddr p.kind)).tier?.isNone then .fault (.noSuchAddress (packetAddr p.kind))
    else .next (s1.serve p.kind)

/-! ## Lost peers (R345, R346) -/

/-- The requests of a partition to a peer fail (R345). -/
def State.failPosted (s : State) (q p : Nat) : State :=
  (s.hub.requests.filter fun r => r.part == q && r.peer == p).foldl (fun t r => t.failRequest 0x05 0x0002 r) s

/-- The requests of one slot that go to a peer fail. -/
def State.failSlot (s : State) (k p : Nat) (b : Bool) : State :=
  match (s.gust? k).bind fun g => (g.slot b).wait with
  | some (.reply r) => if r.lines.any fun l => l.1 == p then s.failReply k b r p else s
  | some (.form f) => if !f.arrived && f.lines.any fun l => l.1 == p then s.failForm k b f else s
  | _ => s

/-- An outstanding drift load whose lines go to a lost peer resolves as with poison in those lanes (R345, R165). -/
def State.failSym (s : State) (k p n : Nat) : State :=
  match s.gust? k with
  | none => s
  | some g =>
    let y := g.syms.getD n {}
    if y.state = 1 ∧ y.lines.any (fun l => l.1 == p) then
      let t := s.serveSym y
      t.1.driftReply k n
        { t.2 with poison := t.2.poison ||| (y.mask &&& maskOf fun l => peerOf (y.doms.getD l 0) == p) } ((t.1.gust? k).getD g)
    else s

/-- Every outstanding request of a partition to a peer fails (R345). -/
def State.failPeer (s : State) (q p : Nat) : State :=
  let ks := (s.gusts.filter fun e => (s.frontOf e.2).part == q).map fun e => e.1
  ks.foldl (fun t k =>
    (List.range 8).foldl (fun u n => u.failSym k p n) ((t.failSlot k p false).failSlot k p true)) (s.failPosted q p)

/-- The requests that p selects are sent, in their order, on the planes that REMAP names now (R336, R344). -/
def Hub.send (s : State) (p : Request → Bool) : List Request → Hub → Hub
  | [], h => h
  | r :: rs, h =>
    if p r then
      let plane := s.planeOf (r.line * 128)
      let r1 := { r with heldInHub := false, packet := none, plane := plane, seq := tabGetD h.sentOn (r.peer * 8 + plane) 0 }
      Hub.send s p rs ({ h with requests := h.requests ++ [r1] }.countPacket r.peer plane)
    else Hub.send s p rs { h with requests := h.requests ++ [r] }

/-- The requests of the hub that p selects are sent, and those packets that the hub has held are performed (R335). -/
def State.sendWhere (s : State) (p : Request → Bool) : State :=
  (s.hub.requests.filter p).foldl (fun t r => match r.packet with | some q => t.performPacket r.id q | none => t)
    { s with hub := Hub.send s p s.hub.requests { s.hub with requests := [] } }

/-- Whether requests for lines that have been held can go. -/
def State.canGo (s : State) (held : Bool) (ls : List (Nat × Nat)) : Bool := held && !(s.heldLines ls)

/-- A slot whose held requests have gone, when they can, and their lines. -/
def State.sendSlot (s : State) (x : Slot) : Slot × List (Nat × Nat) :=
  match x.wait with
  | some (.reply r) => if s.canGo r.held r.lines then ({ x with wait := some (.reply { r with held := false }) }, r.lines) else (x, [])
  | some (.form f) => if s.canGo f.held f.lines then ({ x with wait := some (.form { f with held := false }) }, f.lines) else (x, [])
  | _ => (x, [])

/-- A symbol whose held requests have gone, when they can, and their lines. -/
def State.sendSym (s : State) (y : Sym) : Sym × List (Nat × Nat) :=
  if y.state = 1 ∧ s.canGo y.held y.lines then ({ y with held := false }, y.lines) else (y, [])

/-- A gust whose held requests have gone, when they can. -/
def State.sendGust (s : State) (g : Gust) : Gust :=
  { g with a := (s.sendSlot g.a).1, b := (s.sendSlot g.b).1, syms := g.syms.map fun y => (s.sendSym y).1 }

/-- The lines of a gust's held requests that can go. -/
def State.linesGoing (s : State) (g : Gust) : List (Nat × Nat) :=
  (s.sendSlot g.a).2 ++ (s.sendSlot g.b).2 ++ g.syms.flatMap fun y => (s.sendSym y).2

/-- The requests that the hub holds and that can go are sent (R337, R344). -/
def State.sendHeld (s : State) : State :=
  let t := (s.sendWhere fun r => r.heldInHub && !(s.heldFor r.peer)).countLines (s.gusts.flatMap fun e => s.linesGoing e.2)
  { t with gusts := t.gusts.map fun e => (e.1, s.sendGust e.2) }

/-- INCARNATION_NOTICE (R344, R345): peer input.which sends its incarnations input.incs; the first notice fails nothing. -/
def execIncarnationNotice (s : State) : Outcome :=
  let p := s.input.which
  if !(s.hub.domMask.getLsbD p) || p == s.self then .refused .noSuchEvent
  else
    let old := tabGet? s.hub.peerInc p
    let s1 := { s with hub := { s.hub with peerInc := tabSet s.hub.peerInc p s.input.incs } }
    match old with
    | none => .next s1.sendHeld
    | some xs =>
      .next ((List.range 16).foldl (fun t q => if xs.getD q 0 ≠ s.input.incs.getD q 0 then t.failPeer q p else t) s1)

/-- The record of a load's request without an answer (R346), on the plane of its line. -/
def State.timeoutRecord (s : State) (g : Gust) (fr : Front) (l : Nat × Nat) : State :=
  s.record { cls := 0x05, code := 0x0003, action := 3, part := fr.part, unit := 6, die := 4, asid := fr.asid,
             gust := some g.gustId, front := fr.frontId.toNat, num := s.planeOf (l.2 * 128), detail := bytesOf 1 l.1,
             user := fr.user.toNat }

/-- Whether a request sent at a time has had no answer for 100 µs (R346). -/
def State.overdue (s : State) (t : Nat) : Bool := decide (t + 100000 ≤ s.hub.now.toNat)

/-- The lines of a load whose requests are out: of a symbol when input.wr, otherwise of a slot; with when they were sent. -/
def State.loadLines (s : State) (g : Gust) : List (Nat × Nat) × Nat :=
  if s.input.wr then
    let y := g.syms.getD s.input.count {}
    if y.state = 1 then (y.lines, y.sentAt) else ([], 0)
  else
    match (g.slot (s.input.count == 1)).wait with
    | some (.reply r) => (r.lines, r.sentAt)
    | some (.form f) => (if f.arrived then [] else f.lines, f.sentAt)
    | _ => ([], 0)

/-- Line input.off of a load has no response (R346): the load fails as R345 states, its front ends, and a record is
written. -/
def State.loadTimeout (s : State) (k : Nat) (g : Gust) : Option State :=
  let ls := s.loadLines g
  (ls.1[s.input.off]?).bind fun l =>
    if s.overdue ls.2 then
      let s1 := if s.input.wr then s.failSym k l.1 s.input.count else s.failSlot k l.1 (s.input.count == 1)
      some ((s1.endFront g.front).timeoutRecord g (s.frontOf g) l)
    else none

/-- REQUEST_TIMEOUT (R346): without input.flag, request input.which has no acknowledgement for 100 µs; with it, line input.off
of a load of gust input.which has no response: of slot input.count (1 slot B), or, with input.wr, of symbol input.count. -/
def execRequestTimeout (s : State) : Outcome :=
  if s.hub.remapping.isSome then .refused .noSuchEvent
  else if s.input.flag then
    match (s.gust? s.input.which).bind fun g => s.loadTimeout s.input.which g with
    | some t => .next t
    | none => .refused .noSuchEvent
  else
    match s.hub.requests.find? fun r => r.id == s.input.which with
    | none => .refused .noSuchEvent
    | some r => if s.overdue r.sentAt then .next (s.failRequest 0x05 0x0003 r) else .refused .noSuchEvent

/-! ## Remap (R336, R337) -/

/-- The next plane that is up, from plane k upward modulo 8. -/
def nextUp (stat : Byte) (k : Nat) : Nat :=
  (((List.range 8).map fun i => (k + i) % 8).find? fun p => stat.getLsbD p).getD k

/-- REMAP with every entry that names a plane that is down moved on (R336). -/
def failover (remap : BitVec 24) (stat : Byte) : BitVec 24 :=
  BitVec.ofNat 24 ((List.range 8).foldl (fun n k => n + 8 ^ k * nextUp stat (bitsOf remap.toNat (3 * k + 2) (3 * k))) 0)

/-- Whether every entry of a REMAP names a plane that is up. -/
def remapUp (remap : BitVec 24) (stat : Byte) : Bool :=
  (List.range 8).all fun k => stat.getLsbD (bitsOf remap.toNat (3 * k + 2) (3 * k))

/-- A time of sending with a remap's time left out (R346). -/
def laterBy (began now t : Nat) : Nat := t + (now - max began t)

/-- A slot's requests with a remap's time left out. -/
def Slot.later (x : Slot) (began now : Nat) : Slot :=
  match x.wait with
  | some (.reply r) => { x with wait := some (.reply { r with sentAt := laterBy began now r.sentAt }) }
  | some (.form f) => { x with wait := some (.form { f with sentAt := laterBy began now f.sentAt }) }
  | _ => x

/-- A gust's requests with a remap's time left out. -/
def Gust.later (g : Gust) (began now : Nat) : Gust :=
  { g with a := g.a.later began now, b := g.b.later began now
           syms := g.syms.map fun y => { y with sentAt := laterBy began now y.sentAt } }

/-- Every request with a remap's time left out (R346). -/
def State.later (s : State) (began : Nat) : State :=
  let now := s.hub.now.toNat
  { s with
    gusts := s.gusts.map fun e => (e.1, e.2.later began now)
    hub := { s.hub with requests := s.hub.requests.map fun r => { r with sentAt := laterBy began now r.sentAt } } }

/-- The lines of the loads of a gust that are out. -/
def Gust.linesOut (g : Gust) : List (Nat × Nat) :=
  ([g.a, g.b].flatMap fun x => if x.awaits then (match x.wait with | some w => w.lines | none => []) else [])
    ++ g.syms.flatMap fun y => if y.state = 1 then y.lines else []

/-- The requests for loads that went out on planes of a list (Table 1 step 5): the responses to what a peer had received
before it reported have arrived. -/
def State.loadsOn (s : State) (planes : List Nat) : List (Nat × Nat) :=
  (s.gusts.flatMap fun e => e.2.linesOut).filter fun l => planes.contains (s.planeOf (l.2 * 128)) && !(s.heldFor l.1)

/-- Whether a request went out on a failed plane beyond the count that its peer has reported (Table 1 step 5). -/
def Remap.lostRequest (r : Remap) (q : Request) : Bool :=
  !q.heldInHub && r.failed.contains q.plane && decide (tabGetD r.counts (q.peer * 8 + q.plane) 0 ≤ q.seq)

/-- The remap ends when every peer has reported (Table 1 steps 4 to 6): the new REMAP; the requests of the failed planes that
were not received go out again on their new planes, then those that the hub has held. -/
def State.remapEnd (s : State) : State :=
  match s.hub.remapping with
  | none => s
  | some r =>
    if !r.waiting.isEmpty then s
    else
      let s1 := { s with hub := { s.hub with remapping := none } }
      let loads := s1.loadsOn r.failed
      let s2 := { s1 with hub := { s1.hub with remap := r.next } }
      (((s2.sendWhere r.lostRequest).countLines loads).sendHeld).later r.began

/-- The remap procedure starts (Table 1 step 2), or starts again while one runs: every peer is asked for its count on the
plane that has failed (8: none has). -/
def State.remapBegin (s : State) (failed : Option Nat) (next : BitVec 24) : State :=
  let old := s.hub.remapping
  let planes := match old with | some r => r.failed | none => []
  let left := match old with | some r => r.waiting | none => []
  let run : Remap :=
    { failed := planes ++ failed.toList
      next := next
      began := (old.map fun r => r.began).getD s.hub.now.toNat
      asked := s.hub.now.toNat
      waiting := (left.filter fun w => w.2 != failed.getD 8) ++ s.peers.map fun p => (p, failed.getD 8)
      counts := match old with | some r => r.counts | none => [] }
  { s with hub := { s.hub with remapping := some run } }.remapEnd

/-- REMAP as the procedure that runs will leave it. -/
def State.remapNext (s : State) : BitVec 24 := match s.hub.remapping with | some r => r.next | none => s.hub.remap

/-- Plane k is down (Table 1 step 1), and the procedure starts with the table that follows from it. -/
def State.planeDown (s : State) (k : Nat) : State :=
  let stat := s.hub.planeStat &&& ~~~(BitVec.ofNat 8 (2 ^ k))
  { s with hub := { s.hub with planeStat := stat } }.remapBegin (some k) (failover s.remapNext stat)

/-- PLANE_FAIL (R336, Table 1 step 1): plane input.which fails retraining. -/
def execPlaneFail (s : State) : Outcome :=
  let k := s.input.which
  if 8 ≤ k || !(s.hub.planeStat.getLsbD k) then .refused .noSuchEvent
  else .next ((s.record { cls := 0x05, code := 0x0001, action := 7, part := 0xFF, unit := 6, die := 4, num := k,
                          detail := bytesOf 1 k }).planeDown k)

/-- Whether the remap that runs is the one that a notice starts. -/
def Remap.sameAs (r : Remap) (failed : Option Nat) (next : BitVec 24) : Bool :=
  match failed with
  | some k => r.failed.contains k
  | none => r.next == next

/-- QUIESCE_NOTICE (R336): peer input.which starts the procedure: with input.flag plane input.count has failed, otherwise
input.data is the new REMAP. A notice of the procedure that runs changes nothing. -/
def execQuiesceNotice (s : State) : Outcome :=
  let next := BitVec.ofNat 24 (natOfBytes s.input.data)
  let failed := if s.input.flag then some s.input.count else none
  if !(s.hub.domMask.getLsbD s.input.which) || s.input.which == s.self || (s.input.flag && decide (8 ≤ s.input.count)) then
    .refused .noSuchEvent
  else if (match s.hub.remapping with | some r => r.sameAs failed next | none => false) then .next s
  else if s.input.flag then .next (s.planeDown s.input.count)
  else .next (s.remapBegin none next)

/-- RECEIVED_COUNT_REPORT (R336): peer input.which reports input.count packets on plane input.off, or, when it is asked for
no such plane, on the one that it is asked for; with the last report the remap ends. -/
def execReceivedCountReport (s : State) : Outcome :=
  match s.hub.remapping with
  | none => .refused .noSuchEvent
  | some r =>
    let mine := r.waiting.filter fun w => w.1 == s.input.which
    match (mine.filter fun w => w.2 == s.input.off) ++ mine with
    | [] => .refused .noSuchEvent
    | w :: _ =>
      let r1 := { r with waiting := r.waiting.filter (· != w), counts := tabSet r.counts (w.1 * 8 + w.2) s.input.count }
      .next ({ s with hub := { s.hub with remapping := some r1 } }.remapEnd)

/-- REMAP_ANSWER_TIMEOUT (R337): peer input.which has not answered for 1 ms and is treated as reset. -/
def execRemapAnswerTimeout (s : State) : Outcome :=
  match s.hub.remapping with
  | none => .refused .noSuchEvent
  | some r =>
    let p := s.input.which
    if !(r.waiting.any fun w => w.1 == p) || decide (s.hub.now.toNat < r.asked + 1000000) then .refused .noSuchEvent
    else
      let s1 := { s with hub := { s.hub with remapping := some { r with waiting := r.waiting.filter fun w => w.1 != p },
                                             peerInc := tabDel s.hub.peerInc p } }
      .next ((List.range 16).foldl (fun t q => t.failPeer q p) s1).remapEnd

/-- A write of REMAP (R336, Table 5): ignored when it names a plane that is down. -/
def State.writeRemap (s : State) (v : BitVec 24) : State :=
  if remapUp v s.hub.planeStat then s.remapBegin none v else s

/-- REMAP_WRITE (R336): input.data. -/
def execRemapWrite (s : State) : Outcome := .next (s.writeRemap (BitVec.ofNat 24 (natOfBytes s.input.data)))

/-! ## Registers of the fabric -/

/-- DOMMASK_WRITE (R344): input.data; a new peer's incarnations are not known until its notice. -/
def execDommaskWrite (s : State) : Outcome :=
  .next { s with hub := { s.hub with domMask := BitVec.ofNat 64 (natOfBytes s.input.data) } }

/-- DROPINC_READ (R345, R351): the count, which the read clears. -/
def execDropincRead (s : State) : Outcome :=
  .next { s with hub := { s.hub with dropInc := 0 }, busData := bytesOf 4 s.hub.dropInc.toNat }

/-- A write of one LQOWN byte (R232): the pair is set up afresh. -/
def State.writeLqOwn (s : State) (pair : Nat) (b : Byte) : State :=
  let own := if b = 0xFF then tabDel s.hub.lqOwn pair else tabSet s.hub.lqOwn pair b
  ({ s with hub := { s.hub with lqOwn := own } }).lqFresh pair

/-- LQOWN_WRITE (R232): byte input.off, the owner in input.data. -/
def execLqownWrite (s : State) : Outcome :=
  if 64 ≤ s.input.off then .refused .noSuchEvent else .next (s.writeLqOwn s.input.off (s.input.data.getD 0 0xFF))

end Sys2Proof.Machine
end

