-- ==== Sys2Proof/Machine/Matrix.lean ====
section
/-! DEFINITION. Matrix tasks (spec/07 R204 to R212, spec/02 R63, R68): MXTASK, MXCONV, their epilogues and the vocabulary
heaps. -/

namespace Sys2Proof.Machine

/-! ## The record (R204, R208) -/

/-- The fields of MXTASK, or of MXCONV when conv is set (R204, R208). Plane codes are 2 to 8 or 15. -/
structure Mx where
  conv : Bool
  aaddr : Nat
  baddr : Nat
  acc : Nat
  aCode : Nat
  aRead : Nat
  bCode : Nat
  bRead : Nat
  mt : Nat
  nt : Nat
  kb : Nat
  init : Bool
  epi : Nat
  act : Nat
  loop : Nat
  astep : Int
  bstep : Int
  arow : Nat
  bcol : Nat
  outscale : Word
  bias : Nat
  out : Nat
  pitch : Nat
  deriving DecidableEq, Repr

/-- Reads the fields of a record. -/
def mxOf (bs : List Byte) : Mx :=
  let f := cmdField bs
  { conv := f 0 1 == 0x02, aaddr := f 0x08 4, baddr := f 0x0C 4, acc := f 0x10 4,
    aCode := f 0x14 1 % 16, aRead := f 0x14 1 / 16, bCode := f 0x15 1 % 16, bRead := f 0x15 1 / 16,
    mt := f 0x16 1 % 4 + 1, nt := f 0x16 1 / 4 % 4 + 1, kb := f 0x16 1 / 16,
    init := f 0x17 1 % 2 == 1, epi := f 0x17 1 / 2 % 8, act := f 0x17 1 / 16, loop := f 0x18 4,
    astep := (BitVec.ofNat 32 (f 0x1C 4)).toInt, bstep := (BitVec.ofNat 32 (f 0x20 4)).toInt,
    arow := f 0x24 4, bcol := f 0x28 4, outscale := BitVec.ofNat 32 (f 0x2C 4), bias := f 0x30 4, out := f 0x34 4,
    pitch := f 0x38 4 }

/-- The stored planes a of a plane code, 16 for an outlier-capable slot (R205). -/
def planesOf (code : Nat) : Nat := if code = 15 then 16 else code
/-- The bytes of a tile slot of a plane code (R205). -/
def mxSlot (code : Nat) : Nat := (1 + planesOf code) * 128
/-- Whether a plane byte is in range (R204). -/
def planesOk (code rd : Nat) : Bool :=
  (code == 15 || (decide (2 ≤ code) && decide (code ≤ 8))) && decide (2 ≤ rd) && decide (rd ≤ 8) && decide (rd ≤ planesOf code)

/-! ## The shape record (R208, Table 6) -/

/-- A shape record. -/
structure Shape where
  h : Nat
  w : Nat
  c : Nat
  kh : Nat
  kw : Nat
  sh : Nat
  sw : Nat
  dh : Nat
  dw : Nat
  pt : Nat
  pl : Nat
  padv : Int
  oh : Nat
  ow : Nat
  ok : Bool
  deriving DecidableEq, Repr

/-- The shape record that 64 bytes hold; ok says whether its fields are in range. -/
def shapeOf (bs : List Byte) : Shape :=
  let f := cmdField bs
  let r15 := fun o => decide (1 ≤ f o 1) && decide (f o 1 ≤ 15)
  { h := f 0 2, w := f 2 2, c := f 4 2, kh := f 6 1, kw := f 7 1, sh := f 8 1, sw := f 9 1, dh := f 10 1, dw := f 11 1,
    pt := f 12 1, pl := f 13 1, padv := (BitVec.ofNat 8 (f 14 1)).toInt, oh := f 16 2, ow := f 18 2,
    ok := f 0 2 != 0 && f 2 2 != 0 && f 4 2 != 0 && f 4 2 % 32 == 0 && r15 6 && r15 7 && r15 8 && r15 9 && r15 10 && r15 11
      && decide (f 12 1 ≤ 15) && decide (f 13 1 ≤ 15) && f 15 1 == 0 && f 18 2 != 0 && f 20 44 == 0 }

/-- The blocks of a kernel window: KH·KW·C/32 (R208). -/
def Shape.blocks (x : Shape) : Nat := x.kh * x.kw * (x.c / 32)

/-- The steps of a task (R205, R208): of MXCONV, what makes KB·steps equal KH·KW·C/32. -/
def Mx.steps (m : Mx) (x : Shape) : Nat := if m.conv then (if m.kb = 0 then 0 else x.blocks / m.kb) else m.loop % 65536 + 1

/-- The plane pairs of a task (R205). -/
def Mx.pairs (m : Mx) (x : Shape) : Nat := planesOf m.aCode * planesOf m.bCode * m.kb * m.steps x

/-- SHAPEIX and P0 of MXCONV (R208). -/
def Mx.shapeIx (m : Mx) : Nat := m.loop % 4096
def Mx.p0 (m : Mx) : Nat := m.loop / 4096

/-! ## Field checks (R200, R204) -/

/-- The checks of the fields alone. -/
def Job.mxChecks (j : Job) (s : State) : List (Option CmdFault) :=
  let m := mxOf j.cmd.bytes
  let ft := s.features
  let outOk :=
    if m.epi = 2 then decide (2 ≤ m.pitch % 16) && decide (m.pitch % 16 ≤ 8) && m.pitch / 16 % 4 != 0 && m.pitch / 64 % 4 == 0
    else true
  j.common [(0x3C, 4)] ++
    [fieldOk 0x08 (m.aaddr % 128 == 0), fieldOk 0x0C (m.baddr % 128 == 0), fieldOk 0x10 (m.acc % 64 == 0),
     fieldOk 0x14 (planesOk m.aCode m.aRead && (m.aCode != 15 || ft.getLsbD 9)),
     fieldOk 0x15 (planesOk m.bCode m.bRead && (m.bCode != 15 || ft.getLsbD 9)),
     fieldOk 0x16 (decide (1 ≤ m.kb) && decide (m.kb ≤ 8)),
     fieldOk 0x17 (decide (m.epi ≤ 3) && decide (m.act ≤ 4) && (m.epi != 3 || ft.getLsbD 5)),
     fieldOk 0x18 (m.conv || m.loop / 65536 == 0), fieldOk 0x38 outOk,
     fieldOk 0x34 (m.epi != 3 || m.out % 128 == 0)]

/-! ## Operands -/

/-- One row of a tile: its header, its decoded integers and its values (R57, R58). -/
structure TileRow where
  h : Header
  ints : List Int
  vals : List Word
  deriving DecidableEq, Repr

/-- Row r of a slot read with k planes; outl says that the slot is outlier-capable. A header that reads as NaN is
reserved (R58). -/
def tileRow (bs : List Byte) (k : Nat) (outl : Bool) (r : Nat) : TileRow :=
  let h := slotHeader bs r
  let hd := match headerOf h with
    | .outlier => if outl then .outlier else .reserved
    | x => x
  { h := hd,
    ints := (List.range 32).map fun c => decodePlanes ((List.range k).map (slotBit bs (32 * r + c))),
    vals := (List.range 32).map fun c => (elementValue h k outl (slotBit bs (32 * r + c))).1 }

/-- A row of padding (R208): PADV with scale 1.0. -/
def padRow (v : Int) : TileRow :=
  { h := .nested 32 0, ints := List.replicate 32 v, vals := List.replicate 32 (intNE v) }

/-- The exact sum of exact products, rounded once (R63); NaN and infinities as in an IEEE sum. -/
def exactDot (xs : List (Word × Word)) : Word :=
  let kinds := xs.map fun p => (unpack p.1, unpack p.2)
  let infs := kinds.filterMap fun k =>
    match k with
    | (.inf a, .inf b) => some (a != b)
    | (.inf a, .fin b _ _) | (.fin b _ _, .inf a) => some (a != b)
    | _ => none
  let bad := kinds.any fun k =>
    match k with
    | (.nan _, _) | (_, .nan _) => true
    | (.inf _, .fin _ m _) | (.fin _ m _, .inf _) => m == 0
    | _ => false
  if bad || (infs.contains true && infs.contains false) then canonNaN
  else if infs.contains true then infOf true
  else if infs.contains false then infOf false
  else
    let z := kinds.foldl (fun (t : Int × Int) k =>
      match k with
      | (.fin a m e, .fin b n f) => addExact t.1 t.2 (signed (a != b) (m * n)) (e + f)
      | _ => t) (0, 0)
    (roundSigned .rne z.1 z.2 false).1

/-- The term of one reduction block (R63). -/
def blockTerm (a b : TileRow) : Word :=
  match a.h, b.h with
  | .zero, _ | _, .zero => 0
  | .nested ea ma, .nested eb mb =>
    if (ea = 0 ∧ ma = 0) ∨ (eb = 0 ∧ mb = 0) then 0
    else
      let isum := (List.zipWith (· * ·) a.ints b.ints).sum
      (roundSigned .rne (isum * ((256 + ma) * (256 + mb) : Nat)) ((ea : Int) + (eb : Int) - 80) false).1
  | _, _ => exactDot (List.zip a.vals b.vals)

/-- What a task reads and writes: the front-relative byte ranges of the pushing core's scratchpad. -/
def inSp (fr : Front) (a : Int) (n : Nat) : Bool := decide (0 ≤ a) && decide (a + n ≤ fr.scratch)

/-- The slot offset of A tile (i, c) of step t (R205). -/
def Mx.aSlot (m : Mx) (t i c : Nat) : Int := m.aaddr + t * m.astep + i * m.arow + c * mxSlot m.aCode
/-- The slot offset of B tile (c, n) of step t (R205). -/
def Mx.bSlot (m : Mx) (t n c : Nat) : Int := m.baddr + t * m.bstep + n * m.bcol + c * mxSlot m.bCode

/-- The slot offset and the row of the input pixel of task row r in reduction block k of a convolution (R208); none for a
padding row. -/
def Mx.convSlot (m : Mx) (x : Shape) (k r : Nat) : Option (Int × Nat) :=
  let cb := k % (x.c / 32)
  let kx := k / (x.c / 32) % x.kw
  let ky := k / (x.c / 32) / x.kw
  let p := m.p0 + r
  let iy : Int := (p / x.ow * x.sh : Nat) - (x.pt : Int) + (ky * x.dh : Nat)
  let ix : Int := (p % x.ow * x.sw : Nat) - (x.pl : Int) + (kx * x.dw : Nat)
  if 0 ≤ iy ∧ iy < x.h ∧ 0 ≤ ix ∧ ix < x.w then
    let q := iy.toNat * x.w + ix.toNat
    some (m.aaddr + ((q / 32) * (x.c / 32) + cb) * mxSlot m.aCode, q % 32)
  else none

/-- The reduction blocks of a task as (step, j), in order (R205). -/
def Mx.order (m : Mx) (x : Shape) : List (Nat × Nat) :=
  (List.range (m.steps x)).flatMap fun t => (List.range m.kb).map fun c => (t, c)

/-- The slots that a task reads for A (R205, R208). -/
def Mx.aSlots (m : Mx) (x : Shape) : List Int :=
  if m.conv then
    ((m.order x).flatMap fun k => (List.range (32 * m.mt)).filterMap fun r =>
      (m.convSlot x (k.1 * m.kb + k.2) r).map fun p => p.1).dedup
  else (m.order x).flatMap fun k => (List.range m.mt).map fun i => m.aSlot k.1 i k.2

/-- The slots that a task reads for B. -/
def Mx.bSlots (m : Mx) (x : Shape) : List Int := (m.order x).flatMap fun k => (List.range m.nt).map fun n => m.bSlot k.1 n k.2

/-- The rows of A in one reduction block. -/
def Mx.aRows (m : Mx) (x : Shape) (rd : Nat → Nat → List Byte) (k : Nat × Nat) : List TileRow :=
  let row := fun (off : Int) (r : Nat) => tileRow (rd off.toNat (mxSlot m.aCode)) m.aRead (m.aCode == 15) r
  (List.range (32 * m.mt)).map fun r =>
    if m.conv then
      match m.convSlot x (k.1 * m.kb + k.2) r with
      | some (off, q) => row off q
      | none => padRow x.padv
    else row (m.aSlot k.1 (r / 32) k.2) (r % 32)

/-- The columns of B in one reduction block. -/
def Mx.bRows (m : Mx) (rd : Nat → Nat → List Byte) (k : Nat × Nat) : List TileRow :=
  (List.range (32 * m.nt)).map fun n =>
    tileRow (rd (m.bSlot k.1 (n / 32) k.2).toNat (mxSlot m.bCode)) m.bRead (m.bCode == 15) (n % 32)

/-- The sums z of a task in row-major order, from the accumulators' starting values (R63, R205). -/
def Mx.sums (m : Mx) (x : Shape) (rd : Nat → Nat → List Byte) (start : List Word) : List Word :=
  (m.order x).foldl (fun acc k =>
    let as := m.aRows x rd k
    let bs := m.bRows rd k
    List.zipWith addNE acc (as.flatMap fun a => bs.map fun b => blockTerm a b)) start

/-! ## The epilogue (R206) -/

/-- The activation (R206). -/
def activate (act : Nat) (y : Word) : Word :=
  match act with
  | 1 => if (fpCond 2 y 0).1 then 0 else y
  | 2 => (fpTanh .rne y).1
  | 3 => (fpSigm .rne y).1
  | 4 => mulNE y (fpSigm .rne y).1
  | _ => y

/-- The value y of an output element (R206). -/
def Mx.epilogue (m : Mx) (z : Word) (bias : Option Word) : Word :=
  let y := mulNE z m.outscale
  activate m.act (match bias with | some b => addNE y b | none => y)

/-- The planes of an EPI 2 output slot (R204). -/
def Mx.outPlanes (m : Mx) : Nat := m.pitch % 16
/-- The distance between EPI 2 output row tiles (R204). -/
def Mx.outDist (m : Mx) : Nat := m.pitch / 256

/-- The ranges that the epilogue names, as (record field, first byte, length) (R206). -/
def Mx.outRanges (m : Mx) : List (Nat × Nat × Nat) :=
  (if m.epi ≠ 0 ∧ m.bias ≠ 0xFFFFFFFF then [(0x30, m.bias, 128 * m.nt)] else []) ++
  match m.epi with
  | 1 => [(0x34, m.out, (32 * m.mt - 1) * m.pitch + 128 * m.nt)]
  | 2 => [(0x34, m.out, (m.mt - 1) * m.outDist + m.nt * ((1 + m.outPlanes) * 128))]
  | 3 => [(0x34, m.out, 128)]
  | _ => []

/-! ## Vocabulary heaps (R210 to R212) -/

/-- A sampling block (R210, Table 7). -/
structure Sampling where
  hu : Nat
  hcnt : Nat
  reset : Bool
  path : Bool
  mask : Bool
  topk : Nat
  topp : Word
  rep : Word
  freq : Word
  pres : Word
  temp : Word
  tokbase : Nat
  pen : Nat
  pathAddr : Nat
  maskva : Nat
  fallva : Nat
  mtlva : Nat
  mtarget : Nat
  deadline : Nat
  ok : Bool
  deriving DecidableEq, Repr

/-- The sampling block that 128 bytes hold; ok says whether its fields are in range (R210), PATHADDR among them: a multiple of 4
where PATH is set (DESIGN CHOICE, log 50). -/
def samplingOf (bs : List Byte) : Sampling :=
  let f := cmdField bs
  { hu := f 0 1, hcnt := f 1 1 % 8, reset := f 1 1 / 8 % 2 == 1, path := f 1 1 / 16 % 2 == 1, mask := f 1 1 / 32 % 2 == 1,
    topk := f 2 2, topp := BitVec.ofNat 32 (f 4 4), rep := BitVec.ofNat 32 (f 8 4), freq := BitVec.ofNat 32 (f 0xC 4),
    pres := BitVec.ofNat 32 (f 0x10 4), temp := BitVec.ofNat 32 (f 0x14 4), tokbase := f 0x18 3, pen := f 0x1C 4,
    pathAddr := f 0x20 4, maskva := f 0x28 8, fallva := f 0x30 8, mtlva := f 0x38 8, mtarget := f 0x40 8,
    deadline := f 0x48 8,
    ok := decide (1 ≤ f 1 1 % 8) && decide (f 0 1 + f 1 1 % 8 ≤ 4) && f 1 1 / 64 == 0 && f 0x1B 1 == 0 && f 0x24 4 == 0
      && f 0x50 48 == 0 && (f 0x1C 4 == 0xFFFFFFFF || f 0x1C 4 % 8 == 0) && (f 1 1 / 16 % 2 == 0 || f 0x20 4 % 4 == 0) }

/-- The entries of a base penalty list (R237): its tokens with counts; none when it breaks its limits. -/
def baseList (rd : Nat → Nat → List Byte) (a : Nat) : Option (List (Nat × Nat)) :=
  let n := natOfBytes (rd a 4)
  if 1024 < n then none
  else
    let es := (List.range n).map fun i => (natOfBytes (rd (a + 8 + 8 * i) 4), natOfBytes (rd (a + 12 + 8 * i) 4))
    if (List.zip es (es.drop 1)).all fun p => p.1.1 < p.2.1 then some es else none

/-- The tokens of a path list (R237); none when m is above 63. -/
def pathList (rd : Nat → Nat → List Byte) (a : Nat) : Option (List Nat) :=
  let n := natOfBytes (rd a 4)
  if 63 < n then none else some ((List.range n).map fun i => natOfBytes (rd (a + 4 + 4 * i) 4))

/-- The lists that penalise row r (R211): none when the row takes no penalty. The tokens of 2²⁴ or more that take the penalty
away are those of the lists: a column's own token TOKBASE + c is not tested (DESIGN CHOICE, log 77). -/
def Sampling.lists (b : Sampling) (rd : Nat → Nat → List Byte) (r : Nat) : Option (List (Nat × Nat) × List Nat) :=
  match (if b.pen = 0xFFFFFFFF then some [] else baseList rd b.pen),
        (if b.path then pathList rd (b.pathAddr + 256 * r) else some []) with
  | some es, some ts => if (es.any fun e => 2 ^ 24 ≤ e.1) || ts.any fun t => 2 ^ 24 ≤ t then none else some (es, ts)
  | _, _ => none

/-- The logit of token t in a row (R211, R68). -/
def Sampling.logit (b : Sampling) (ls : Option (List (Nat × Nat) × List Nat)) (t : Nat) (y : Word) : Word :=
  match ls with
  | none => y
  | some (es, ts) =>
    let n := ((es.find? fun e => e.1 == t).map fun e => e.2).getD 0 + (ts.filter fun x => x == t).length
    penalise b.rep b.freq b.pres b.temp n y

/-- log2 e as FP32 (R211). -/
def log2e : Word := 0x3FB8AA3B

/-- FEXP2(RoundNE(RoundNE(a - b)·LOG2E)) (R211, R235, R236). -/
def expDiff (a b : Word) : Word := exp2NE (mulNE (subNE a b) log2e)

/-- Whether (v, t) ranks before (w, u) (R210). -/
def ranksBefore (v : Word) (t : Nat) (w : Word) (u : Nat) : Bool := (fpCond 4 v w).1 || ((fpCond 0 v w).1 && decide (t < u))

/-- A pair inserted in ranking order (R210). -/
def insertRanked (v : Word) (t : Nat) : List (Word × Nat) → List (Word × Nat)
  | [] => [(v, t)]
  | (w, u) :: rest => if ranksBefore v t w u then (v, t) :: (w, u) :: rest else (w, u) :: insertRanked v t rest

/-- A status bit set. -/
def Heap.flag (h : Heap) (bit : Nat) : Heap := { h with status := h.status ||| 2 ^ bit }

/-- Insert (R211). -/
def Heap.insert (h : Heap) (v : Word) (t : Nat) : Heap :=
  if isNaN v then h.flag 3
  else if v = 0xFF800000 then h
  else
    let ms : Word × Word :=
      if h.m = 0xFF800000 then (v, 0x3F800000)
      else if v = 0x7F800000 ∧ h.m = 0x7F800000 then (h.m, addNE h.s 0x3F800000)
      else if (fpCond 3 v h.m).1 then (h.m, addNE h.s (expDiff v h.m))
      else (v, addNE (mulNE h.s (expDiff h.m v)) 0x3F800000)
    { h with m := ms.1, s := ms.2, seen := h.seen + 1, pairs := (insertRanked v t h.pairs).take 256 }

/-- A unit at the start of a task (R211). TOPK and TOPP are taken from every task's block, whatever RESET (DESIGN CHOICE,
log 51). -/
def Heap.begin' (h : Heap) (b : Sampling) : Heap :=
  let h1 : Heap := if b.reset then { topk := h.topk, topp := h.topp } else h
  { h1 with topk := b.topk, topp := b.topp }

/-- One row of a vocabulary task fed into its unit (R211, R212): bits is the mask in force, sel which mask was chosen. -/
def Heap.feed (h : Heap) (b : Sampling) (sel : Nat) (bits : Nat → Bool) (ls : Option (List (Nat × Nat) × List Nat))
    (ys : List Word) : Heap :=
  let h1 := h.begin' b
  let h2 := if ls.isNone then h1.flag 2 else h1
  if b.mask ∧ sel = 2 then h2.flag 4
  else
    let h3 := if b.mask ∧ sel = 1 then h2.flag 5 else h2
    (List.range ys.length).foldl (fun t c =>
      if b.mask && !(bits c) then t
      else t.insert (b.logit ls (b.tokbase + c) (ys.getD c 0)) (b.tokbase + c)) h3

/-! ## Running a task -/

/-- Bytes at a virtual address, read by an engine piece by piece; the fault names a record field. -/
def State.engRead (s : State) (j : Job) (off : Nat) : Nat → Nat → Nat → List Byte → State × Except CmdFault (List Byte)
  | 0, _, _, bs => (s, .ok bs)
  | fuel + 1, va, n, bs =>
    if n = 0 then (s, .ok bs)
    else
      let k := min n (0x10000 - va % 0x10000)
      match s.engVa j va k false with
      | (s1, .error e) => (s1, .error (e.fault off 1 (va % 2 ^ 56)))
      | (s1, .ok p) => s1.engRead j off fuel (va + k) (n - k) (bs ++ s1.placeRead p k)

/-- The shape record of MXCONV (R208): the fault of reading it, or the record. -/
def State.shape (s : State) (j : Job) : State × Except CmdFault Shape :=
  let m := mxOf j.cmd.bytes
  if !m.conv then (s, .ok (shapeOf []))
  else
    match s.engRead j 0x18 4 (j.fr.shapes.toNat + 64 * m.shapeIx) 64 [] with
    | (s1, .error f) => (s1, .error f)
    | (s1, .ok bs) =>
      let x := shapeOf bs
      if !x.ok then (s1, .error { off := 0x18 })
      else if m.kb = 0 ∨ x.blocks % m.kb ≠ 0 then (s1, .error { off := 0x16 })
      else (s1, .ok x)

/-- A scratchpad range check of a task (R205). -/
def rangeOk (off : Nat) (ok : Bool) : Option CmdFault := if ok then none else some { off := off, cls := 0x02 }

/-- The scratchpad of the pushing core as a task sees it: by front-relative offset. -/
def State.taskSp (s : State) (j : Job) (a n : Nat) : List Byte := (s.core j.cmd.core).spBytes (j.fr.spBase j.cmd.core + a) n

/-- The sampling block of a task. -/
def State.sampling (s : State) (j : Job) : Sampling := samplingOf (s.taskSp j (mxOf j.cmd.bytes).out 128)

/-- The range checks of a task (R205, R211). -/
def State.mxRanges (s : State) (j : Job) (x : Shape) : List (Option CmdFault) :=
  let m := mxOf j.cmd.bytes
  let b := s.sampling j
  let penLen := 8 + 8 * min 1024 (natOfBytes (s.taskSp j b.pen 4))
  [rangeOk 0x08 ((m.aSlots x).all fun a => inSp j.fr a (mxSlot m.aCode)),
   rangeOk 0x0C ((m.bSlots x).all fun a => inSp j.fr a (mxSlot m.bCode)),
   rangeOk 0x10 (m.acc + 4 * (32 * m.mt) * (32 * m.nt) ≤ j.fr.accum),
   fieldOk 0x18 (m.pairs x ≤ 65536)] ++
  (m.outRanges.map fun r => rangeOk r.1 (inSp j.fr r.2.1 r.2.2)) ++
  (if m.epi = 3 ∧ inSp j.fr m.out 128 then
    [fieldOk 0x34 b.ok, rangeOk 0x34 (b.pen == 0xFFFFFFFF || inSp j.fr b.pen penLen),
     rangeOk 0x34 (!b.path || inSp j.fr b.pathAddr (256 * b.hcnt))]
   else [])

/-- Writes the output of EPI 1 and 2 (R206). -/
def State.mxOutput (s : State) (j : Job) (ys : List Word) : State :=
  let m := mxOf j.cmd.bytes
  let base := j.fr.spBase j.cmd.core + m.out
  let row := fun r => (ys.drop (r * (32 * m.nt))).take (32 * m.nt)
  let put := fun (t : State) (a : Nat) (bs : List Byte) => t.setCore j.cmd.core ((t.core j.cmd.core).spSet a bs)
  match m.epi with
  | 1 => (List.range (32 * m.mt)).foldl (fun t r =>
      put t (base + r * m.pitch) ((row r).flatMap fun y => bytesOf 4 y.toNat)) s
  | 2 => (List.range m.mt).foldl (fun t i => (List.range m.nt).foldl (fun u n =>
      let vals := (List.range 32).flatMap fun r => ((row (32 * i + r)).drop (32 * n)).take 32
      put u (base + i * m.outDist + n * ((1 + m.outPlanes) * 128)) (tileSlot m.outPlanes (blenOf (m.pitch / 16 % 4)) vals)) t) s
  | _ => s

/-- Feeds the heap units of a vocabulary task (R211). -/
def State.mxVocab (s : State) (j : Job) (b : Sampling) (sel : Nat) (bits : Nat → Bool) (ys : List Word) : State :=
  let m := mxOf j.cmd.bytes
  let c := s.core j.cmd.core
  let row := fun r => (ys.drop (r * (32 * m.nt))).take (32 * m.nt)
  let hs := (List.range b.hcnt).foldl (fun hs r =>
    listSet hs (b.hu + r) ((hs.getD (b.hu + r) {}).feed b sel bits (b.lists (s.taskSp j) r) (row r))) c.heaps
  s.setCore j.cmd.core { c with heaps := hs }

/-- The mask bits of a vocabulary task's columns (R211, R212). -/
def State.maskBits (s : State) (j : Job) (b : Sampling) (sel : Nat) : State × Except CmdFault (Nat → Bool) :=
  let m := mxOf j.cmd.bytes
  if !b.mask ∨ 2 ≤ sel then (s, .ok fun _ => true)
  else
    let va := if sel = 0 then b.maskva else b.fallva
    match s.engRead j 0x34 4 (va + b.tokbase / 8) ((b.tokbase % 8 + 32 * m.nt + 7) / 8) [] with
    | (s1, .error f) => (s1, .error f)
    | (s1, .ok bs) =>
      (s1, .ok fun c => (bs.getD ((b.tokbase + c) / 8 - b.tokbase / 8) 0).getLsbD ((b.tokbase + c) % 8))

/-- A matrix task whose checks have passed (R205, R206). -/
def mxGo (j : Job) (x : Shape) (s : State) : CmdResult :=
  let m := mxOf j.cmd.bytes
  let rd := s.taskSp j
  let base := j.fr.accBase j.cmd.core + m.acc
  let n := 32 * m.mt * (32 * m.nt)
  let old := memGetBytes (s.core j.cmd.core).accum base (4 * n)
  let start := if m.init then wordsOf old n else List.replicate n 0
  let zs := m.sums x rd start
  let bias := fun c => if m.bias = 0xFFFFFFFF then none else some (BitVec.ofNat 32 (natOfBytes (rd (m.bias + 4 * c) 4)))
  let ys := (List.range n).map fun i => m.epilogue (zs.getD i 0) (bias (i % (32 * m.nt)))
  let b := s.sampling j
  let sel := j.cmd.mask.getD 0
  match (if m.epi = 3 then s.maskBits j b sel else (s, .ok fun _ => true)) with
  | (s1, .error f) => .fault s1 f
  | (s1, .ok bits) =>
    let c := s1.core j.cmd.core
    let s2 := s1.setCore j.cmd.core { c with accum := memSetBytes c.accum base (zs.flatMap fun z => bytesOf 4 z.toNat) }
    .done (if m.epi = 3 then s2.mxVocab j b sel bits ys else s2.mxOutput j ys)

/-- MXTASK and MXCONV (R205, R208). -/
def mxRun (j : Job) (_ : Started) (s : State) : CmdResult :=
  match firstFault (j.mxChecks s) with
  | some f =>
    match s.shape j with
    | (s1, .error g) => .fault s1 (if g.off < f.off then g else f)
    | (s1, .ok _) => .fault s1 f
  | none =>
    match s.shape j with
    | (s1, .error f) => .fault s1 f
    | (s1, .ok x) => checked (s1.mxRanges j x) s1 (mxGo j x s1)

/-- MXTASK (R205). -/
def execMxtask (key num : Nat) (s : State) : Outcome := runCommand s key num 0x01 mxRun
/-- MXCONV (R208). -/
def execMxconv (key num : Nat) (s : State) : Outcome := runCommand s key num 0x02 mxRun

end Sys2Proof.Machine
end

