-- ==== Sys2Proof/Machine/Shake.lean ====
section
/-! DEFINITION. SHAKE256, which the spec names for digests (spec/08 R260, spec/14 R389): the Keccak-f[1600] sponge of FIPS 202
(log 10). -/

namespace Sys2Proof.Machine

/-- The rotation of lane x + 5y. -/
def keccakRot : List Nat :=
  [0, 1, 62, 28, 27, 36, 44, 6, 55, 20, 3, 10, 43, 25, 39, 41, 45, 15, 21, 8, 18, 2, 61, 56, 14]

/-- The round constants. -/
def keccakRc : List DWord :=
  [0x0000000000000001, 0x0000000000008082, 0x800000000000808A, 0x8000000080008000,
   0x000000000000808B, 0x0000000080000001, 0x8000000080008081, 0x8000000000008009,
   0x000000000000008A, 0x0000000000000088, 0x0000000080008009, 0x000000008000000A]
  ++ [0x000000008000808B, 0x800000000000008B, 0x8000000000008089, 0x8000000000008003,
   0x8000000000008002, 0x8000000000000080, 0x000000000000800A, 0x800000008000000A,
   0x8000000080008081, 0x8000000000008080, 0x0000000080000001, 0x8000000080008008]

/-- One round on 25 lanes. -/
def keccakRound (a : List DWord) (rc : DWord) : List DWord :=
  let at' := fun (m : List DWord) (x y : Nat) => m.getD (x % 5 + 5 * (y % 5)) 0
  let c := (List.range 5).map fun x => at' a x 0 ^^^ at' a x 1 ^^^ at' a x 2 ^^^ at' a x 3 ^^^ at' a x 4
  let d := (List.range 5).map fun x => c.getD ((x + 4) % 5) 0 ^^^ (c.getD ((x + 1) % 5) 0).rotateLeft 1
  let t := (List.range 25).map fun i => (a.getD i 0 ^^^ d.getD (i % 5) 0).rotateLeft (keccakRot.getD i 0)
  let b := (List.range 25).map fun i => at' t (i % 5 + 3 * (i / 5)) (i % 5)
  let e := (List.range 25).map fun i => b.getD i 0 ^^^ (~~~(at' b (i + 1) (i / 5)) &&& at' b (i + 2) (i / 5))
  match e with
  | x :: xs => (x ^^^ rc) :: xs
  | [] => []

/-- The permutation. -/
def keccakF (a : List DWord) : List DWord := keccakRc.foldl keccakRound a

/-- The 64-bit lane that 8 bytes hold. -/
def laneOfBytes (bs : List Byte) : DWord := bs.foldr (fun b x => (x <<< 8) ||| b.zeroExtend 64) 0

/-- A message absorbed block by block, 136 bytes each; fuel is the number of blocks. -/
def absorb : Nat → List Byte → List DWord → List DWord
  | 0, _, a => a
  | n + 1, m, a =>
    absorb n (m.drop 136)
      (keccakF ((List.range 25).map fun i => a.getD i 0 ^^^ (if i < 17 then laneOfBytes ((m.drop (8 * i)).take 8) else 0)))

/-- The padding of a message of n bytes: 0x1F, zeros, 0x80 in the last byte. -/
def shakePad (n : Nat) : List Byte :=
  let k := 136 - n % 136
  if k = 1 then [0x9F] else 0x1F :: List.replicate (k - 2) 0 ++ [0x80]

/-- SHAKE256 of a message, n bytes of output, at most 136 (R389, RFC 8032). -/
def shakeBytes (m : List Byte) (n : Nat) : List Byte :=
  let p := m ++ shakePad m.length
  (((absorb (p.length / 136) p (List.replicate 25 0)).take ((n + 7) / 8)).flatMap fun (x : DWord) =>
    (List.range 8).map fun i => ((x >>> (8 * i)).truncate 8 : Byte)).take n

/-- SHAKE256 of a message, 64 bytes (R389). -/
def shake256 (m : List Byte) : List Byte := shakeBytes m 64

end Sys2Proof.Machine
end

