-- ==== Sys2Proof/Machine/Ed448.lean ====
section
/-! DEFINITION. Ed448 signatures with a context string, which the spec names for objects, firmware and the attestation report
(spec/08 R260, spec/14 R389, R391): RFC 8032, sections 5.2.1 to 5.2.7 (log 10). -/

namespace Sys2Proof.Machine

/-- The bytes of an ASCII string. -/
def asciiBytes (x : String) : List Byte := x.toList.map fun c => BitVec.ofNat 8 c.toNat

/-! ## The field -/

/-- The prime of the field. -/
def edP : Nat := 2 ^ 448 - 2 ^ 224 - 1

/-- The order of the base point. -/
def edOrder : Nat := 2 ^ 446 - 0x8335dc163bb124b65129c96fde933d8d723a70aadc873d6d54a7bb0d

/-- A difference in the field. -/
def edSub (a b : Nat) : Nat := (a + (edP - b % edP)) % edP

/-- A power in the field; n is the number of the exponent's bits. -/
def edPow (a e : Nat) : Nat → Nat
  | 0 => 1
  | n + 1 =>
    let r := edPow a (e / 2) n
    let q := r * r % edP
    if e % 2 = 1 then q * a % edP else q

/-- The inverse in the field. -/
def edInv (a : Nat) : Nat := edPow a (edP - 2) 448

/-- The curve's constant d, -39081. -/
def edD : Nat := edP - 39081

/-! ## The curve -/

/-- A point in projective coordinates. -/
structure EdPoint where
  x : Nat
  y : Nat
  z : Nat
  deriving DecidableEq, Repr

/-- The sum of two points. -/
def EdPoint.add (p q : EdPoint) : EdPoint :=
  let a := p.z * q.z % edP
  let b := a * a % edP
  let c := p.x * q.x % edP
  let d := p.y * q.y % edP
  let e := edD * (c * d % edP) % edP
  let f := edSub b e
  let g := (b + e) % edP
  let h := (p.x + p.y) * (q.x + q.y) % edP
  { x := a * f % edP * edSub (edSub h c) d % edP
    y := a * g % edP * edSub d c % edP
    z := f * g % edP }

/-- A multiple of a point; n is the number of the factor's bits. -/
def EdPoint.mul (p : EdPoint) (k : Nat) : Nat → EdPoint
  | 0 => { x := 0, y := 1, z := 1 }
  | n + 1 =>
    let r := p.mul (k / 2) n
    let q := r.add r
    if k % 2 = 1 then q.add p else q

/-- Whether two points are the same. -/
def EdPoint.same (p q : EdPoint) : Bool :=
  p.x * q.z % edP == q.x * p.z % edP && p.y * q.z % edP == q.y * p.z % edP

/-- The base point. -/
def edBase : EdPoint :=
  { x := 224580040295924300187604334099896036246789641632564134246125461686950415467406032909029192869357953282578032075146446173674602635247710
    y := 298819210078481492676017930443930673437544040154080242095928241372331506189835876003536878655418784733982303233503462500531545062832660
    z := 1 }

/-- The 57 bytes of a point. -/
def EdPoint.bytes (p : EdPoint) : List Byte :=
  let i := edInv p.z
  bytesOf 57 (p.y * i % edP + p.x * i % edP % 2 * 2 ^ 455)

/-- The point that 57 bytes hold. -/
def edPoint? (bs : List Byte) : Option EdPoint :=
  let n := natOfBytes bs
  let y := n % 2 ^ 455
  let sign := n / 2 ^ 455
  let u := edSub (y * y) 1
  let v := edSub (edD * (y * y % edP)) 1
  let u3v := u * u % edP * u % edP * v % edP
  let x := u3v * edPow (u3v * (u * u % edP) % edP * (v * v % edP) % edP) ((edP - 3) / 4) 448 % edP
  if edP ≤ y ∨ v * (x * x % edP) % edP ≠ u ∨ (x = 0 ∧ sign = 1) then none
  else some { x := if x % 2 = sign then x else edP - x, y := y, z := 1 }

/-! ## Keys and signatures -/

/-- The 114-byte hash that a signature takes of a context string and a message, as a number. -/
def edHash (context m : List Byte) : Nat :=
  natOfBytes (shakeBytes (asciiBytes "SigEd448" ++ [0, BitVec.ofNat 8 context.length] ++ context ++ m) 114) % edOrder

/-- The secret scalar of a private key, and the prefix of its hashes. -/
def edSecret (key : List Byte) : Nat × List Byte :=
  let h := shakeBytes key 114
  let n := natOfBytes (h.take 57) % 2 ^ 448
  (n % 2 ^ 447 / 4 * 4 + 2 ^ 447, h.drop 57)

/-- The public key of a private key. -/
def ed448Public (key : List Byte) : List Byte := (edBase.mul (edSecret key).1 448).bytes

/-- The signature of a message under a private key and a context string. -/
def ed448Sign (key context m : List Byte) : List Byte :=
  let s := edSecret key
  let a := (edBase.mul s.1 448).bytes
  let r := edHash context (s.2 ++ m)
  let r' := (edBase.mul r 448).bytes
  r' ++ bytesOf 57 ((r + edHash context (r' ++ a ++ m) * s.1) % edOrder)

/-- Whether a signature verifies: public key, context string, message, signature. The equation is that with the cofactor, which
RFC 8032 gives first (log 10). -/
def ed448Verify (pub context m sig : List Byte) : Bool :=
  let s := natOfBytes ((sig.drop 57).take 57)
  match edPoint? (sig.take 57), edPoint? pub with
  | some r, some a =>
    let k := edHash context (sig.take 57 ++ pub ++ m)
    decide (s < edOrder) && ((edBase.mul s 448).mul 4 3).same ((r.add (a.mul k 448)).mul 4 3)
  | _, _ => false

end Sys2Proof.Machine
end

