-- ==== Sys2Proof/Machine/Security.lean ====
section
/-! DEFINITION. The security processor (spec/14 R388 to R392, spec/08 R255, R260): bring-up, installation, attestation, accepted
features. -/

namespace Sys2Proof.Machine

/-- A little-endian field of bytes. -/
def fieldOf (bs : List Byte) (off n : Nat) : Nat := natOfBytes ((bs.drop off).take n)

/-- M_k extended with a digest (R389). -/
def extend (m : List (List Byte)) (k : Nat) (digest : List Byte) : List (List Byte) :=
  listSet m k (shake256 (m.getD k [] ++ digest))

/-! ## The signature trailer (R260) -/

/-- The trailer: the last 192 bytes. -/
def trailerOf (bs : List Byte) : List Byte := bs.drop (bs.length - 192)
/-- Its PUBKEY. -/
def pubkeyOf (t : List Byte) : List Byte := (t.drop 0x10).take 57
/-- Its SIG. -/
def sigOf (t : List Byte) : List Byte := (t.drop 0x49).take 114
/-- Whether the trailer's fixed bytes and its KEYID are as R260 gives them; bytes 0x02 up to lo are left free. -/
def trailerOk (t : List Byte) (lo : Nat) : Bool :=
  fieldOf t 0 2 == 1 && ((t.drop lo).take (8 - lo)).all (· == 0) && (t.drop 0xBB).all (· == 0)
    && (t.drop 8).take 8 == (shake256 (pubkeyOf t)).take 8

/-! ## Bring-up (R388, R389) -/

/-- The digest of a firmware image: without the trailer, with its first 8 bytes. -/
def firmwareDigest (bs : List Byte) : List Byte := shake256 (bs.take (bs.length - 192) ++ (trailerOf bs).take 8)
/-- VERSION of a firmware image. -/
def firmwareVersion (bs : List Byte) : Nat := fieldOf (trailerOf bs) 2 4

/-- Whether a firmware image is accepted (R389). -/
def firmwareOk (rollback : Word) (bs : List Byte) : Bool :=
  let t := trailerOf bs
  decide (192 ≤ bs.length) && trailerOk t 6 && Config.vendorKeyHashes.contains (shake256 (pubkeyOf t))
    && ed448Verify (pubkeyOf t) (asciiBytes "DV9616-FW") (firmwareDigest bs) (sigOf t)
    && decide (rollback.toNat ≤ firmwareVersion bs)

/-- The images verified in order and extended into M0, M1, M2; false when one is refused (step 2). -/
def verifyImages (rollback : Word) (images : List (List Byte)) : List Nat → List (List Byte) → List (List Byte) × Bool
  | [], m => (m, true)
  | k :: ks, m =>
    let bs := images.getD k []
    if firmwareOk rollback bs then verifyImages rollback images ks (extend m k (firmwareDigest bs)) else (m, false)

/-- M0 to M7 cleared (step 1). -/
def clearM : List (List Byte) := List.replicate 8 (List.replicate 64 0)

/-- BOOTSTAT set, with Configuration Request Retry Status ended when bring-up is done (step 5). -/
def State.bootEnd (s : State) (stat : Byte) : State :=
  { s with sec := { s.sec with bootStat := stat }, inReset := stat != 1 }

/-- Steps 1 and 5 alone, for a reset that skips steps 2 to 4. -/
def State.bringUpShort (s : State) : State := { s with sec := { s.sec with m := clearM } }.bootEnd 1

/-- Bring-up with what input.boot finds (R388, R389): the flash counter advances, and at power-on the incarnations are loaded
from it (R344); a reset of code 2 or 9 has raised them (R382). -/
def State.bringUp (s : State) : State :=
  let b := s.input.boot
  let (m, ok) := verifyImages s.sec.rollback b.images [0, 1, 2] clearM
  let s1 := { s with sec := { s.sec with m := m } }
  if !ok then s1.bootEnd 2
  else if !b.trained then s1.bootEnd 3
  else
    let top := ([0, 1, 2].map fun k => firmwareVersion (b.images.getD k [])).foldl max s.sec.rollback.toNat
    let boot := s1.sec.bootNo + 1
    { s1 with
      hub := { s1.hub with inc :=
        if s1.hub.rstCause = 1 then (List.range 16).map fun q => Config.flashIncarnation boot q else s1.hub.inc }
      sec := { s1.sec with idKey := ed448Public Config.identityKey, bootNo := boot, rollback := BitVec.ofNat 32 top } }.bootEnd 1

/-! ## Installation (R390) -/

/-- INSTGO written with 1. -/
def State.instGo (s : State) : State := if s.sec.instStat = 1 then s else { s with sec := { s.sec with instStat := 1 } }

/-- INSTGO (R390). -/
def execInstgo (s : State) : Outcome := .next s.instGo

/-- Whether a KEYID is that of a valid owner key. -/
def State.ownsKey (s : State) (id : List Byte) : Bool :=
  s.sec.ownKeys.any fun k => (k.getD 57 0).getLsbD 0 && (shake256 (k.take 57)).take 8 == id

/-- Whether an object and its signature are those of R255 and R260 and a valid owner key matches (R390). -/
def State.objectOk (s : State) (bs : List Byte) : Bool :=
  let t := trailerOf bs
  decide (320 ≤ bs.length) && bs.take 4 == [0x45, 0x57, 0x4F, 0x01] && fieldOf bs 4 2 == 1 && fieldOf bs 6 2 == 2
    && fieldOf bs 0x48 8 == bs.length - 192 && trailerOk t 2 && s.ownsKey ((t.drop 8).take 8)
    && ed448Verify (pubkeyOf t) (asciiBytes "EWO") (shake256 (bs.take (bs.length - 192))) (sigOf t)

/-- INSTSTAT for an object (R390): 2 accepted; 3, 4 or 5. -/
def State.installStatus (s : State) (bs : List Byte) : Nat :=
  if !(s.objectOk bs) then 3
  else if BitVec.ofNat 128 (fieldOf bs 0x38 16) &&& ~~~s.features ≠ 0 then 4
  else if 64 ≤ s.sec.ranges.length then 5
  else 2

/-- INSTALLATION_COMPLETE (R390): the check of the object at INSTPA has ended. -/
def execInstallationComplete (s : State) : Outcome :=
  if s.sec.instStat ≠ 1 then .refused .noSuchEvent
  else
    let d := s.own s.sec.instPa.toNat
    let n := s.sec.instLen.toNat
    let bs := s.readBytes d n
    let st := s.installStatus bs
    let s1 := { s with sec := { s.sec with instStat := BitVec.ofNat 3 st } }
    if st = 2 then
      .next { s1 with sec := { s1.sec with ranges := s1.sec.ranges ++ [(fieldOf bs 0x30 8, d, n)],
                                           m := extend s1.sec.m 4 (shake256 (bs.take (n - 192))) } }
    else .next (s1.record { cls := 0x0B, code := 0x0001, action := 0, part := 0xFF, unit := 10,
                            detail := ((trailerOf bs).drop 8).take 8 })

/-! ## Attestation (R391) -/

/-- ATTGO written with 1. -/
def State.attGo (s : State) : State := if s.sec.attStat = 1 then s else { s with sec := { s.sec with attStat := 1 } }

/-- ATTGO (R391). -/
def execAttgo (s : State) : Outcome := .next s.attGo

/-- Bytes 0x000 to 0x27F of the report (Table 2). -/
def State.reportBody (s : State) : List Byte :=
  bytesOf 2 1 ++ List.replicate 6 0 ++ padTo 32 s.sec.attNonce ++ bytesOf 8 s.hub.now.toNat ++ bytesOf 16 s.features.toNat
    ++ padTo 57 s.sec.idKey ++ List.replicate 7 0 ++ s.sec.m.flatMap (padTo 64)

/-- The 768 bytes of the report. -/
def State.report (s : State) : List Byte :=
  let body := s.reportBody
  body ++ padTo 114 (ed448Sign Config.identityKey (asciiBytes "DV9616-ATTEST") (shake256 body)) ++ List.replicate 14 0

/-- ATTESTATION_REPORT_WRITTEN (R391): the whole report is at ATTPA, aligned to 64 (log 63). -/
def execAttestationReportWritten (s : State) : Outcome :=
  let pa := s.sec.attPa.toNat / 64 * 64
  if s.sec.attStat ≠ 1 then .refused .noSuchEvent
  else if (regionOf pa).tier?.isNone then .fault (.noSuchAddress pa)
  else
    let s1 := s.storeBytes (s.own pa) s.report
    .next { s1 with sec := { s1.sec with attStat := 2 } }

/-- A write of ATTNONCE. -/
def State.writeNonce (s : State) (bs : List Byte) : State := { s with sec := { s.sec with attNonce := padTo 32 bs, attStat := 0 } }
/-- A write of ATTPA. -/
def State.writeAttPa (s : State) (n : Nat) : State :=
  { s with sec := { s.sec with attPa := BitVec.ofNat 44 n, attStat := 0 } }

/-- ATT_PARAM_WRITE (R391): ATTNONCE with input.flag, otherwise ATTPA; input.data. -/
def execAttParamWrite (s : State) : Outcome :=
  .next (if s.input.flag then s.writeNonce s.input.data else s.writeAttPa (natOfBytes s.input.data))

/-! ## Features (R392) -/

/-- A write of word k of FEATACC: ignored once FEATLOCK is set; word 3 fixes the accepted set. -/
def State.writeFeat (s : State) (k : Nat) (v : Word) : State :=
  if s.sec.featLock then s
  else
    let old := s.sec.featAcc
    let acc := BitVec.ofNat 128 (old.toNat - bitsOf old.toNat (32 * k + 31) (32 * k) * 2 ^ (32 * k) + v.toNat * 2 ^ (32 * k))
    if k = 3 then { s with sec := { s.sec with featAcc := acc, featSet := (acc &&& s.available) ||| 1, featLock := true } }
    else { s with sec := { s.sec with featAcc := acc } }

/-- FEATACC_WRITE (R392): word input.which, input.data. -/
def execFeataccWrite (s : State) : Outcome :=
  if 4 ≤ s.input.which then .refused .noSuchEvent
  else .next (s.writeFeat s.input.which (BitVec.ofNat 32 (natOfBytes s.input.data)))

/-- A write of owner key k: ignored once FEATLOCK is set (R392). -/
def State.writeOwnKey (s : State) (k : Nat) (bs : List Byte) : State :=
  if s.sec.featLock then s else { s with sec := { s.sec with ownKeys := listSet s.sec.ownKeys k bs } }

end Sys2Proof.Machine
end

