-- ==== Sys2Proof/Machine/Resets.lean ====
section
/-! DEFINITION. Resets (spec/13 R380 to R382, spec/14 R388). A reset happens whole, in one step. -/

namespace Sys2Proof.Machine

/-! ## Partition reset (R380) -/

/-- The outcome's state, or the state before. -/
def stateOr (o : Outcome) (s : State) : State := match o with | .next t => t | _ => s

/-- A matrix task that has been issued runs out (step 3). -/
def State.runTask (s : State) (key num type : Nat) : State :=
  match type with
  | 0x01 => stateOr (execMxtask key num s) s
  | 0x02 => stateOr (execMxconv key num s) s
  | _ => s

/-- The matrix tasks that the contexts of a partition's fronts have issued run out (step 3); copy commands stand between two
of their turns, at a 4 KiB boundary, and stop there. -/
def State.runOut (s : State) (fs : List Nat) : State :=
  (s.engs.filter fun e => fs.contains e.2.front && e.2.cls == 0).foldl (fun t e =>
    (e.2.started.filter fun x => !x.done).foldl (fun u x => u.runTask e.1 x.cmd.num (cmdField x.cmd.bytes 0 1)) t) s

/-- The open work of a gust that is drained finishes or lands (R370, R371): its replies and its drift loads arrive and its
posted operations complete. What a home does not answer now fails with the reset (R345). -/
def State.landGust (s : State) (k : Nat) : State :=
  match s.gust? k with
  | none => s
  | some g =>
    let s1 := ([false, true].filter fun b => (g.slot b).awaits).foldl (fun t b => stateOr (execLoadReply k b t) t) s
    let s2 := ((List.range 8).filter fun n => (g.syms.getD n {}).state == 1).foldl
      (fun t n => stateOr (execDriftArrival k n t) t) s1
    g.posted.foldl (fun t p => stateOr (execPostedCompletion k p.id t) t) s2

/-- The resident gusts of a partition's fronts that are not pre-emptible are drained (R371): the issued tasks run out, open
work lands, and the spill engine writes the save areas. -/
def State.drainPart (s : State) (q : Nat) : State :=
  let fs := (s.fronts.filter fun e => e.2.part == q && !e.2.preempt).map fun e => e.1
  let ks := (s.gusts.filter fun e => fs.contains e.2.front && resident e.1).map fun e => e.1
  ks.foldl (fun t k => t.saveGust k []) (ks.foldl State.landGust (s.runOut fs))

/-- A core without what fronts, gusts and contexts of a partition hold on it. -/
def Core.purged (c : Core) (q : Nat) (owned : Bool) (ks es insts : List Nat) : Core :=
  { c with
    locks := c.locks.filter fun l => !(ks.contains l.2)
    rsb := c.rsb.filter fun r => !(es.contains r.eng)
    tasks := c.tasks.filter fun t => !(es.contains t.1)
    requeue := c.requeue.filter fun t => !(es.contains t.1)
    wcb := c.wcb.filter fun w => w.part != q
    aw := if owned then [] else c.aw
    saved := c.saved.filter fun x => !(insts.contains x.inst)
    shadow := match c.shadow with
      | some x => if insts.contains x.inst then none else some x
      | none => none }

/-- The schedule entries and instances of a partition stop (step 1). -/
def State.stopSchedule (s : State) (q : Nat) : State :=
  { s with
    sched := s.sched.map fun e => (e.1,
      if e.2.part.toNat = q then { e.2 with valid := false, unfinished := false, deferred := false } else e.2)
    insts := s.insts.filter fun e => e.2.part != q }

/-- The hub without what a partition has under way (steps 4 and 5), its incarnation raised; loads of its gusts had n lines
out, whose responses may still come (R345). -/
def Hub.purged (h : Hub) (q n : Nat) : Hub :=
  { h with
    requests := h.requests.filter fun r => r.part != q
    lost := h.lost + n + (h.requests.filter fun r => r.part == q && !r.heldInHub).length
    pfRecs := h.pfRecs.filter fun r => r.2.part != q
    inc := listSet h.inc q (h.inc.getD q 0 + 1)
    msix := h.msix.filter fun v => v / 16 != q + 1
    msixHeld := h.msixHeld.filter (· != q + 1) }

/-- The lines of a partition's loads that have been sent and not answered. -/
def State.linesLost (s : State) (fs : List Nat) : Nat :=
  ((s.gusts.filter fun e => fs.contains e.2.front).map fun e => (e.2.linesOut.filter fun l => !(s.heldFor l.1)).length).sum

/-- Steps 1 to 6 for a partition. -/
def State.purge (s : State) (q : Nat) : State :=
  let fs := (s.fronts.filter fun e => e.2.part == q).map fun e => e.1
  let cores := s.coresOf q
  let s1 := s.runOut fs
  let ks := (s1.gusts.filter fun e => fs.contains e.2.front).map fun e => e.1
  let es := (s1.engs.filter fun e => fs.contains e.2.front).map fun e => e.1
  let insts := (s1.insts.filter fun e => e.2.part == q).map fun e => e.1
  let s2 := s1.stopSchedule q
  let s3 :=
    { s2 with
      gusts := s2.gusts.filter fun e => !(fs.contains e.2.front)
      engs := s2.engs.filter fun e => !(fs.contains e.2.front)
      fronts := s2.fronts.filter fun e => e.2.part != q
      cores := s2.cores.map fun c => (c.1, c.2.purged q (cores.contains c.1) ks es insts)
      dies := s2.dies.map fun d =>
        { d with leave := d.leave.filter fun r => r.part != q, counters := d.counters.filter fun c => !(fs.contains c.2.front) }
      hub := s2.hub.purged q (s1.linesLost fs) }
  ((List.range 64).filter fun p => s.lqOwner p == q).foldl State.lqFresh s3

/-- A partition reset (R380) with its cause, after the drain of its fronts that are not pre-emptible (R371). -/
def State.resetPart (s : State) (q cause : Nat) : State :=
  let s1 := (s.drainPart q).purge q
  let p := s1.part q
  s1.setPart q { p with running := true, resetting := false, prstCause := BitVec.ofNat 8 cause,
                        pfLast := List.replicate 8 256, wdLeft := p.wdog }

/-- A partition reset from outside. -/
def resetPartBy (q cause : Nat) (s : State) : Outcome := if 16 ≤ q then .refused .noSuchEvent else .next (s.resetPart q cause)

/-- PRESET (R379, code 6): partition input.which. -/
def execPreset (s : State) : Outcome := resetPartBy s.input.which 6 s
/-- VF_FLR (R381, code 4): VF input.which + 1. -/
def execVfFlr (s : State) : Outcome := resetPartBy s.input.which 4 s

/-- WATCHDOG_EXPIRE (R381, code 7): the count of partition input.which has run down. -/
def execWatchdogExpire (s : State) : Outcome :=
  let q := s.input.which
  let p := s.part q
  if 16 ≤ q ∨ p.wdog = 0 ∨ p.wdLeft ≠ 0 then .refused .noSuchEvent
  else
    let (n, s1) := s.freshNat
    .next ((s1.record { cls := 0x0E, code := 0x0005, action := 4, part := q, unit := n % 16 }).resetPart q 7)

/-! ## Package resets (R381, R382) -/

/-- The causes that RSTCOUNT counts (R382). -/
def counted (code : Nat) : Bool := [3, 5, 8, 9, 10, 12, 13].contains code

/-- FILL of every pool of a partition is 0, and its queues are empty (code 3). -/
def State.clearQueues (s : State) (q : Nat) : State :=
  ((List.range 6).foldl (fun t i => t.hubStore (t.own (poolFillPa q i)) (List.replicate 8 0)) s).hubStore
    (s.own (partArea q + 0x2000)) (List.replicate 20 0)

/-- The package queue is empty (code 3). -/
def State.clearPackageQueue (s : State) : State := s.hubStore (s.own (winBase + 0x10000)) (List.replicate 20 0)

/-- The hub's registers after a package reset: REMAP, the planes, the own index, the incarnations and the clock are kept. -/
def Hub.afterReset (h : Hub) (code : Nat) : Hub :=
  { remap := h.remap, planeStat := h.planeStat, peerId := h.peerId, domMask := BitVec.ofNat 64 (2 ^ h.peerId.toNat), inc := h.inc,
    lost := h.lost, ptpStat := h.ptpStat, now := h.now, slew := h.slew, lastSync := h.lastSync,
    rstCause := BitVec.ofNat 8 code, rstCount := h.rstCount + (if counted code then 1 else 0) }

/-- A core after a package reset. -/
def Core.afterReset (c : Core) : Core := { scratch := c.scratch, accum := c.accum, heaps := c.heaps, retired := c.retired }

/-- The security processor's registers after a package reset (R384, R392). -/
def Security.afterReset (x : Security) : Security := { idKey := x.idKey, rollback := x.rollback, bootNo := x.bootNo }

/-- Every partition reset, with the hub's queues, pools and registers (code 3). -/
def State.resetRegisters (s : State) (code : Nat) : State :=
  let s1 := ((List.range 16).foldl (fun t q => (t.purge q).clearQueues q) s).clearPackageQueue
  { s1 with
    gusts := []
    engs := []
    fronts := []
    insts := []
    sched := []
    cores := s1.cores.map fun c => (c.1, c.2.afterReset)
    dies := (List.range 4).map fun d => { budget := s1.fullTokens d, temp := (s1.die d).temp }
    parts := List.replicate 16 { running := true, prstCause := BitVec.ofNat 8 code }
    hub := s1.hub.afterReset code
    dbg := {}
    sec := s1.sec.afterReset }

/-- A package reset that keeps memory: as code 3, after the drain of the fronts that are not pre-emptible (R371). -/
def State.resetPackage (s : State) (code : Nat) : State :=
  (((List.range 16).foldl State.drainPart s).resetRegisters code).bringUpShort

/-- The bytes of memory that a power-on or fundamental reset keeps: host memory, HBF and other packages; the wear counters
when they are kept (R381). -/
def keptCell (self : Nat) (wear : Bool) (a : Nat) : Bool :=
  peerOf a != self
    || (match regionOf (localPa a) with
        | .hbf | .host => true
        | .window => wear && decide (localPa a < winBase + 0x10000)
        | _ => false)

/-- A reset with everything reset and full bring-up: codes 1, 2 and 9. -/
def State.resetAll (s : State) (code : Nat) : State :=
  let s1 := s.resetRegisters code
  let keep := keptCell s.self (code != 1)
  { s1 with
    mem := s1.mem.filter fun c => keep c.1
    memTags := s1.memTags.filter fun n => keep (n * 16)
    poison := s1.poison.filter fun n => keep (n * 128)
    cores := []
    dies := (List.range 4).map fun d => { budget := fullBudget d }
    parts := List.replicate 16 { prstCause := BitVec.ofNat 8 code }
    hub := { s1.hub with remap := 0xFAC688, planeStat := 0xFF, ptpStat := 0, slew := 0,
                         rstCount := if code = 1 then 0 else s1.hub.rstCount } }.bringUp

/-- POWER_ON (R381 code 1, R388). -/
def execPowerOn (s : State) : Outcome := .next (s.resetAll 1)
/-- PCIE_FUNDAMENTAL_RESET (R381 code 2). -/
def execPcieFundamentalReset (s : State) : Outcome := .next (s.resetAll 2)
/-- PCIE_HOT_RESET (R381 code 3). -/
def execPcieHotReset (s : State) : Outcome := .next (s.resetPackage 3)
/-- PF_FLR (R381 code 5). -/
def execPfFlr (s : State) : Outcome := .next (s.resetPackage 5)

/-- SECURITY_VIOLATION (R381 code 9): source input.which. The record is written when the reset is done (R377). -/
def execSecurityViolation (s : State) : Outcome :=
  .next ((s.resetAll 9).record
    { cls := 0x0B, code := 0x0002, action := 8, part := 0xFF, unit := 10, detail := bytesOf 1 s.input.which })

/-- FATAL_INTERNAL_ERROR (R381 code 10): the hub's firmware heartbeat is lost. The record is written when the reset is done
(R377, log 60). -/
def execFatalInternalError (s : State) : Outcome :=
  let (n, s1) := s.freshNat
  .next ((s1.resetPackage 10).record { cls := 0x0E, code := 0x0004, action := 8, part := 0xFF, unit := n % 16 })

/-! ## Trips (R381 codes 8 and 13) -/

/-- The compute dies lose their power: everything on them is gone, and the package stays in reset. -/
def State.unpowered (s : State) (code die : Nat) (detail : List Byte) : State :=
  let s1 := (List.range 16).foldl State.purge s
  { s1 with gusts := []
            engs := []
            fronts := []
            insts := []
            cores := (s1.cores.filter fun c => c.2.retired).map fun c => (c.1, { retired := true })
            hub := { s1.hub with trip := code, tripDie := die, tripDetail := detail, inc := s.hub.inc }
            inReset := true }

/-- THERMAL_TRIP (R397): a die is at 110 °C (input.temps). The record is written, and then the package takes reset cause 8
(log 60). -/
def execThermalTrip (s : State) : Outcome :=
  match ([0, 1, 2, 3].find? fun d => decide (110 ≤ s.input.temps.getD d 0)) with
  | none => .refused .noSuchEvent
  | some d =>
    if s.hub.trip ≠ 0 then .refused .noSuchEvent
    else
      let detail := bytesOf 1 d ++ bytesOf 1 (s.input.temps.getD d 0)
      .next ((s.record { cls := 0x0A, code := 0x0002, action := 8, part := 0xFF, unit := 11, die := d, detail := detail }).unpowered
        8 d detail)

/-- SUPPLY_FAULT_TRIP (R381 code 13): rail input.which. -/
def execSupplyFaultTrip (s : State) : Outcome :=
  if s.hub.trip ≠ 0 then .refused .noSuchEvent
  else .next (s.unpowered 13 4 (bytesOf 1 s.input.which))

/-- THERMAL_TRIP_RECOVERY (R381 code 8): every die is below the trip (input.temps); the reset proceeds as code 3. -/
def execThermalTripRecovery (s : State) : Outcome :=
  if s.hub.trip ≠ 8 ∨ [0, 1, 2, 3].any (fun d => decide (110 ≤ s.input.temps.getD d 0)) then .refused .noSuchEvent
  else .next (s.resetPackage 8)

/-- SUPPLY_RAIL_RECOVERY (R381 code 13): the reset proceeds as code 3; then the trip's record is written (R377, log 60). -/
def execSupplyRailRecovery (s : State) : Outcome :=
  if s.hub.trip ≠ 13 then .refused .noSuchEvent
  else
    .next ((s.resetPackage 13).record
      { cls := 0x09, code := 0x0003, action := 8, part := 0xFF, unit := 11, die := s.hub.tripDie, detail := s.hub.tripDetail })

end Sys2Proof.Machine
end

