-- ==== Sys2Proof/Machine/Graph.lean ====
section
/-! DEFINITION. Graph images, their checks, and the states of nodes (spec/11 R316 to R319, spec/08 R250 to R252, spec/14 R390). -/

namespace Sys2Proof.Machine

/-! ## Reading a space -/

/-- n bytes of a space, page by page; none where one cannot be translated or read. -/
def State.vread (s : State) (q asid : Nat) : Nat → Nat → Nat → Option (List Byte)
  | 0, _, n => if n = 0 then some [] else none
  | fuel + 1, va, n =>
    if n = 0 then some []
    else
      let k := min n (0x10000 - va % 0x10000)
      match s.walk q asid va with
      | .leaf x _ _ =>
        let d := x.domain va
        if !x.r || x.mig == 2 || s.poisoned d k then none
        else (s.vread q asid fuel (va + k) (n - k)).map fun bs => s.readBytes d k ++ bs
      | _ => none

/-- Bytes of a space that lie on at most two pages. -/
def State.vbytes (s : State) (q asid va n : Nat) : Option (List Byte) := if 2 ^ 56 < va + n then none else s.vread q asid 3 va n

/-- The malformed entry that such a read meets first, as its PA and level (R293). -/
def State.badEntry (s : State) (q asid : Nat) : Nat → Nat → Nat → Option (Nat × Nat)
  | 0, _, _ => none
  | fuel + 1, va, n =>
    if n = 0 then none
    else
      let k := min n (0x10000 - va % 0x10000)
      match s.walk q asid va with
      | .malformed pa level => some (pa, level)
      | .leaf x _ _ => if !x.r || x.mig == 2 || s.poisoned (x.domain va) k then none else s.badEntry q asid fuel (va + k) (n - k)
      | .absent => none

/-! ## Descriptors and node records -/

/-- A kernel descriptor (R252, Table 5). -/
structure Kdesc where
  dieClass : Nat
  flags : Nat
  alloc : Nat
  gbud : Nat
  scratch : Nat
  accum : Nat
  entry : Nat
  gusts : Nat
  ncohort : Nat
  mxctx : Nat
  cpctx : Nat
  cohorts : Nat
  shapes : Nat
  ok : Bool
  deriving DecidableEq, Repr

/-- The descriptor that 64 bytes hold. The check of R318, whose values the spec does not list, is failed by another FORMAT or
DIECLASS, by reserved FLAGS, by an ENTRY that is misaligned, by an ENTRY, COHORTS or SHAPES of 2^56 or more and by an NCOHORT
above 256, and not by a nonzero COHORTS with NCOHORT 0 (DESIGN CHOICE, log 78). -/
def kdescOf (bs : List Byte) : Kdesc :=
  let f := cmdField bs
  { dieClass := f 2 1, flags := f 3 1, alloc := f 4 2, gbud := f 6 2, scratch := f 8 4, accum := f 12 4, entry := f 16 8,
    gusts := f 24 4, ncohort := f 28 2, mxctx := f 30 1, cpctx := f 31 1, cohorts := f 32 8, shapes := f 40 8,
    ok := f 0 2 == 1 && decide (f 2 1 ≤ 2) && decide (f 3 1 < 4) && f 16 8 % 4 == 0 && decide (f 16 8 < 2 ^ 56)
      && decide (f 28 2 ≤ 256) && decide (f 32 8 < 2 ^ 56) && decide (f 40 8 < 2 ^ 56) }

/-- A cohort template entry (R251, Table 4); none when it is malformed: by its FORM, and by a KIND above 1 or a nonzero reserved
byte, which the spec does not call malformed (DESIGN CHOICE, log 78). -/
def cohortOf (bs : List Byte) : Option Cohort :=
  let f := cmdField bs
  if 2 < f 0 1 ∨ 1 < f 1 1 ∨ f 2 2 ≠ 0 then none
  else some { isOpen := f 1 1 == 1, counter := 0, form := f 0 1, first := f 4 4, count := f 8 4, step := f 12 4 }

/-- The cohort template of a descriptor. -/
def State.template (s : State) (q asid va : Nat) : Nat → Option (List Cohort)
  | 0 => some []
  | n + 1 =>
    match s.vbytes q asid va 16, s.template q asid (va + 16) n with
    | some bs, some t => (cohortOf bs).map fun c => c :: t
    | _, _ => none

/-- Whether a cohort contains gust i at launch (R251). -/
def Cohort.has (c : Cohort) (i : Nat) : Bool :=
  match c.form with
  | 0 => false
  | 1 => true
  | _ =>
    if c.step = 0 then i == c.first && decide (0 < c.count)
    else decide (c.first ≤ i) && (i - c.first) % c.step == 0 && decide ((i - c.first) / c.step < c.count)

/-- The cohorts that contain gust i, ascending. -/
def cohortsWith (cs : List Cohort) (i : Nat) : List Nat :=
  (List.range cs.length).filter fun n => match cs[n]? with | some c => c.has i | none => false

/-- The scratchpad limit of a die class (R250). -/
def scratchLimit (dieClass : Nat) (preempt : Bool) : Nat :=
  (if dieClass = 2 then 0x100000 else 0x200000) / (if preempt then 2 else 1)
/-- The accumulator limit of a die class (R250). -/
def accumLimit (dieClass : Nat) (preempt : Bool) : Nat :=
  (if dieClass = 2 then 0x40000 else 0x80000) / (if preempt then 2 else 1)

/-- The values of a node in force (R317): those of the record selected in OVR, the descriptor's otherwise. -/
def nodeValues (bs : List Byte) (k : Kdesc) (cs : List Cohort) : Node :=
  let f := cmdField bs
  let o := f 0x18 2
  let pick := fun (bit a b : Nat) => if o / 2 ^ bit % 2 = 1 then a else b
  let np := f 0x1E 2
  { entry := BitVec.ofNat 56 k.entry, gusts := pick 0 (f 8 4) k.gusts, alloc := pick 1 (f 0xC 2) k.alloc,
    gbud := pick 2 (f 0xE 2) k.gbud, scratch := pick 3 (f 0x10 4) k.scratch, accum := pick 4 (f 0x14 4) k.accum,
    dieClass := pick 5 (f 0x1A 1 % 4) k.dieClass, preempt := pick 6 (f 0x1A 1 / 4 % 2) (k.flags % 2) == 1, prio := f 0x1B 1 % 8,
    mxctx := pick 7 (f 0x1C 1) k.mxctx, cpctx := pick 8 (f 0x1D 1) k.cpctx,
    lastLanes := f 0x74 1, preds := (List.range np).map fun i => f (0x20 + 2 * i) 2,
    ranges := ((List.range 4).map fun i =>
      (f (0x30 + 16 * i) 8 % 2 ^ 56, f (0x38 + 16 * i) 8, f (0x30 + 16 * i) 8 / 2 ^ 63 == 1)).filter fun r => r.2.1 != 0,
    cohorts := cs, shapes := BitVec.ofNat 56 k.shapes, user := BitVec.ofNat 32 (f 0x70 4) }

/-! ## The checks of an instance start (R318) -/

/-- A check of a field: its offset unless it holds. -/
def failAt (off : Nat) (ok : Bool) : List Nat := if ok then [] else [off]

/-- The offset of the first failing field of the header (R316). -/
def headerFault (bs : List Byte) : Option Nat :=
  let f := cmdField bs
  let rsv := [2, 3] ++ (List.range 116).map (12 + ·)
  ((failAt 0 (f 0 2 == 1) ++ failAt 4 (decide (1 ≤ f 4 4) && decide (f 4 4 ≤ 65536))
    ++ (rsv.filter fun i => bs.getD i 0 != 0)).foldl (fun (m : Option Nat) x => match m with
      | none => some x | some y => some (min x y)) none)

/-- The failing fields of a node record whose descriptor is read (R317, R318, R250, R251). -/
def nodeFaults (bs : List Byte) (ix : Nat) (k : Kdesc) (cs : List Cohort) : List Nat :=
  let f := cmdField bs
  let n := nodeValues bs k cs
  let np := f 0x1E 2
  failAt 0x08 (decide (1 ≤ n.gusts) && decide (n.gusts ≤ 65536))
    ++ failAt 0x0C (n.alloc % 8 == 0 && decide (8 ≤ n.alloc) && decide (n.alloc ≤ 512))
    ++ failAt 0x0E (decide (n.gbud ≤ n.alloc))
    ++ failAt 0x10 (n.scratch % 128 == 0 && decide (n.scratch ≤ scratchLimit n.dieClass n.preempt))
    ++ failAt 0x14 (n.accum % 64 == 0 && decide (n.accum ≤ accumLimit n.dieClass n.preempt))
    ++ failAt 0x18 (decide (f 0x18 2 < 512))
    ++ failAt 0x1A (decide (f 0x1A 1 < 8) && decide (n.dieClass ≤ 2))
    ++ failAt 0x1B (decide (f 0x1B 1 < 8))
    ++ failAt 0x1C (decide (n.mxctx ≤ 15))
    ++ failAt 0x1D (decide (n.cpctx ≤ 32))
    ++ failAt 0x1E (decide (np ≤ 8))
    ++ ((List.range 8).flatMap fun i =>
         failAt (0x20 + 2 * i) (if i < np then decide (f (0x20 + 2 * i) 2 < ix) else f (0x20 + 2 * i) 2 == 0))
    ++ ((List.range 4).flatMap fun i => failAt (0x30 + 16 * i) (f (0x30 + 16 * i) 8 / 2 ^ 56 % 128 == 0))
    ++ failAt 0x74 (decide (n.lastLanes ≤ 31))
    ++ ((List.range 11).flatMap fun i => failAt (0x75 + i) (bs.getD (0x75 + i) 0 == 0))
    ++ failAt 0x00 (decide (65536 < n.gusts) || (List.range n.gusts).all fun i => decide ((cohortsWith cs i).length ≤ 4))

/-- Whether an address may run (R390): any, when no owner key is valid; otherwise one of an installed range. -/
def State.installed (s : State) (va : Nat) : Bool :=
  (s.sec.ownKeys.all fun k => !((k.getD 57 0).getLsbD 0)) ||
    s.sec.ranges.any fun r => decide (r.1 ≤ va) && decide (va < r.1 + r.2.2)

/-- A node record read and checked: the node, or the offset of the first failing field. -/
def State.checkNode (s : State) (q asid va ix : Nat) : Except Nat Node :=
  match s.vbytes q asid va 128 with
  | none => .error 0
  | some bs =>
    let kd := cmdField bs 0 8
    match (if kd % 64 ≠ 0 then none else s.vbytes q asid kd 64) with
    | none => .error 0
    | some kb =>
      let k := kdescOf kb
      match (if k.ok && s.installed kd && s.installed k.entry then s.template q asid k.cohorts k.ncohort else none) with
      | none => .error 0
      | some cs =>
        match nodeFaults bs ix k cs with
        | [] => .ok (nodeValues bs k cs)
        | x :: xs => .error (xs.foldl min x)

/-- The nodes of an image, checked in order: or the first failing node and field. -/
def State.checkNodes (s : State) (q asid va : Nat) : Nat → Nat → Except (Nat × Nat) (List Node)
  | 0, _ => .ok []
  | n + 1, ix =>
    match s.checkNode q asid (va + 0x80 + 128 * ix) ix with
    | .error off => .error (ix, off)
    | .ok x =>
      match s.checkNodes q asid va n (ix + 1) with
      | .error e => .error e
      | .ok xs => .ok (x :: xs)

/-- The malformed entry that the check of a node record met, when it could not be read (R293). -/
def State.nodeBadEntry (s : State) (q asid va : Nat) : Option (Nat × Nat) :=
  match s.vbytes q asid va 128 with
  | none => s.badEntry q asid 3 va 128
  | some bs =>
    let kd := cmdField bs 0 8
    match s.vbytes q asid kd 64 with
    | none => if kd % 64 = 0 then s.badEntry q asid 3 kd 64 else none
    | some kb => s.badEntry q asid 3 (kdescOf kb).cohorts (16 * (kdescOf kb).ncohort)

/-- USER of an image's header, 0 where it cannot be read (R316). -/
def State.imageUser (s : State) (q asid va : Nat) : Nat := ((s.vbytes q asid va 128).map fun bs => cmdField bs 8 4).getD 0

/-- USER of a node record of an image, 0 for the header's failure (R317). -/
def State.nodeUser (s : State) (q asid va node : Nat) : Nat :=
  if node = 0xFFFF then 0 else ((s.vbytes q asid (va + 0x80 + 128 * node) 128).map fun bs => cmdField bs 0x70 4).getD 0

/-- The malformed entry that the failing check of an image met. -/
def State.imageBadEntry (s : State) (q asid va node : Nat) : Option (Nat × Nat) :=
  if node = 0xFFFF ∧ (s.vbytes q asid va 128).isNone then s.badEntry q asid 3 va 128 else s.nodeBadEntry q asid (va + 0x80 + 128 * node)

/-- A graph image checked (R318): USER and its nodes; or the failing node (0xFFFF the header) and field. -/
def State.checkImage (s : State) (q asid va : Nat) : Except (Nat × Nat) (Word × List Node) :=
  match s.vbytes q asid va 128 with
  | none => .error (0xFFFF, 0)
  | some bs =>
    match headerFault bs with
    | some off => .error (0xFFFF, off)
    | none =>
      match s.checkNodes q asid va (cmdField bs 4 4) 0 with
      | .error e => .error e
      | .ok ns => .ok (BitVec.ofNat 32 (cmdField bs 8 4), ns)

end Sys2Proof.Machine
end

