-- ==== Sys2Proof/Machine/Launch.lean ====
section
/-! DEFINITION. Dispatch (spec/11 R318 to R322, spec/13 R372, R378, R379): the ready pool, fronts, the placing of gusts, and the
completion of a front. -/

namespace Sys2Proof.Machine

/-! ## Room on a core -/

/-- The lowest place for n units below a limit that meets none of the runs in use, each (first, length). -/
def lowestGap (used : List (Nat × Nat)) (limit n : Nat) : Option Nat :=
  let fits := fun (a : Nat) => decide (a + n ≤ limit) && used.all fun r => decide (a + n ≤ r.1) || decide (r.1 + r.2 ≤ a) || r.2 == 0
  ((0 :: used.map fun r => r.1 + r.2).filter fits).foldl (fun (m : Option Nat) a => match m with
    | none => some a
    | some b => some (min a b)) none

/-- The scratchpad runs of a core that fronts hold. -/
def State.scratchRuns (s : State) (core : Nat) : List (Nat × Nat) :=
  s.fronts.filterMap fun e => (tabGet? e.2.scratchBase core).map fun b => (b, e.2.scratch)
/-- The accumulator runs of a core that fronts hold. -/
def State.accumRuns (s : State) (core : Nat) : List (Nat × Nat) :=
  s.fronts.filterMap fun e => (tabGet? e.2.accumBase core).map fun b => (b, e.2.accum)
/-- The free matrix contexts of a core, ascending (R327). -/
def State.freeMx (s : State) (core : Nat) : List Nat :=
  let used := s.fronts.flatMap fun e => tabGetD e.2.mxPhys core []
  (List.range 16).filter fun n => !(used.contains n)
/-- The free physical copy contexts of a die, ascending (R327). -/
def State.freeCp (s : State) (die : Nat) : List Nat :=
  let used := (s.fronts.filter fun e => e.2.die == some die).flatMap fun e => e.2.cpPhys
  (List.range 256).filter fun n => !(used.contains n)
/-- The n lowest free cohort counters of a die (R134). -/
def State.freeCounters (s : State) (die n : Nat) : List Nat :=
  ((List.range 4096).filter fun i => (tabGet? (s.die die).counters i).isNone).take n

/-- What a front holds on a core (R322): the bases of its scratchpad and accumulators and its matrix contexts. -/
structure Hold where
  sp : Nat
  acc : Nat
  mx : List Nat
  deriving DecidableEq, Repr

/-- What a front would hold on a core: what it already holds, or, on a core that takes it anew, the lowest room (R322,
R377 action 6). -/
def State.hold? (s : State) (fr : Front) (core : Nat) : Option Hold :=
  match tabGet? fr.scratchBase core with
  | some b => some { sp := b, acc := fr.accBase core, mx := tabGetD fr.mxPhys core [] }
  | none =>
    if (s.core core).retired then none
    else
      match lowestGap (s.scratchRuns core) (scratchSize core) fr.scratch, lowestGap (s.accumRuns core) (accumSize core) fr.accum with
      | some b, some a =>
        let mx := (s.freeMx core).take (fr.mxctx + 1)
        if mx.length = fr.mxctx + 1 then some { sp := b, acc := a, mx := mx } else none
      | _, _ => none

/-- Whether a bank of a core may receive gusts of a front: the active bank any; the shadow bank those of a pre-emptible
front, while it holds no context of another instance and the active bank none of this one (log 9). -/
def State.bankOpen (s : State) (fr : Front) (core bank : Nat) : Bool :=
  bank == 0 ||
    (fr.preempt
      && !((s.bankGusts core 0).any fun e => (s.frontOf e.2).inst == fr.inst)
      && ((s.bankGusts core 1).isEmpty
        || (match (s.core core).shadow with | some x => x.inst == fr.inst && x.n == 0 | none => false)))

/-- Where a core takes the next gust of a front: its gust slots and what the front then holds there (R322). -/
def State.room? (s : State) (fr : Front) (core bank : Nat) : Option ((Nat × Option Nat) × Hold) :=
  if s.bankOpen fr core bank && s.bankCovers core bank fr.alloc fr.gbud fr.twin then
    match freeSlot (s.slotsUsed core bank) fr.twin, s.hold? fr core with
    | some p, some h => some (p, h)
    | _, _ => none
  else none

/-- The free gust slots of a core's bank. -/
def State.freeSlots (s : State) (core bank : Nat) : Nat := 64 - (s.slotsUsed core bank).length

/-- The element of a list with the greatest measure, the first on a tie. -/
def mostOf (m : Nat → Nat) : List Nat → Option Nat
  | [] => none
  | x :: xs =>
    match mostOf m xs with
    | none => some x
    | some y => if m y ≤ m x then some x else some y

/-- The cores of a die that a partition owns. -/
def State.ownCores (s : State) (q die : Nat) : List Nat := (s.coresOf q).filter fun c => dieOf c == die

/-- The core of a die for the next gust of a front (R322). -/
def State.coreFor (s : State) (fr : Front) (die bank : Nat) : Option Nat :=
  mostOf (fun c => s.freeSlots c bank) ((s.ownCores fr.part die).filter fun c => (s.room? fr c bank).isSome)

/-! ## Placing a gust -/

/-- The membership slots of gust i (R13, R251). -/
def membersOf (cs : List Cohort) (i : Nat) : List (BitVec 16) :=
  (((cohortsWith cs i).map fun n => BitVec.ofNat 16 (0x8000 + n)) ++ List.replicate 4 0).take 4

/-- The launch mask of gust i (R8, Table 3). -/
def launchMask (fr : Front) (i : Nat) : Word :=
  if i + 1 = fr.gusts ∧ fr.lastLanes ≠ 0 then lowMask fr.lastLanes else 0xFFFFFFFF

/-- The next gust of a front placed on a core (R322, R11). -/
def State.placeOn (s : State) (f : Nat) (fr : Front) (core bank : Nat) (r : (Nat × Option Nat) × Hold) : State :=
  let (frame, s1) := s.freshNat
  let g := launchGust f fr.placed fr.alloc fr.gbud fr.entry (launchMask fr fr.placed) (membersOf fr.cohorts fr.placed) frame r.1.2
  let s2 := (s1.setGust (core * 128 + 64 * bank + r.1.1) g).setFront f
    { fr with placed := fr.placed + 1, scratchBase := tabSet fr.scratchBase core r.2.sp,
              accumBase := tabSet fr.accumBase core r.2.acc, mxPhys := tabSet fr.mxPhys core r.2.mx }
  if bank = 0 then s2 else s2.setCore core { s2.core core with shadow := some { n := 0, inst := fr.inst } }

/-- The next gust of a front placed, when a core of its die takes it. -/
def State.placeNext (s : State) (f : Nat) (fr : Front) (flag : Bool) : Option State :=
  let bank := if flag && fr.preempt then 1 else 0
  match fr.die with
  | none => none
  | some d =>
    match s.coreFor fr d bank with
    | none => none
    | some c => (s.room? fr c bank).map fun r => s.placeOn f fr c bank r

/-! ## What fronts no longer need (R322) -/

/-- The engine contexts of a front on a core. -/
def Front.mxKeys (fr : Front) (core : Nat) : List Nat := (tabGetD fr.mxPhys core []).map (mxKey core)

/-- Whether a context is idle or faulted, with nothing in progress. -/
def State.quietEng (s : State) (key : Nat) : Bool := match s.eng? key with | none => true | some e => e.idle

/-- Engine contexts removed. -/
def State.dropEngs (s : State) (ks : List Nat) : State := { s with engs := s.engs.filter fun e => !(ks.contains e.1) }

/-- What a front holds on a core is freed when its last gust there has retired and its contexts there are quiet. -/
def State.sweepCore (s : State) (f core : Nat) : State :=
  match s.front? f with
  | none => s
  | some fr =>
    if (s.gusts.any fun e => e.2.front == f && coreOf e.1 == core) || !((fr.mxKeys core).all s.quietEng) then s
    else
      (s.dropEngs (fr.mxKeys core)).setFront f
        { fr with scratchBase := tabDel fr.scratchBase core, accumBase := tabDel fr.accumBase core,
                  mxPhys := tabDel fr.mxPhys core }

/-- The same for every front and core. -/
def State.sweep (s : State) : State :=
  s.fronts.foldl (fun t e => (e.2.scratchBase.map fun c => c.1).foldl (fun u c => u.sweepCore e.1 c) t) s

/-! ## GUST_PLACE (R322) -/

/-- A gust of a drained front that has been resumed (R385): its key, with its core. -/
def State.drainedGusts (s : State) : List (Nat × Gust) :=
  s.gusts.filter fun e => !(resident e.1) && !((s.core (coreOf e.1)).keeps (saveNo e.1)) && !(s.frontOf e.2).drained

/-- Engine contexts under new keys, with the WAITTLs that name them. -/
def State.rekeyEngs (s : State) (f : Nat → Nat) : State :=
  let slot := fun (x : Slot) => match x.wait with
    | some (.timeline e n) => { x with wait := some (.timeline (f e) n) }
    | _ => x
  { s with
    engs := s.engs.foldl (fun (t : Tab Eng) e => tabSet t (f e.1) e.2) []
    gusts := s.gusts.map fun e => (e.1, { e.2 with a := slot e.2.a, b := slot e.2.b }) }

/-- The key of context i that a drained front had on a core, while no core holds it (log 36). -/
def parkKey (f core i : Nat) : Nat := 2 ^ 40 + (f * 320 + core) * 16 + i

/-- The keys of a core's contexts exchanged for those of their places while a front is drained, or back. -/
def parkMap (f core : Nat) (mx : List Nat) (back : Bool) (k : Nat) : Nat :=
  match (List.range mx.length).find? fun i => k == if back then parkKey f core i else mxKey core (mx.getD i 0) with
  | some i => if back then mxKey core (mx.getD i 0) else parkKey f core i
  | none => k

/-- A drained front: its scratchpad, accumulators and matrix contexts on every core are free (R385); what its contexts hold
stays (log 36). -/
def State.parkFront (s : State) (f : Nat) (fr : Front) : State :=
  (fr.mxPhys.foldl (fun t e => t.rekeyEngs (parkMap f e.1 e.2 false)) s).setFront f
    { fr with drained := true, scratchBase := [], accumBase := [], mxPhys := [] }

/-- What a drained front holds on a core taken again (R322). -/
def State.rehold (s : State) (f : Nat) (fr : Front) (core : Nat) (h : Hold) : State :=
  if (tabGet? fr.scratchBase core).isSome then s
  else
    (s.rekeyEngs (parkMap f core h.mx true)).setFront f
      { fr with scratchBase := tabSet fr.scratchBase core h.sp, accumBase := tabSet fr.accumBase core h.acc,
                mxPhys := tabSet fr.mxPhys core h.mx }

/-- A drained gust loaded again from its save area into the active bank of its core, when its partition owns the core and
there is room (R322, R378). -/
def State.reload? (s : State) (k : Nat) (g : Gust) : Option State :=
  let core := coreOf k
  let fr := s.frontOf g
  if !(s.bankCovers core 0 g.alloc g.gbud g.twin.isSome) || s.ownerOf core != fr.part then none
  else
    match freeSlot (s.slotsUsed core 0) g.twin.isSome, s.hold? fr core with
    | some p, some h =>
      let k' := core * 128 + p.1
      let s1 := s.loadGust k
      match s1.gust? k with
      | none => some s1
      | some _ =>
        let s2 := s1.rehold g.front fr core h
        let g2 := (s2.gust? k).getD g
        some (((s2.setGust k { g2 with twin := p.2 }).rekey fun n => if n = k then k' else n).resumed k')
    | _, _ => none

/-- Whether a front has gusts that wait for a place. -/
def Front.waits (fr : Front) : Bool := decide (fr.placed < fr.gusts) && !fr.ended && !fr.drained

/-- The first of the waiting gusts that can be placed, oldest front first; flag chooses the shadow bank for a pre-emptible
front (log 9). -/
def State.placeWaiting (s : State) (flag : Bool) : Option State :=
  match s.drainedGusts.findSome? fun e => s.reload? e.1 e.2 with
  | some t => some t
  | none => (s.fronts.filter fun e => e.2.waits).findSome? fun e => s.placeNext e.1 e.2 flag

/-- GUST_PLACE (R322). -/
def execGustPlace (s : State) : Outcome :=
  match s.sweep.placeWaiting s.input.flag with
  | some t => .next t
  | none => .refused .noSuchEvent

/-! ## FRONT_CREATE (R321) -/

/-- A READY node of the pool: its instance, index and values, and how it ranks (R321). -/
structure Ready where
  inst : Nat
  ix : Nat
  x : Inst
  node : Node
  deriving DecidableEq, Repr

/-- The READY nodes. -/
def State.pool (s : State) : List Ready :=
  s.insts.flatMap fun e =>
    if s.inReset || (s.part e.2.part).resetting then []
    else (List.range e.2.nodes.length).filterMap fun i =>
      match e.2.nodes[i]? with
      | some n => if n.state = 1 then some { inst := e.1, ix := i, x := e.2, node := n } else none
      | none => none

/-- The gust slots that a partition holds (R321). -/
def State.slotsHeld (s : State) (q : Nat) : Nat :=
  (s.gusts.map fun e => if resident e.1 && (s.frontOf e.2).part == q then (if e.2.twin.isSome then 2 else 1) else 0).sum

/-- POOLSHARE of a partition (R379). -/
def State.poolShare (s : State) (q : Nat) : Nat := (s.hub.poolShare.getD q 0).toNat

/-- Whether partition a comes before partition b: a share before none, the lesser ratio, the lower number (R321, R379). -/
def State.partBefore (s : State) (a b : Nat) : Bool :=
  let m := s.poolShare a
  let n := s.poolShare b
  if m = 0 then n == 0 && decide (a < b)
  else if n = 0 then true
  else
    let u := s.slotsHeld a * n
    let v := s.slotsHeld b * m
    decide (u < v) || (u == v && decide (a < b))

/-- Whether a READY node is picked before another (R321). -/
def State.pickedBefore (s : State) (a b : Ready) : Bool :=
  if a.x.part ≠ b.x.part then s.partBefore a.x.part b.x.part
  else if a.node.prio ≠ b.node.prio then decide (b.node.prio < a.node.prio)
  else if a.node.readyAt ≠ b.node.readyAt then decide (a.node.readyAt < b.node.readyAt)
  else if a.x.order ≠ b.x.order then decide (a.x.order < b.x.order)
  else decide (a.ix < b.ix)

/-- The pool in the order in which nodes are picked; a partition without a share waits for those with one (R379). -/
def State.picks (s : State) : List Ready :=
  let ps := s.pool
  let shared := ps.filter fun r => s.poolShare r.x.part != 0
  (if shared.isEmpty then ps else shared).foldl (fun acc r =>
    (acc.takeWhile fun a => s.pickedBefore a r) ++ r :: acc.dropWhile fun a => s.pickedBefore a r) []

/-- The front that a node would become (R317, R322, R372). -/
def State.frontFor (s : State) (r : Ready) : Front where
  frontId := BitVec.ofNat 32 s.nextFront
  part := r.x.part
  asid := r.x.asid
  inst := r.inst
  node := r.ix
  prio := r.node.prio
  preempt := r.node.preempt
  alloc := r.node.alloc
  gbud := r.node.gbud
  scratch := r.node.scratch
  accum := r.node.accum
  mxctx := r.node.mxctx
  cpctx := r.node.cpctx
  lastLanes := r.node.lastLanes
  gusts := r.node.gusts
  spawn := r.node.gusts
  entry := r.node.entry
  dieClass := r.node.dieClass
  cohorts := r.node.cohorts
  shapes := r.node.shapes
  twin := (s.part r.x.part).twin.getLsbD r.x.asid
  uvec := tabGetD (s.part r.x.part).uvec r.x.asid 0 &&& ~~~3
  svec := tabGetD (s.part r.x.part).svec r.x.asid 0 &&& ~~~3
  user := r.node.user
  created := s.hub.now.toNat

/-- The dies of a class (R322). -/
def diesOf (c : Nat) : List Nat := if c = 1 then [0, 1] else if c = 2 then [2, 3] else [0, 1, 2, 3]

/-- The die for a new front (R322). -/
def State.dieFor (s : State) (fr : Front) (bank : Nat) : Option Nat :=
  mostOf (fun d => ((s.ownCores fr.part d).map fun c => s.freeSlots c bank).sum)
    ((diesOf fr.dieClass).filter fun d =>
      decide (fr.cpctx ≤ (s.freeCp d).length) && decide ((s.freeCounters d fr.cohorts.length).length = fr.cohorts.length)
        && (s.coreFor fr d bank).isSome)

/-- The members of a cohort at launch (R251). -/
def Cohort.size (c : Cohort) (gusts : Nat) : Nat := ((List.range gusts).filter c.has).length

/-- A front created on a die (R134, R322, R327): its copy contexts and cohort counters, the node RUNNING, and its first
gust placed. -/
def State.createOn (s : State) (fr : Front) (die : Nat) (flag : Bool) : Option State :=
  let f := s.nextFront
  let ns := s.freeCounters die fr.cohorts.length
  let cs := (fr.cohorts.zip ns).map fun (p : Cohort × Nat) => { p.1 with counter := p.2 }
  let fr1 := { fr with die := some die, cpPhys := (s.freeCp die).take fr.cpctx, cohorts := cs }
  let s1 := cs.foldl (fun t c => t.setCounter die c.counter { front := f, e := c.size fr.gusts }) s
  let s2 := ({ s1.setFront f fr1 with nextFront := s.nextFront + 1 }).setNode fr.inst fr.node 2
  s2.placeNext f fr1 flag

/-- A front made of a READY node, when it can be placed. -/
def State.create? (s : State) (r : Ready) (flag : Bool) : Option State :=
  let fr := s.frontFor r
  match s.dieFor fr (if flag && fr.preempt then 1 else 0) with
  | none => none
  | some d => s.createOn fr d flag

/-- FRONT_CREATE (R321, R322): only when no waiting gust can be placed; the first node in order that can be placed. -/
def execFrontCreate (s : State) : Outcome :=
  let t := s.sweep
  if (t.placeWaiting false).isSome then .refused .noSuchEvent
  else
    match t.picks.findSome? fun r => t.create? r s.input.flag with
    | some u => .next u
    | none => .refused .noSuchEvent

/-! ## FRONT_COMPLETE (R318, R320) -/

/-- The engine contexts of a front. -/
def State.frontEngs (s : State) (f : Nat) : List (Nat × Eng) := s.engs.filter fun e => e.2.front == f

/-- Whether a front is done with (R128, R195, R318): its gusts have retired, or it has been ended, with nothing posted and
its contexts idle or faulted. -/
def State.frontDone (s : State) (f : Nat) (fr : Front) : Bool :=
  (fr.ended || decide (fr.placed = fr.gusts)) && !(s.gusts.any fun e => e.2.front == f) && fr.posted.isEmpty
    && (s.frontEngs f).all fun e => e.2.idle

/-- A front leaves: its cohort counters, contexts and room are free (R134, R322). -/
def State.dropFront (s : State) (f : Nat) (fr : Front) : State :=
  let s1 := s.dropEngs ((s.frontEngs f).map fun e => e.1)
  let s2 := match fr.die with
    | some d => s1.setDie d { s1.die d with counters := (s1.die d).counters.filter fun c => c.2.front != f }
    | none => s1
  { s2 with fronts := tabDel s2.fronts f }

/-- FRONT_COMPLETE (R318): the node becomes DONE (an ended front's stays FAILED), and the states of nodes follow. -/
def execFrontComplete (f : Nat) (s : State) : Outcome :=
  match s.front? f with
  | none => .refused .noSuchEvent
  | some fr =>
    if !(s.frontDone f fr) then .refused .noSuchEvent
    else
      let s1 := s.dropFront f fr
      .next (if fr.ended then s1 else s1.setNode fr.inst fr.node 3).settleNodes

end Sys2Proof.Machine
end

