-- ==== Sys2Proof/Machine/Tasks.lean ====
section
/-! DEFINITION. What records name in the scratchpad (spec/07 R198), leave costs (spec/14 R394), the task scheduler (R209,
R212, spec/11 R326), and the start of engine commands (R327, R328). -/

namespace Sys2Proof.Machine

/-! ## Scratchpad intervals (R198) -/

/-- The smallest interval that contains a list of ranges (first byte, length); none when they are empty. -/
def hullOf (rs : List (Int × Nat)) : Option (Int × Int) :=
  match rs.filter fun r => 0 < r.2 with
  | [] => none
  | r :: t =>
    some (t.foldl (fun m x => min m x.1) r.1, t.foldl (fun (m : Int) x => max m (x.1 + (x.2 : Int))) (r.1 + (r.2 : Int)))

/-- The pushing core's scratchpad in a space (R198, R203), as its first address there and its size: the front's allocation,
or the core's span of the on-chip window. -/
def Job.coreSpan (j : Job) (space : Nat) : Int × Nat :=
  if space = 1 then (0, j.fr.scratch)
  else if space = 2 then (j.cmd.core * 0x1000000 + 0xC00000, scratchSize j.cmd.core)
  else (0, 0)

/-- The bytes of the pushing core's scratchpad in ranges of a space (R198, R203). -/
def Job.inCore (j : Job) (space : Nat) (rs : List (Int × Nat)) : List (Int × Nat) :=
  let (off, size) := j.coreSpan space
  let base : Int := if space = 1 then j.fr.spBase j.cmd.core else 0
  rs.filterMap fun r =>
    let a := max 0 (r.1 - off)
    let b := min (size : Int) (r.1 + r.2 - off)
    if b ≤ a then none else some (base + a, (b - a).toNat)

/-- A range in the space of an address field. -/
def Job.spRange (j : Job) (off n : Nat) : List (Int × Nat) := j.inCore (j.space off) [((j.addr off : Int), n)]

/-- The first and the last of m + 1 rows of n bytes, the first at a, each p > 0 bytes behind the one before it, that share a
byte with the span of z bytes at o. -/
def rowsMeeting (a p : Int) (m n : Nat) (o : Int) (z : Nat) : List Int :=
  let i := max 0 ((o - n - a) / p + 1)
  let k := min (m : Int) ((o + z - 1 - a) / p)
  if n = 0 ∨ z = 0 ∨ k < i then [] else [a + i * p, a + k * p]

/-- A pitched range in the space of an address field: rows of n bytes. -/
def Job.spRows (j : Job) (off rows n : Nat) (pitch : Int) : List (Int × Nat) :=
  let a : Int := j.addr off
  let (o, z) := j.coreSpan (j.space off)
  let starts : List Int :=
    if rows = 0 then []
    else if pitch = 0 then [a]
    else if 0 < pitch then rowsMeeting a pitch (rows - 1) n o z
    else rowsMeeting (a + (rows - 1 : Nat) * pitch) (-pitch) (rows - 1) n o z
  j.inCore (j.space off) (starts.map fun x => (x, n))

/-- The range that GATHER or SCATTER may reach of a space from BASE up (R214). -/
def Job.spFrom (j : Job) (off : Nat) : List (Int × Nat) := j.spRange off (2 ^ 56)

/-- The shape record that a record names, as the tables stand, with no effect; an empty one where it cannot be read. -/
def State.peekShape (s : State) (j : Job) : Shape := match s.shape j with | (_, .ok x) => x | (_, .error _) => shapeOf []

/-- The scratchpad ranges that a matrix record names (R198, R205, R208, R211). -/
def State.mxNamed (s : State) (j : Job) : List (Int × Nat) :=
  let m := mxOf j.cmd.bytes
  let x := s.peekShape j
  let b := s.sampling j
  ((m.aSlots x).map fun a => (a, mxSlot m.aCode)) ++ ((m.bSlots x).map fun a => (a, mxSlot m.bCode))
    ++ (m.outRanges.map fun r => ((r.2.1 : Int), r.2.2))
    ++ (if m.epi = 3 then
          (if b.pen = 0xFFFFFFFF then [] else [((b.pen : Int), 8 + 8 * min 1024 (natOfBytes (s.taskSp j b.pen 4)))])
            ++ (if b.path then [((b.pathAddr : Int), 256 * b.hcnt)] else [])
        else [])

/-- The bytes of the pushing core's scratchpad that a record names (R198, R213). -/
def State.named (s : State) (j : Job) : List (Int × Nat) :=
  let f := j.f
  match j.type with
  | 0x01 | 0x02 => j.inCore 1 (s.mxNamed j)
  | 0x10 => j.spRange 0x08 (f 0x18 4) ++ j.spRange 0x10 (f 0x18 4)
  | 0x11 => j.spRows 0x08 (f 0x1C 4) (f 0x18 4) (j.sf 0x20 8) ++ j.spRows 0x10 (f 0x1C 4) (f 0x18 4) (j.sf 0x28 8)
  | 0x12 | 0x13 =>
    j.spRange 0x08 (4 * f 0x28 4) ++ j.spFrom 0x10
      ++ j.spRange 0x18 (f 0x28 4 * elemSize (f 0x2C 1)) ++ j.spRange 0x20 (f 0x28 4)
  | 0x14 => j.spRange 0x08 (f 0x18 4)
  | 0x16 =>
    j.spRows 0x08 (f 0x18 4) (f 0x1C 4 * xposeSize (f 0x28 1)) (j.sf 0x20 8)
      ++ j.spRange 0x10 (f 0x18 4 / 32 * (f 0x1C 4 / 32) * ((1 + f 0x29 1) * 128))
  | 0x18 =>
    let n := f 0x18 4 * ((2 + 32 * 2 ^ f 0x1C 4) * 4)
    j.spRange 0x08 n ++ j.spRange 0x10 n
  | 0x19 => j.spRange 0x08 512
  | _ => []

/-- The scratchpad interval of a record on the pushing core, as core byte offsets (R198); none when it names none. -/
def State.interval (s : State) (j : Job) : Option (Nat × Nat) :=
  (hullOf (s.named j)).map fun r => (r.1.toNat, r.2.toNat)

/-! ## Leave costs (R202, R394) -/

/-- The bytes that a command of the copy family moves. -/
def State.copyBytes (s : State) (j : Job) : Nat :=
  let f := j.f
  match j.type with
  | 0x10 | 0x14 => f 0x18 4
  | 0x11 => f 0x18 4 * f 0x1C 4
  | 0x12 | 0x13 => f 0x28 4 * elemSize (f 0x2C 1)
  | 0x15 =>
    match s.walk j.fr.part j.fr.asid (f 0x08 8) with
    | .leaf x _ _ => f 0x10 4 * pageBytes x.size
    | _ => 0
  | 0x16 => f 0x18 4 * f 0x1C 4 * xposeSize (f 0x28 1)
  | 0x18 => f 0x18 4 * ((2 + 32 * 2 ^ f 0x1C 4) * 4)
  | _ => 0

/-- Whether a MIGRATE to HBF would write a page: any that LOWER does not restore is copied into a new one (R300). -/
def State.writesHbf (s : State) (q asid va : Nat) : Bool :=
  match s.walk q asid va with
  | .leaf x e _ => !(x.tier == 0 && (memNat s.mem (s.own (e + 8)) 8) / 2 ^ 15 % 2 == 1 && !x.w && !x.a)
  | _ => false

/-- The bytes of HBF that a MIGRATE would write. -/
def State.hbfBytes (s : State) (j : Job) : Nat :=
  if j.type = 0x20 ∧ j.f 0x14 1 = 1 then
    match s.walk j.fr.part j.fr.asid (j.f 0x08 8) with
    | .leaf x _ _ =>
      ((List.range (min (j.f 0x10 4) (2 ^ 20))).filter fun i =>
        s.writesHbf j.fr.part j.fr.asid (j.f 0x08 8 + i * pageBytes x.size)).length * pageBytes x.size
    | _ => 0
  else 0

/-- The tokens that a command needs before it starts; 0 when it needs no leave (R202, R394). -/
def State.leaveCost (s : State) (j : Job) : Nat :=
  if j.eng.cls = 0 then max 1 (min 16 (divUp ((mxOf j.cmd.bytes).pairs (s.peekShape j)) 4096))
  else
    let n := s.copyBytes j
    let h := s.hbfBytes j
    if 0 < h then 4 * (h / 0x10000) else if 0x10000 < n then divUp n 0x10000 else 0

/-! ## COMMAND_START (R195, R327, R328) -/

/-- COMMAND_START (R327): the head of a copy, migration or graph context starts, or asks for leave. -/
def execCommandStart (key : Nat) (s : State) : Outcome :=
  match s.headJob? key with
  | none => .refused .noSuchEvent
  | some j => if j.eng.cls = 0 then .refused .noSuchEvent else s.startWithLeave j (s.leaveCost j)

/-! ## The task scheduler (R209, R326) -/

/-- What two tasks of a core are compared by (R209, R326): the scratchpad interval and whether the task writes it, the
accumulator interval, the heap units written. -/
structure Hazard where
  sp : Nat × Nat
  writes : Bool
  acc : Nat × Nat
  heaps : List Nat
  deriving DecidableEq, Repr

/-- The hazard of a task. -/
def State.hazardOf (s : State) (j : Job) : Hazard :=
  let m := mxOf j.cmd.bytes
  let a := j.fr.accBase j.cmd.core + m.acc
  { sp := (s.interval j).getD (0, 0), writes := m.epi == 1 || m.epi == 2,
    acc := (a, a + 4 * (32 * m.mt) * (32 * m.nt)), heaps := s.taskHeaps j.eng j.cmd }

/-- Whether two intervals share a byte. -/
def meet (a b : Nat × Nat) : Bool := decide (a.1 < a.2) && decide (b.1 < b.2) && decide (a.1 < b.2) && decide (b.1 < a.2)

/-- Whether an earlier task holds a later one back (R209, R326). -/
def Hazard.conflicts (a b : Hazard) : Bool :=
  meet a.acc b.acc || ((a.writes || b.writes) && meet a.sp b.sp) || a.heaps.any fun h => b.heaps.contains h

/-- The unfinished tasks of a core in acceptance order, as jobs, with whether each has been issued. -/
def State.coreTasks (s : State) (core : Nat) : List (Job × Bool) :=
  (s.core core).tasks.filterMap fun t =>
    match s.eng? t.1 with
    | none => none
    | some e =>
      match findCmd e.queue t.2, e.run? t.2 with
      | some c, _ => (s.job? t.1 c).map fun j => (j, false)
      | none, some st => (s.job? t.1 st.cmd).map fun j => (j, true)
      | none, none => none

/-- The task engines of a core (R326). -/
def enginesOf (core : Nat) : Nat := if core < 192 then 8 else 2

/-- Whether a task is held for its grammar mask (R212). -/
def State.maskHeld (s : State) (j : Job) : Bool :=
  (mxOf j.cmd.bytes).epi == 3 && (s.sampling j).mask && j.cmd.mask.isNone

/-- The tasks that the scheduler may issue, in acceptance order (R209): head of its context, not held, no hazard with an
earlier unfinished task. -/
def State.issuable (s : State) : List (Job × Bool) → List Hazard → List Job
  | [], _ => []
  | (j, issued) :: t, hs =>
    let h := s.hazardOf j
    let rest := s.issuable t (hs ++ [h])
    if !issued && s.headJob? j.key == some j && !(s.maskHeld j) && !(hs.any fun x => x.conflicts h) then j :: rest else rest

/-- The free task engines of a core, lowest first (R326). -/
def freeEngines (core : Nat) (ts : List (Job × Bool)) : List Nat :=
  (List.range (enginesOf core)).filter fun n => !(ts.any fun t => t.2 && t.1.engine == n)

/-- The lowest range-scoreboard numbers in use. -/
def Core.freeRsb (c : Core) : List Nat := (List.range 16).filter fun i => !(c.rsb.any fun e => e.ix == i)

/-- Whether the range scoreboard of a core can take the entries of a context's tasks again (R370). -/
def Core.takesTasks (c : Core) (ts : List (Nat × Nat × Option (Nat × Nat))) : Bool :=
  decide ((ts.filter fun t => t.2.2.isSome).length ≤ c.freeRsb.length)

/-- A task of a resumed context queued again, with its scoreboard entry (R370). -/
def State.requeue (s : State) (core : Nat) (t : Nat × Nat × Option (Nat × Nat)) : State :=
  let c := s.core core
  let c1 := { c with tasks := c.tasks ++ [(t.1, t.2.1)] }
  match t.2.2 with
  | none => s.setCore core c1
  | some r =>
    let (n, s1) := s.freshNat
    let free := c.freeRsb
    s1.setCore core
      { c1 with rsb := c.rsb ++ [{ ix := free.getD (n % free.length) 0, lo := r.1, hi := r.2, eng := t.1, num := t.2.1 }] }

/-- Whether a task of a context that has been loaded again waits for its scoreboard entry with the gusts of an instance
(R370). -/
def State.taskOf (s : State) (inst : Nat) (t : Nat × Nat × Option (Nat × Nat)) : Bool :=
  match s.eng? t.1 with
  | none => false
  | some e => match s.front? e.front with | some f => f.inst == inst | none => false

/-- The instance whose context a core's active bank holds. -/
def State.activeInst? (s : State) (core : Nat) : Option Nat := (s.bankGusts core 0).head?.map fun e => (s.frontOf e.2).inst

/-- The tasks of the context in the active bank that wait to be queued again are queued, once the scoreboard can take all
their entries (R370); tasks whose commands have been discarded are dropped. -/
def State.resumeTasks (s : State) (core : Nat) : State :=
  let c := s.core core
  if c.requeue.isEmpty then s else
  let live := c.requeue.filter fun t => match s.eng? t.1 with | some e => (findCmd e.queue t.2.1).isSome | none => false
  let (ts, rest) := live.partition fun t => match s.activeInst? core with | some i => s.taskOf i t | none => false
  if c.takesTasks ts then ts.foldl (fun u t => u.requeue core t) (s.setCore core { c with requeue := rest })
  else s.setCore core { c with requeue := live }

/-- TASK_ISSUE (R209, R326, R328): the issuable tasks for which there is an engine ask for leave, as they would start now; the
first that has it goes to the lowest-numbered free engine. One whose type its context does not accept faults. -/
def State.issueTask (core : Nat) (s : State) : Outcome :=
  let ts := s.coreTasks core
  let free := freeEngines core ts
  let js := s.issuable ts []
  let now := (js.filter fun j => s.typeOk 0 j.type).take free.length
  let asking := now.filter fun j => (s.leaveOf j.die j.key j.cmd.num).isNone
  match js.find? fun j => !(s.typeOk 0 j.type) with
  | some j => .next (s.startCommand j 0)
  | none =>
    if !asking.isEmpty then
      .next (asking.foldl (fun t j => t.askLeave j.die
        { part := j.fr.part, eng := j.key, num := j.cmd.num, core := core, cost := s.leaveCost j }) s)
    else
      match now.find? fun j => s.leaveOf j.die j.key j.cmd.num == some true with
      | none => .refused .noSuchEvent
      | some j => .next ((s.useLeave j.die j.key j.cmd.num).startCommand j (free.headD 0))

/-- TASK_ISSUE, which first queues the tasks of a context that resumes (R370). -/
def execTaskIssue (core : Nat) (s : State) : Outcome :=
  let s1 := s.resumeTasks core
  match s1.issueTask core with
  | .next t => .next t
  | _ => if s1 == s then .refused .noSuchEvent else .next s1

/-! ## The grammar mask (R212) -/

/-- The held task of a context's head command. -/
def State.heldTask? (s : State) (key num : Nat) : Option Job :=
  match s.headJob? key with
  | none => none
  | some j => if j.eng.cls = 0 ∧ j.cmd.num = num ∧ s.maskHeld j then some j else none

/-- Releases a held task with a choice of mask: 0 MASKVA, 1 FALLVA, 2 deferred (R212). -/
def State.releaseMask (s : State) (j : Job) (sel : Nat) : State :=
  s.setEng j.key { j.eng with queue := j.eng.queue.map fun c => if c.num == j.cmd.num then { c with mask := some sel } else c }

/-- The check of the mask timeline (R212): whether MTLVA has reached MTARGET; or its fault. -/
def State.maskReached (s : State) (j : Job) : State × Except CmdFault Bool :=
  let b := s.sampling j
  match s.engRead j 0x34 2 b.mtlva 8 [] with
  | (s1, .error f) => (s1, .error f)
  | (s1, .ok bs) => (s1, .ok (decide (b.mtarget ≤ natOfBytes bs)))

/-- MASK_HOLD_RELEASE (R212). -/
def execMaskHoldRelease (key num : Nat) (s : State) : Outcome :=
  match s.heldTask? key num with
  | none => .refused .noSuchEvent
  | some j =>
    match s.maskReached j with
    | (s1, .error f) => .next (s1.commandFault j f)
    | (s1, .ok true) => .next (s1.releaseMask j 0)
    | (_, .ok false) => .refused .noSuchEvent

/-- MASK_DEADLINE (R212): NOW has reached DEADLINE; the first case applies when both hold. -/
def execMaskDeadline (key num : Nat) (s : State) : Outcome :=
  match s.heldTask? key num with
  | none => .refused .noSuchEvent
  | some j =>
    let b := s.sampling j
    if s.hub.now.toNat < b.deadline then .refused .noSuchEvent
    else
      match s.maskReached j with
      | (s1, .error f) => .next (s1.commandFault j f)
      | (s1, .ok true) => .next (s1.releaseMask j 0)
      | (s1, .ok false) => .next (s1.releaseMask j (if b.fallva ≠ 0 then 1 else 2))

end Sys2Proof.Machine
end

