-- ==== Sys2Proof/Machine/Push.lean ====
section
/-! DEFINITION. PUSH, PUSHQ and TLRD (spec/07 R196 to R199). -/

namespace Sys2Proof.Machine

/-- The record of a PUSH: words v_SA to v_(SA+15) in the lowest lane (R197). -/
def Ctx.recordOf (c : Ctx) (sa : BitVec 7) : List Byte :=
  (List.range 16).flatMap fun k => bytesOf 4 (c.lead.lane (c.lead.reg (sa.toNat + k)) c.low).toNat

/-- Whether a handler may push to a queue, and a gust outside one (R194, R197): matrix context 15 by a handler alone, and
no other matrix context by a handler. -/
def pushAllowed (handler q : Nat) : Bool := if q / 32 = 0 then (handler != 0) == (q % 32 == 15) else true

/-- Accepts a record (R197, R198): number, queue entry, scoreboard entry (which free number it takes is a free value, log 6)
and place in the core's acceptance order. -/
def State.acceptRecord (s : State) (e : Eng) (key core : Nat) (cmd : Cmd) (iv : Option (Nat × Nat)) : State :=
  let s1 := s.setEng key { e with accepted := cmd.num, queue := e.queue ++ [cmd] }
  let c := s1.core core
  let (n, s2) := if iv.isSome then s1.freshNat else (0, s1)
  let free := c.freeRsb
  let rsb := match iv with
    | none => c.rsb
    | some r => c.rsb ++ [{ ix := free.getD (n % free.length) 0, lo := r.1, hi := r.2, eng := key, num := cmd.num }]
  let c2 := s2.core core
  s2.setCore core { c2 with rsb := rsb, tasks := if e.cls = 0 then c2.tasks ++ [(key, cmd.num)] else c2.tasks }

/-- The status of a PUSH, with the record accepted when it is 0 (R197). -/
def State.push (s : State) (c : Ctx) (q : BitVec 8) (bs : List Byte) : Nat × State :=
  let core := s.curCore
  match s.engKey? c.g.front core q.toNat with
  | none => (3, s)
  | some key =>
    if !(pushAllowed c.g.handler q.toNat) then (3, s)
    else
      let e := s.engAt c.g.front key q.toNat
      let cmd : Cmd := { num := e.accepted + 1, bytes := bs, core := core, supervisor := c.g.handler == 2 }
      let iv := s.interval { key := key, eng := e, fr := s.frontOf c.g, cmd := cmd }
      if e.faulted then (2, s)
      else if queueDepth e.cls ≤ e.queue.length ∨ (iv.isSome ∧ (s.core core).freeRsb.isEmpty) then (1, s)
      else (0, s.acceptRecord e key core cmd iv)

/-- PUSH with a release at a scope: 0 none, else core, die, package (R197). -/
def pushBody (scope : Nat) (f : EForm) : Body := undrifted fun c s =>
  if c.wm = 0 then .ok { s := s, move := .yield }
  else if !(c.resultFits [(f.d.toNat, .u 0)]) then .error (c.fault s 0x04 0)
  else
    match (if scope = 0 then (s, none) else s.release c scope) with
    | (s1, some w) => .error (.wait s1 w)
    | (s1, none) =>
      let r := s1.push c f.q (c.recordOf f.sa)
      match wrAll c r.2 [(f.d.toNat, .u (BitVec.ofNat 32 r.1))] with
      | .error e => .error e
      | .ok (s2, _) => .ok { s := s2, move := .yield }
/-- PUSH (R197). -/
def execPush (p : Pfx) (f : EForm) (s : State) : Outcome := runGroup (.push p f) s (pushBody 0 f)
/-- PUSH.core (R197). -/
def execPushCore (p : Pfx) (f : EForm) (s : State) : Outcome := runGroup (.pushCore p f) s (pushBody 1 f)
/-- PUSH.die (R197). -/
def execPushDie (p : Pfx) (f : EForm) (s : State) : Outcome := runGroup (.pushDie p f) s (pushBody 2 f)
/-- PUSH.pkg (R197). -/
def execPushPkg (p : Pfx) (f : EForm) (s : State) : Outcome := runGroup (.pushPkg p f) s (pushBody 3 f)

/-- PUSHQ's value (R199): the free entries as far as six bits hold them. -/
def pushqValue (c : Ctx) (s : State) (q : BitVec 8) : Nat :=
  let cls := q.toNat / 32
  let rsb := ((s.core s.curCore).freeRsb.length) * 2 ^ 8
  match c.eng? s q with
  | none => min 63 (queueDepth cls) + 2 ^ 7 + rsb
  | some e => min 63 (queueDepth cls - e.queue.length) + (if e.faulted then 2 ^ 6 else 0) + rsb

/-- PUSHQ (R199). -/
def pushqBody (f : EForm) : Body := undrifted fun c s =>
  match wrAll c s [(f.d.toNat, .u (BitVec.ofNat 32 (pushqValue c s f.q)))] with
  | .error e => .error e
  | .ok (s1, _) => .ok { s := s1, move := .yield }
/-- PUSHQ (R199). -/
def execPushq (p : Pfx) (f : EForm) (s : State) : Outcome := runGroup (.pushq p f) s (pushqBody f)

/-- TLRD (R199): a context that is not granted has no timeline and reads 0. -/
def tlrdBody (f : EForm) : Body := undrifted fun c s =>
  let t : DWord := BitVec.ofNat 64 (((c.eng? s f.q).map fun e => e.timeline).getD 0)
  putPair c s f.d (.u t.lo) (.u t.hi)
/-- TLRD (R199). -/
def execTlrd (p : Pfx) (f : EForm) (s : State) : Outcome := runGroup (.tlrd p f) s (tlrdBody f)

end Sys2Proof.Machine
end

