-- ==== Sys2Proof/Machine/Schedule.lean ====
section
/-! DEFINITION. The schedule table (spec/11 R312 to R314): entry writes, ticks, and instance starts. -/

namespace Sys2Proof.Machine

/-! ## Entries as bytes (R312, Table 1) -/

/-- An entry of the table. -/
def State.entry (s : State) (i : Nat) : Sched := tabGetD s.sched i {}
def State.setEntry (s : State) (i : Nat) (x : Sched) : State := { s with sched := tabSet s.sched i x }

/-- The 64 bytes of an entry (R312). -/
def Sched.bytes (x : Sched) : List Byte :=
  bytesOf 4 ((if x.valid then 1 else 0) + (if x.defer then 2 else 0) + 4 * x.part.toNat + 64 * x.asid.toNat)
    ++ bytesOf 4 x.slot.toNat ++ bytesOf 8 x.start.toNat ++ bytesOf 4 x.period.toNat ++ bytesOf 2 x.skips.toNat
    ++ bytesOf 2 x.defers.toNat ++ bytesOf 8 x.graph.toNat ++ bytesOf 8 x.next.toNat ++ bytesOf 8 x.inst.toNat
    ++ bytesOf 4 ((if x.unfinished then 1 else 0) + (if x.deferred then 2 else 0)) ++ List.replicate 12 0

/-- Bytes with some of them replaced from an offset on. -/
def patch (bs : List Byte) (off : Nat) (data : List Byte) : List Byte :=
  (List.range bs.length).map fun i => if off ≤ i ∧ i < off + data.length then data.getD (i - off) 0 else bs.getD i 0

/-- Whether a write of n bytes at off touches a field. -/
def touches (off n field len : Nat) : Bool := decide (off < field + len) && decide (field < off + n)

/-- The tick after the current one (R312). -/
def State.nextTick (s : State) : Nat := s.hub.now.toNat / 1000 + 1

/-- NEXT when VALID is set (R313). -/
def firstDue (start period next : Nat) : Nat :=
  if next ≤ start then start
  else if period = 0 then next
  else start + (next - start + period - 1) / period * period

/-- An entry after a write of its RW fields (R313); keep says that PART keeps its value. -/
def Sched.written (x : Sched) (off : Nat) (data : List Byte) (keep : Bool) (next : Nat) : Sched :=
  let bs := patch x.bytes off data
  let w := cmdField bs 0 4
  let y : Sched :=
    { x with valid := w % 2 == 1, defer := w / 2 % 2 == 1, part := if keep then x.part else BitVec.ofNat 4 (w / 4),
             asid := BitVec.ofNat 8 (w / 64), slot := BitVec.ofNat 32 (cmdField bs 4 4),
             start := BitVec.ofNat 64 (cmdField bs 8 8), period := BitVec.ofNat 32 (cmdField bs 16 4),
             graph := BitVec.ofNat 56 (cmdField bs 24 8),
             skips := if touches off data.length 0x14 2 then 0 else x.skips,
             defers := if touches off data.length 0x16 2 then 0 else x.defers }
  if y.valid && !x.valid then { y with next := BitVec.ofNat 64 (firstDue y.start.toNat y.period.toNat next) } else y

/-- A write to one entry through the schedule window (R313, R392): function 0 is the physical one, q + 1 that of partition q;
one that sets VALID before the features are accepted is ignored. -/
def State.schedPut (s : State) (fn off : Nat) (data : List Byte) : State :=
  let i := off / 64
  let x := s.entry i
  if 4096 ≤ i ∨ (fn ≠ 0 ∧ x.part.toNat ≠ fn - 1) then s
  else
    let y := x.written (off % 64) data (fn != 0) s.nextTick
    if y.valid && !x.valid && !s.sec.featLock then s else s.setEntry i y

/-- A write to the schedule window (R313, R5): each entry that it reaches takes the bytes that lie in it. -/
def State.schedWrite (s : State) (fn off : Nat) (data : List Byte) : State :=
  (List.range ((off % 64 + data.length + 63) / 64)).foldl (fun t n =>
    let lo := max off ((off / 64 + n) * 64)
    t.schedPut fn lo ((data.drop (lo - off)).take ((off / 64 + n + 1) * 64 - lo))) s

/-- SCHEDULE_ENTRY_WRITE (R313): function input.fn, offset input.off of the window, input.data. -/
def execScheduleEntryWrite (s : State) : Outcome :=
  if 0x40000 ≤ s.input.off then .refused .noSuchEvent else .next (s.schedWrite s.input.fn s.input.off s.input.data)

/-! ## Ticks (R314) -/

/-- A 16-bit count that saturates. -/
def satInc (x : BitVec 16) : BitVec 16 := if x = 0xFFFF then x else x + 1

/-- A start skipped by overrun (R314). -/
def State.skipStart (s : State) (i : Nat) : State :=
  let x := s.entry i
  (s.setEntry i { x with skips := satInc x.skips }).record
    { cls := 0x07, code := 0x0001, action := 0, part := x.part.toNat, unit := 5, die := 4, num := i, asid := x.asid.toNat,
      detail := bytesOf 2 i }

/-- The address of an entry's graph image: GRAPH, aligned to 128 (R312; log 63). -/
def Sched.image (x : Sched) : Nat := x.graph.toNat / 128 * 128

/-- An instance start (R314, R316, R318): the image is read and checked; its nodes begin as WAITING. -/
def State.startInstance (s : State) (i tick : Nat) : State :=
  let x := { s.entry i with inst := (s.entry i).inst + 1, unfinished := true }
  match s.checkImage x.part.toNat x.asid.toNat x.image with
  | .error (node, off) =>
    let s1 := match s.imageBadEntry x.part.toNat x.asid.toNat x.image node with
      | some (pa, level) => s.malformedRecord x.part.toNat x.asid.toNat pa level
      | none => s
    (s1.setEntry i { x with unfinished := false, skips := satInc x.skips }).record
      { cls := 0x07, code := 0x0002, action := 0, part := x.part.toNat, unit := 4, die := 4, num := i, asid := x.asid.toNat,
        akind := 1, addr := x.image,
        detail := bytesOf 2 i ++ bytesOf 2 node ++ bytesOf 2 off ++ [0, 0]
          ++ bytesOf 4 (s.imageUser x.part.toNat x.asid.toNat x.image)
        user := s.nodeUser x.part.toNat x.asid.toNat x.image node }
  | .ok (user, nodes) =>
    let y : Inst :=
      { sched := i, part := x.part.toNat, asid := x.asid.toNat, order := s.nextInst, user := user, nodes := nodes,
        slotEnd := if x.slot.toNat = 0 then 0 else tick + x.slot.toNat }
    ({ s.setEntry i x with insts := tabSet s.insts s.nextInst y, nextInst := s.nextInst + 1 }).settleNodes

/-- The next due start after tick t (R314). -/
def nextDue (next period t : Nat) : Nat := next + ((t - next) / period + 1) * period

/-- One entry at tick t (R314), of a partition that exists (R348). -/
def State.tickEntry (s : State) (t i : Nat) : State :=
  if !(s.entry i).valid || !(s.hasPart (s.entry i).part.toNat) then s
  else
    let s1 :=
      if (s.entry i).deferred && !(s.entry i).unfinished then
        let u := s.startInstance i t
        u.setEntry i { u.entry i with deferred := false }
      else s
    let x := s1.entry i
    if t < x.next.toNat then s1
    else
      let s2 :=
        if !x.unfinished then s1.startInstance i t
        else if x.defer && !x.deferred then s1.setEntry i { x with deferred := true, defers := satInc x.defers }
        else s1.skipStart i
      let y := s2.entry i
      if y.period = 0 then s2.setEntry i { y with valid := false }
      else s2.setEntry i { y with next := BitVec.ofNat 64 (nextDue y.next.toNat y.period.toNat t) }

/-- The watchdog counts of the partitions go down by 1 µs (spec/13 R379, Table 9). -/
def State.tickDogs (s : State) : State :=
  { s with parts := s.parts.map fun (p : Part) => { p with wdLeft := if p.wdLeft = 0 then 0 else p.wdLeft - 1 } }

/-- The offset that the clock has still to slew, at most 200 ppm (R356): 1 ns in 5 ticks. -/
def slewed (x : Int) (t : Nat) : Int := if t % 5 ≠ 0 then x else if 0 < x then x - 1 else if x < 0 then x + 1 else 0

/-- The clock's offset moves towards 0; PTPSTAT[0] is set when it comes below 100 ns (R356). -/
def State.slewClock (s : State) (t : Nat) : State :=
  let x := slewed s.hub.slew t
  let s1 := { s with hub := { s.hub with slew := x } }
  if 100 ≤ s.hub.slew.natAbs ∧ x.natAbs < 100 then { s1 with hub := { s1.hub with ptpStat := s1.hub.ptpStat ||| 1 } }.msiAll 3
  else s1

/-- SCHEDULE_TICK (R312, R314): NOW reaches the next tick, and pending MSI-X vectors reach the host (log 72); every valid entry
is processed in ascending order. -/
def execScheduleTick (s : State) : Outcome :=
  let t := s.nextTick
  let s1 := (((s.toNow (1000 * t)).deliverMsi).tickDogs).slewClock t
  .next ((s1.sched.map fun e => e.1).foldl (fun u i => u.tickEntry t i) s1)

end Sys2Proof.Machine
end

