-- ==== Sys2Proof/Machine/Slices.lean ====
section
/-! DEFINITION. Shadow-bank swaps (spec/11 R315, spec/13 R368 to R370): the end of a slot, and the spill engine. -/

namespace Sys2Proof.Machine

/-! ## SLOT_END (R315, R369) -/

/-- Whether an active gust of a core belongs to a front with a property. -/
def State.activeFront (s : State) (core : Nat) (p : Front → Bool) : Bool := (s.bankGusts core 0).any fun e => p (s.frontOf e.2)

/-- Whether a core swaps at the end of a slot of an instance (R315, R369, R370, R371). -/
def State.swaps (s : State) (inst core : Nat) : Bool :=
  s.activeFront core (fun f => f.inst == inst && f.preempt) && !(s.activeFront core fun f => !f.preempt)
    && !(s.bankGusts core 1).isEmpty
    && (match (s.core core).shadow with
        | some y => y.inst != inst
        | none => false)

/-- The banks of a core exchange roles (R369): ages start at 0, drift that has landed resolves, tasks are queued again, or
wait for their scoreboard entries (R370). -/
def State.swapBanks (s : State) (core : Nat) : State :=
  let flip := fun (k : Nat) => if k / 128 = core then (if k % 128 < 64 then k + 64 else k - 64) else k
  let tasks := match (s.core core).shadow with | some y => y.tasks | none => []
  let s1 := s.rekey flip
  let c := s1.core core
  let s2 := s1.setCore core
    { c with shadow := none, requeue := c.requeue ++ tasks, quads := c.quads.map fun q => { q with ages := [], behind := [] } }
  (((s2.bankGusts core 0).map fun e => e.1).foldl State.resumed s2).resumeTasks core

/-- The instances that a list of cores' shadow banks hold. -/
def State.incoming (s : State) (cores : List Nat) : List Nat :=
  cores.filterMap fun c => (s.core c).shadow.map fun y => y.inst

/-- The end of a slot that begins at a tick: none without a slice. -/
def State.slotFrom (s : State) (x : Inst) (t : Nat) : Nat :=
  let len := (s.entry x.sched).slot.toNat
  if len = 0 then 0 else t + len

/-- SLOT_END (R315): the slot of an instance has ended. -/
def execSlotEnd (inst : Nat) (s : State) : Outcome :=
  match tabGet? s.insts inst with
  | none => .refused .noSuchEvent
  | some x =>
    let t := s.hub.now.toNat / 1000
    if x.slotEnd = 0 ∨ t < x.slotEnd then .refused .noSuchEvent
    else
      let cores := (s.cores.map fun c => c.1).filter (s.swaps inst)
      let inc := s.incoming cores
      let s1 := cores.foldl State.swapBanks s
      .next ({ s1 with insts := s1.insts.map fun e => (e.1,
        if e.1 = inst then { e.2 with slotEnd := if cores.isEmpty then s.slotFrom e.2 x.slotEnd else 0 }
        else if inc.contains e.1 then { e.2 with slotEnd := s.slotFrom e.2 t }
        else e.2) } : State).updateLoc

/-! ## SPILL_CONTEXT (R370) -/

/-- The tasks of a core that the gusts of its shadow bank have pushed, accepted and not issued. -/
def State.spillTasks (s : State) (core : Nat) : List (Nat × Nat × Option (Nat × Nat)) :=
  let fronts := (s.bankGusts core 1).map fun e => e.2.front
  ((s.core core).requeue.filter fun t => match s.eng? t.1 with | some e => fronts.contains e.front | none => false)
  ++ (s.core core).tasks.filterMap fun t =>
    match s.eng? t.1 with
    | none => none
    | some e =>
      if fronts.contains e.front && (findCmd e.queue t.2).isSome then
        some (t.1, t.2, ((s.core core).rsb.find? fun r => r.eng == t.1 && r.num == t.2).map fun r => (r.lo, r.hi))
      else none

/-- Whether a gust of a bank waits for replies (R370). -/
def Gust.awaitsReply (g : Gust) : Bool := g.a.awaits || g.b.awaits

/-- The context number, timeline number and record of a task. -/
def State.taskRecord (s : State) (t : Nat × Nat) : Nat × Nat × List Byte :=
  match s.eng? t.1 with
  | some e => (e.ctx, t.2, match findCmd e.queue t.2 with | some c => padTo 64 c.bytes | none => List.replicate 64 0)
  | none => (0, t.2, List.replicate 64 0)

/-- The save areas of the gusts of a core's shadow bank written; the first holds the context's task section (R370, log 8). -/
def State.saveBank (s : State) (core : Nat) (ts : List (Nat × Nat × List Byte)) : State :=
  let out := (s.bankGusts core 1).map fun e => e.1
  out.foldl (fun t k => t.saveGust k (if out.head? = some k then ts else [])) s

/-- The shadow bank's context written to save area n (R42, R369, R370). A save area holds no cause of an empty latch: one that
is loaded reports cause 1 (DESIGN CHOICE, log 42). -/
def State.spill (s0 : State) (core n : Nat) : State :=
  let s := s0.saveBank core ((s0.spillTasks core).map fun t => s0.taskRecord (t.1, t.2.1))
  let ts := s.spillTasks core
  let inst := match s.bankGusts core 1 with | e :: _ => (s.frontOf e.2).inst | [] => 0
  let gone := fun (k num : Nat) => ts.any fun t => t.1 == k && t.2.1 == num
  let s1 := s.rekey fun k => if k / 128 = core ∧ 64 ≤ k % 128 then (core + 320 * n) * 128 + (k % 128 - 64) else k
  let c := s1.core core
  s1.setCore core
    { c with saved := c.saved ++ [{ n := n, inst := inst, tasks := ts }],
             tasks := c.tasks.filter fun t => !(gone t.1 t.2),
             requeue := c.requeue.filter fun t => !(gone t.1 t.2.1),
             rsb := c.rsb.filter fun r => !(gone r.eng r.num) }

/-- Whether a context in save area n of a core may be loaded: it has gusts, of the partition that owns the core (R378). -/
def State.loadable (s : State) (core n : Nat) : Bool :=
  match s.savedGusts core n with
  | [] => false
  | e :: _ => (s.frontOf e.2).part == s.ownerOf core

/-- The next context of a core loaded into its shadow bank, from its save areas. -/
def State.loadNext (s : State) (core : Nat) : State :=
  let c := s.core core
  let kept := c.saved.filter fun x => !(s.savedGusts core x.n).isEmpty
  match kept.find? fun x => s.loadable core x.n with
  | none => s.setCore core { c with saved := kept, shadow := none }
  | some x =>
    let s1 := (s.savedGusts core x.n).foldl (fun t e => t.loadGust e.1) s
    (s1.setCore core { s1.core core with saved := kept.filter (· != x), shadow := some x }).rekey
      fun k => if k / 128 = core + 320 * x.n then core * 128 + 64 + k % 128 else k

/-- SPILL_CONTEXT (R370): the outgoing context of a core's shadow bank is written, once its replies have landed; then the
next context is loaded into the bank. -/
def execSpillContext (core : Nat) (s : State) : Outcome :=
  let c := s.core core
  let out := s.bankGusts core 1
  if out.isEmpty then
    if (c.saved.any fun x => s.loadable core x.n) then .next (s.loadNext core) else .refused .noSuchEvent
  else if c.shadow.isSome || out.any fun e => e.2.awaitsReply then .refused .noSuchEvent
  else .next ((s.spill core (s.freeSave core)).loadNext core)

end Sys2Proof.Machine
end

