-- ==== Sys2Proof/Machine/Debug.lean ====
section
/-! DEFINITION. The Grica debug port (spec/13 R383 to R386) and the debug block. -/

namespace Sys2Proof.Machine

/-! ## State that the block shows -/

/-- Whether every gust of a front is halted. -/
def State.allHalted (s : State) (f : Nat) : Bool := (s.gustsOf f).all fun e => e.2.halted

/-- DBGSTAT (Table 12). -/
def State.dbgStat (s : State) : Nat :=
  let all := match s.dbgFront with | some f => s.allHalted f | none => false
  let one := match s.dbgGust with | some e => e.2.halted | none => false
  s.dbg.st.toNat + 16 * s.dbg.reason.toNat + (if s.dbg.bkpt then 256 else 0) + (if all then 512 else 0)
    + (if one then 1024 else 0)

/-! ## Commands (R385, Tables 13 and 14) -/

/-- The command is done. -/
def State.dbgDone (s : State) : State := { s with dbg := { s.dbg with st := 2, reason := 0, cmd := 0 } }
/-- The command is refused with a reason. -/
def State.dbgRefuse (s : State) (r : Nat) : State :=
  { s with dbg := { s.dbg with st := 3, reason := BitVec.ofNat 4 r, cmd := 0 } }
/-- A command goes on. -/
def State.dbgBusy (s : State) (c : Nat) : State := { s with dbg := { s.dbg with st := 1, reason := 0, cmd := c } }

/-- The gusts of a front changed. -/
def State.mapGusts (s : State) (f : Nat) (h : Gust → Gust) : State :=
  { s with gusts := s.gusts.map fun e => if e.2.front = f then (e.1, h e.2) else e }

/-- The save areas of a front's swapped-out gusts follow them (R367). -/
def State.resaveFront (s : State) (f : Nat) : State := ((s.gustsOf f).map fun e => e.1).foldl State.resave s

/-- Command 1: every gust of the front halts. -/
def State.haltFront (s : State) : State :=
  match s.dbgFront with
  | none => s.dbgRefuse 2
  | some f => ((s.mapGusts f fun g => { g with halted := true }).resaveFront f).dbgDone

/-- Command 2: every halted gust of the front is released; a drained front may be loaded again. -/
def State.resumeFront (s : State) : State :=
  match s.dbgFront with
  | none => s.dbgRefuse 2
  | some f =>
    let s1 := (s.mapGusts f fun g => { g with halted := false, stepOnce := false }).resaveFront f
    (match s1.front? f with | some fr => s1.setFront f { fr with drained := false } | none => s1).dbgDone

/-- Whether a halted gust may step: it is resident, and a pending entry or a slot of it can go on. -/
def State.canStep (s : State) (k : Nat) (g : Gust) : Bool :=
  g.halted && resident k
    && (s.canIssue k g false || s.canIssue k g true
      || (g.pending != 0 && (match g.trapRet with | some t => (g.slot t.slotB).wait.isNone | none => true)))

/-- Command 3: the target gust issues one group, or completes its pending entry, and halts again. -/
def State.stepGust (s : State) : State :=
  match s.dbgGust with
  | none => s.dbgRefuse 2
  | some (k, g) => if s.canStep k g then (s.setGust k { g with stepOnce := true }).dbgBusy 3 else s.dbgRefuse 3

/-- The offset of DBGWADDR in the on-chip window, when it is aligned and populated, in a core of DBGPART. -/
def State.dbgPlace (s : State) : Option (Nat × WinPlace) :=
  let pa := s.dbg.wAddr.toNat
  let off := pa - 0xD0000000000
  if pa < 0xD0000000000 ∨ pa % 4 ≠ 0 ∨ s.ownerOf (off / 0x1000000) ≠ s.dbg.part.toNat then none
  else (winPlace off).map fun p => (off, p)

/-- Whether a place of the window is a register or trap-bank word of a gust, or of the twin of one (R372), that is not
halted. -/
def State.dbgRunning (s : State) (p : WinPlace) : Bool :=
  match p with
  | .reg k _ _ _ | .trap k _ _ _ => (match s.slotGust? k with | some e => !e.2.2.halted | none => false)
  | _ => false

/-- Command 4: DBGWDATA := the word at DBGWADDR. -/
def State.readWindowWord (s : State) : State :=
  match s.dbgPlace with
  | none => s.dbgRefuse 4
  | some (off, p) =>
    if s.dbgRunning p then s.dbgRefuse 3
    else
      match s.winReads off 4 with
      | none => s.dbgRefuse 4
      | some bs => { s with dbg := { s.dbg with wData := BitVec.ofNat 32 (natOfBytes bs) } }.dbgDone

/-- Command 5: DBGWDATA written at DBGWADDR as a window write (R355). -/
def State.writeWindowWord (s : State) : State :=
  match s.dbgPlace with
  | none => s.dbgRefuse 4
  | some (off, p) =>
    if s.dbgRunning p then s.dbgRefuse 3
    else
      match s.winWrites off (bytesOf 4 s.dbg.wData.toNat) with
      | none => s.dbgRefuse 4
      | some t => t.dbgDone

/-- Command 6: partition DBGPART is reset. -/
def State.resetDbgPart (s : State) : State := (s.resetPart s.dbg.part.toNat 11).dbgDone

/-- Whether the open work of a front has finished or landed (R370, R371). -/
def State.drainable (s : State) (f : Nat) : Bool :=
  ((s.gustsOf f).all fun e => !e.2.awaitsReply && (e.2.syms.all fun y => y.state != 1) && e.2.posted.isEmpty)
    && (s.frontEngs f).all fun e => e.2.idle

/-- A resident gust written to a save area of its core. -/
def State.drainGust (s : State) (k : Nat) : State :=
  let to' := (coreOf k + 320 * s.freeSave (coreOf k)) * 128 + slotOf k % 64
  if resident k then (s.saveGust k []).rekey fun n => if n = k then to' else n else s

/-- A front leaves its cores (R371, R385): its gusts stand in save areas, and what it held on its cores is free. -/
def State.drainNow (s : State) (f : Nat) : State :=
  let s1 := ((s.gustsOf f).map fun e => e.1).foldl State.drainGust s
  (match s1.front? f with | some fr => s1.parkFront f fr | none => s1).updateLoc.dbgDone

/-- Whether a front may be drained (R385, Table 14): its gusts are halted and resident, and none waits. -/
def State.mayDrain (s : State) (f : Nat) : Bool := (s.gustsOf f).all fun e => e.2.halted && resident e.1 && !e.2.waits

/-- Command 8: the halted front is drained, at once or as soon as its work is done. -/
def State.drainFront (s : State) : State :=
  match s.dbgFront with
  | none => s.dbgRefuse 2
  | some f => if !(s.mayDrain f) then s.dbgRefuse 3 else if s.drainable f then s.drainNow f else s.dbgBusy 8

/-- A write of a command code to DBGCMD. -/
def State.debugCommand (s : State) (c : Nat) : State :=
  if s.dbg.st = 1 then { s with dbg := { s.dbg with reason := 5 } }
  else
    match c with
    | 1 => s.haltFront
    | 2 => s.resumeFront
    | 3 => s.stepGust
    | 4 => s.readWindowWord
    | 5 => s.writeWindowWord
    | 6 => s.resetDbgPart
    | 7 => s.resetPackage 12
    | 8 => s.drainFront
    | _ => s.dbgRefuse 1

/-- HALT_FRONT (R385). -/
def execHaltFront (s : State) : Outcome := .next (s.debugCommand 1)
/-- RESUME_FRONT (R385). -/
def execResumeFront (s : State) : Outcome := .next (s.debugCommand 2)
/-- STEP_GUST (R385). -/
def execStepGust (s : State) : Outcome := .next (s.debugCommand 3)
/-- READ_WINDOW_WORD (R385). -/
def execReadWindowWord (s : State) : Outcome := .next (s.debugCommand 4)
/-- WRITE_WINDOW_WORD (R385). -/
def execWriteWindowWord (s : State) : Outcome := .next (s.debugCommand 5)
/-- RESET_PARTITION (R385). -/
def execResetPartition (s : State) : Outcome := .next (s.debugCommand 6)
/-- RESET_PACKAGE (R385). -/
def execResetPackage (s : State) : Outcome := .next (s.debugCommand 7)

/-- DRAIN_FRONT (R385): the write of command 8, or, while that command runs, its next try. -/
def execDrainFront (s : State) : Outcome :=
  if s.dbg.cmd = 8 then
    match s.dbgFront with
    | none => .next s.dbgDone
    | some f => if s.drainable f then .next (s.drainNow f) else .refused .noSuchEvent
  else .next (s.debugCommand 8)

/-! ## Registers of the block (Table 12) -/

/-- A write of DBGPART, DBGFRONT or DBGGUST. -/
def State.writeTarget (s : State) (off : Nat) (v : Nat) : State :=
  match off with
  | 0x008 => { s with dbg := { s.dbg with part := BitVec.ofNat 4 v } }
  | 0x00C => { s with dbg := { s.dbg with front := BitVec.ofNat 32 v } }.updateLoc
  | 0x010 => { s with dbg := { s.dbg with gust := BitVec.ofNat 16 v } }.updateLoc
  | _ => s

/-- DBG_TARGET_WRITE (R385): register input.off (0x008, 0x00C, 0x010), input.data. -/
def execDbgTargetWrite (s : State) : Outcome :=
  if [0x008, 0x00C, 0x010].contains s.input.off then .next (s.writeTarget s.input.off (natOfBytes s.input.data))
  else .refused .noSuchEvent

/-- A write of DBGSTAT (R386): bit 8 written with 1 is cleared. -/
def State.writeStat (s : State) (v : Nat) : State :=
  if v / 256 % 2 = 1 then { s with dbg := { s.dbg with bkpt := false } } else s

/-- DBGSTAT_WRITE (R386): input.data. -/
def execDbgstatWrite (s : State) : Outcome := .next (s.writeStat (natOfBytes s.input.data))

/-- A write of DBGEN (R384): from 0 to 1 extends M3. -/
def State.writeDbgEn (s : State) (v : Nat) : State :=
  let on := v % 2 == 1
  let s1 := { s with dbg := { s.dbg with en := on } }
  if on && !s.dbg.en then { s1 with sec := { s1.sec with m := extend s1.sec.m 3 (shake256 (asciiBytes "GRICA-ENABLE")) } }
  else s1

/-- DBGEN_WRITE (R384): through PF BAR0, input.data. -/
def execDbgenWrite (s : State) : Outcome := .next (s.writeDbgEn (natOfBytes s.input.data))

/-- The word at an offset of the debug block. -/
def State.dbgWord (s : State) (off : Nat) : Nat :=
  match off with
  | 0x000 => 0x96160001
  | 0x004 => if s.dbg.en then 1 else 0
  | 0x008 => s.dbg.part.toNat
  | 0x00C => s.dbg.front.toNat
  | 0x010 => s.dbg.gust.toNat
  | 0x018 => s.dbgStat
  | 0x01C => s.dbg.evFront.toNat
  | 0x020 => s.dbg.evGust.toNat
  | 0x024 => s.dbg.loc.toNat
  | 0x028 => s.dbg.wAddr.toNat % 2 ^ 32
  | 0x02C => s.dbg.wAddr.toNat / 2 ^ 32
  | 0x030 => s.dbg.wData.toNat
  | _ => 0

/-- A word written at an offset of the debug block; host says that it comes through PF BAR0. -/
def State.dbgPut (s : State) (host : Bool) (off v : Nat) : State :=
  match off with
  | 0x004 => if host then s.writeDbgEn v else s
  | 0x014 => s.debugCommand (v % 16)
  | 0x018 => s.writeStat v
  | 0x028 => { s with dbg := { s.dbg with wAddr := BitVec.ofNat 44 (s.dbg.wAddr.toNat / 2 ^ 32 * 2 ^ 32 + v % 2 ^ 32) } }
  | 0x02C => { s with dbg := { s.dbg with wAddr := BitVec.ofNat 44 (s.dbg.wAddr.toNat % 2 ^ 32 + v * 2 ^ 32) } }
  | 0x030 => { s with dbg := { s.dbg with wData := BitVec.ofNat 32 v } }
  | _ => s.writeTarget off v

/-- DBGACC (R383): at Update-DR the access of word input.off, a write of input.data when input.wr; refused while DBGEN[0]
is 0. -/
def execDbgacc (s : State) : Outcome :=
  let off := 4 * (s.input.off % 512)
  let v := natOfBytes (s.input.data.take 4)
  if !s.dbg.en then .next { s with dbg := { s.dbg with capSt := 2 } }
  else if s.input.wr then
    let s1 := s.dbgPut false off v
    .next { s1 with dbg := { s1.dbg with capData := BitVec.ofNat 32 v, capSt := 0 } }
  else .next { s with dbg := { s.dbg with capData := BitVec.ofNat 32 (s.dbgWord off), capSt := 0 } }

end Sys2Proof.Machine
end

