-- ==== Sys2Proof/Machine/Errors.lean ====
section
/-! DEFINITION. Errors that the device finds by itself (spec/13 R376, Table 7), with the device's part of the recovery action
(R377). -/

namespace Sys2Proof.Machine

/-- A line is poisoned (R377 action 5). -/
def State.poisonLine (s : State) (pa : Nat) : State := { s with poison := setAdd s.poison (s.own pa / 128) }

/-- HBM_ECC_ERROR: at PA input.off; input.flag says uncorrectable (R287 gives the stack and the pseudo-channel). -/
def execHbmEccError (s : State) : Outcome :=
  let pa := s.input.off
  if regionOf pa ≠ .hbm then .refused .noSuchEvent
  else
    let stack := pa / 0x1800000000
    let s1 := if s.input.flag then s.poisonLine pa else s
    .next (s1.record { cls := 0x06, code := if s.input.flag then 0x0002 else 0x0001, action := if s.input.flag then 5 else 1,
                       part := 0xFF, akind := 2, unit := 7, die := stack / 4, num := stack, addr := pa,
                       detail := bytesOf 1 stack ++ bytesOf 1 (bitsOf pa 15 8 ^^^ bitsOf pa 23 16) })

/-- HBF_READ_ERROR: at PA input.off; input.flag says uncorrectable (R288 gives the stack and the zone). -/
def execHbfReadError (s : State) : Outcome :=
  let pa := s.input.off
  if regionOf pa ≠ .hbf then .refused .noSuchEvent
  else
    let s1 := if s.input.flag then s.poisonLine pa else s
    .next (s1.record { cls := 0x06, code := if s.input.flag then 0x0004 else 0x0003, action := if s.input.flag then 5 else 1,
                       part := 0xFF, akind := 2, unit := 8, die := 4, num := bitsOf pa 41 40, addr := pa,
                       detail := bytesOf 2 ((pa - 0x40000000000) / 2 ^ 28) })

/-- CORE_SRAM_ERROR: structure input.count of core input.which; the core takes no new front (R377 action 6). -/
def execCoreSramError (s : State) : Outcome :=
  let c := s.input.which
  if 320 ≤ c then .refused .noSuchEvent
  else
    .next ((s.setCore c { s.core c with retired := true }).record
      { cls := 0x0E, code := 0x0001, action := 6, part := 0xFF, unit := 0, die := dieOf c, num := c,
        detail := bytesOf 1 s.input.count })

/-- DIE_LINK_ERROR: link input.which; input.flag says that it has failed. -/
def execDieLinkError (s : State) : Outcome :=
  .next (s.record { cls := 0x0E, code := if s.input.flag then 0x0003 else 0x0002, action := if s.input.flag then 9 else 1,
                    part := 0xFF, unit := 15, num := s.input.which, detail := bytesOf 1 s.input.which })

/-- PCIE_LINK_ERROR: error bit input.count; input.flag says uncorrectable. -/
def execPcieLinkError (s : State) : Outcome :=
  .next (s.record { cls := 0x0D, code := if s.input.flag then 0x0004 else 0x0003, action := if s.input.flag then 8 else 1,
                    part := 0xFF, unit := 9, detail := bytesOf 1 s.input.count })

end Sys2Proof.Machine
end

