-- ==== Sys2Proof/Machine/Host.lean ====
section
/-! DEFINITION. Host accesses through BAR2 and BAR4 (spec/12 R348, R349, R353, spec/09 R278). -/

namespace Sys2Proof.Machine

/-- Whether an access of a function is answered: it exists (R348), and no reset holds the package (R382, R388). -/
def State.answers (s : State) (fn : Nat) : Bool := s.hasFn fn && !s.inReset

/-- The partition that a function serves for BAR2 and BAR4 (R348): the PF partition 0. -/
def partOfFn (fn : Nat) : Nat := fn - 1

/-- Whether n bytes at a PA lie in a range of a partition (R349). -/
def Part.inRange (p : Part) (pa n : Nat) : Bool :=
  p.prange.any fun r => decide (r.2 ≠ 0) && decide (r.1.toNat ≤ pa) && decide (pa + n ≤ r.1.toNat + r.2.toNat)

/-- Whether n bytes at a PA lie in HBM or HBF (R286). -/
def deviceMemory (pa n : Nat) : Bool :=
  (regionOf pa == .hbm && regionOf (pa + n - 1) == .hbm) || (regionOf pa == .hbf && regionOf (pa + n - 1) == .hbf)

/-- Whether n bytes from an offset lie in the aperture of a function (R348): 1 GiB to 1 TiB, as configured. -/
def State.inAperture (s : State) (fn off n : Nat) : Bool := decide (off + n ≤ 2 ^ (s.hub.config.bar4.getD fn 30))

/-- BAR4_ACCESS (R349): function input.fn, offset input.off; a write of input.data when input.wr, otherwise a read of
input.count bytes. -/
def execBar4Access (s : State) : Outcome :=
  let x := s.input
  let q := partOfFn x.fn
  let p := s.part q
  let n := if x.wr then x.data.length else min x.count 4096
  let pa := p.apBase.toNat + x.off
  if !(s.answers x.fn) || n == 0 || !(s.inAperture x.fn x.off n) then .refused .noSuchEvent
  else if p.inRange pa n && deviceMemory pa n then
    if !x.wr then .next { s with busData := s.readBytes (s.own pa) n }
    else if regionOf pa = .hbf then .next s
    else .next (s.storeBytes (s.own pa) x.data)
  else
    let s1 := s.record { cls := 0x0D, code := 0x0001, action := 0, part := q, unit := 9, detail := bytesOf 8 x.off }
    .next (if x.wr then s1 else { s1 with busData := List.replicate n 0xFF })

/-- Listed pages of a partition written to its reclaim queue as far as it has room (R299, R353). -/
def State.retryListed (s : State) (q : Nat) : State :=
  ((s.part q).listed.map fun x => x.asid).dedup.foldl (fun t a =>
    let r := t.freeListed q a (t.part q).listed
    r.1.setPart q { r.1.part q with listed := r.2 }) s

/-- The offset in the host window that an offset of BAR2 reaches (R348): the whole window, or the partition's area. -/
def bar2 (fn off n : Nat) : Option Nat :=
  if fn = 0 then (if off + n ≤ 0x1000000 then some off else none)
  else if off + n ≤ 0x80000 then some (0x100000 + (fn - 1) * 0x80000 + off) else none

/-- HOST_WINDOW_ACCESS (R278, R353): function input.fn, offset input.off of BAR2; a write of input.data when input.wr,
otherwise a read of input.count bytes. A write may make room in a reclaim queue. -/
def execHostWindowAccess (s : State) : Outcome :=
  let x := s.input
  let n := if x.wr then x.data.length else min x.count 4096
  if !(s.answers x.fn) || n == 0 then .refused .noSuchEvent
  else
    match bar2 x.fn x.off n with
    | none => .refused .noSuchEvent
    | some o =>
      let d := s.own (winBase + o)
      if x.wr then .next ((List.range 16).foldl State.retryListed (s.storeBytes d x.data))
      else .next { s with busData := s.readBytes d n }

end Sys2Proof.Machine
end

