-- ==== Sys2Proof/Machine/Registers.lean ====
section
/-! DEFINITION. BAR0 (spec/12 R351, Tables 5 and 6, spec/13 Tables 9 and 12, spec/14 Table 1, spec/00 R5): every hub register by
its offset, how it reads, and what a write of it does. -/

namespace Sys2Proof.Machine

/-- A register of BAR0: its offset, its bytes, and the effect of a write that leaves it holding given bytes; a byte that a
write leaves out stands in them as the register holds it, or, where a 1 has an effect (R5: W1C), as 0. -/
structure Reg where
  off : Nat
  size : Nat
  get : State → List Byte
  put : State → List Byte → State
  keeps : Bool := true

/-- A register that software cannot write (RO, HW). -/
def Reg.ro (off size : Nat) (get : State → Nat) : Reg := { off := off, size := size, get := fun s => bytesOf size (get s), put := fun s _ => s }
/-- A register with a number. -/
def Reg.num (off size : Nat) (get : State → Nat) (put : State → Nat → State) : Reg :=
  { off := off, size := size, get := fun s => bytesOf size (get s), put := fun s bs => put s (natOfBytes bs) }
/-- A register that reads 0 (WO). -/
def Reg.wo (off size : Nat) (put : State → Nat → State) : Reg :=
  { off := off, size := size, get := fun _ => List.replicate size 0, put := fun s bs => put s (natOfBytes bs) }
/-- A register of bytes. -/
def Reg.bytes (off size : Nat) (get : State → List Byte) (put : State → List Byte → State) : Reg :=
  { off := off, size := size, get := get, put := put }

/-! ## Package registers -/

/-- The hub changed. -/
def State.modHub (s : State) (f : Hub → Hub) : State := { s with hub := f s.hub }

/-- Package registers of spec/12 Table 5. -/
def fabricRegs : List Reg :=
  [Reg.num 0x0000 4 (fun s => s.hub.remap.toNat) (fun s v => s.writeRemap (BitVec.ofNat 24 v)),
   Reg.ro 0x0004 1 (fun s => s.hub.planeStat.toNat),
   Reg.ro 0x0008 1 (fun s => s.hub.peerId.toNat),
   Reg.num 0x0010 8 (fun s => s.hub.domMask.toNat) (fun s v => s.modHub fun h => { h with domMask := BitVec.ofNat 64 v }),
   Reg.bytes 0x0020 16 (fun s => s.hub.share) (fun s bs => s.modHub fun h => { h with share := bs }),
   Reg.bytes 0x0030 16 (fun s => s.hub.leaveShare) (fun s bs => s.modHub fun h => { h with leaveShare := bs }),
   Reg.bytes 0x0040 32 (fun s => s.hub.inc.flatMap fun x => bytesOf 2 x.toNat) (fun s _ => s),
   Reg.ro 0x0060 4 (fun s => s.hub.dropInc.toNat),
   Reg.ro 0x0068 8 (fun s => s.hub.now.toNat),
   Reg.ro 0x0070 1 (fun s => s.hub.ptpStat.toNat)]

/-- LQOWN0 to LQOWN63 (R232) and PCOREMAP (R378): one byte each. -/
def byteRegs : List Reg :=
  ((List.range 64).map fun i =>
    Reg.bytes (0x0200 + i) 1 (fun s => [tabGetD s.hub.lqOwn i 0xFF]) (fun s bs => s.writeLqOwn i (bs.getD 0 0xFF)))
  ++ (List.range 320).map fun i =>
    Reg.bytes (0x1000 + i) 1 (fun s => [tabGetD s.hub.coreMap i 0xFF]) (fun s bs => s.modHub fun h =>
        { h with coreMap := if bs.getD 0 0xFF = 0xFF then tabDel h.coreMap i else tabSet h.coreMap i (bs.getD 0 0xFF) })

/-- Package registers of spec/13 Table 9. -/
def resetRegs : List Reg :=
  [Reg.ro 0x0080 1 (fun s => s.hub.rstCause.toNat),
   Reg.ro 0x0084 4 (fun s => s.hub.rstCount.toNat),
   Reg.bytes 0x0090 16 (fun s => s.hub.poolShare) (fun s bs => s.modHub fun h => { h with poolShare := bs }),
   Reg.bytes 0x00A0 16 (fun s => s.hub.hbmShare) (fun s bs => s.modHub fun h => { h with hbmShare := bs })]

/-- Security and feature registers of spec/14 Table 1. -/
def securityRegs : List Reg :=
  [Reg.ro 0x0400 1 (fun s => s.sec.bootStat.toNat),
   Reg.ro 0x0408 16 (fun s => s.available.toNat)]
  ++ ((List.range 4).map fun k =>
      Reg.num (0x0418 + 4 * k) 4 (fun s => bitsOf s.sec.featAcc.toNat (32 * k + 31) (32 * k))
        (fun s v => s.writeFeat k (BitVec.ofNat 32 v)))
  ++ [Reg.ro 0x0428 1 (fun s => if s.sec.featLock then 1 else 0),
      Reg.bytes 0x0440 57 (fun s => padTo 57 s.sec.idKey) (fun s _ => s)]
  ++ ((List.range 4).map fun k =>
      Reg.bytes (0x0480 + 64 * k) 64 (fun s => s.sec.ownKeys.getD k []) (fun s bs => s.writeOwnKey k bs))
  ++ [Reg.num 0x0580 8 (fun s => s.sec.instPa.toNat) (fun s v => { s with sec := { s.sec with instPa := BitVec.ofNat 44 v } }),
      Reg.num 0x0588 4 (fun s => s.sec.instLen.toNat) (fun s v => { s with sec := { s.sec with instLen := BitVec.ofNat 32 v } }),
      Reg.wo 0x058C 4 (fun s v => if v % 2 = 1 then s.instGo else s),
      Reg.ro 0x0590 1 (fun s => s.sec.instStat.toNat),
      Reg.bytes 0x05A0 32 (fun s => padTo 32 s.sec.attNonce) (fun s bs => s.writeNonce bs),
      Reg.num 0x05C0 8 (fun s => s.sec.attPa.toNat) (fun s v => s.writeAttPa v),
      Reg.wo 0x05C8 4 (fun s v => if v % 2 = 1 then s.attGo else s),
      Reg.ro 0x05CC 1 (fun s => s.sec.attStat.toNat)]

/-- The debug block at 0x0800, word by word (R383). -/
def debugRegs : List Reg :=
  [0x000, 0x004, 0x008, 0x00C, 0x010, 0x014, 0x018, 0x01C, 0x020, 0x024, 0x028, 0x02C, 0x030].map fun o =>
    { Reg.num (0x0800 + o) 4 (fun s => s.dbgWord o) (fun s v => s.dbgPut true o v) with keeps := o != 0x018 }

/-- The package registers. -/
def packageRegs : List Reg := fabricRegs ++ resetRegs ++ securityRegs ++ debugRegs ++ byteRegs

/-! ## The partition block -/

/-- A partition changed. -/
def State.modPart (s : State) (q : Nat) (f : Part → Part) : State := s.setPart q (f (s.part q))

/-- WCAGE written (Table 6): 0 and 65 to 127 are ignored. -/
def Part.writeAge (p : Part) (v : Nat) : Part :=
  if v % 128 = 0 ∨ 64 < v % 128 then p else { p with wcAge := BitVec.ofNat 7 v }

/-- A vector written (R361): a front uses it aligned to 4 (log 63). -/
def setVec (t : Tab (BitVec 56)) (a v : Nat) : Tab (BitVec 56) :=
  if v % 2 ^ 56 = 0 then tabDel t a else tabSet t a (BitVec.ofNat 56 v)

/-- Registers of a partition's block (spec/12 Table 6). -/
def tableSix (q : Nat) (pf : Bool) : List Reg :=
  [Reg.ro 0x000 1 (fun s => (if (s.part q).running then 1 else 0) + (if (s.part q).resetting then 2 else 0)),
   Reg.num 0x008 4 (fun s => (s.part q).wcAge.toNat) (fun s v => s.modPart q fun p => p.writeAge v)]
  ++ ((List.range 8).map fun k =>
      Reg.num (0x010 + 8 * k) 8 (fun s => ((s.part q).pfBase.getD k 0).toNat)
        (fun s v => s.modPart q fun p => { p with pfBase := listSet p.pfBase k (BitVec.ofNat 56 v) }))
  ++ ((List.range 8).map fun k =>
      Reg.num (0x050 + k) 1 (fun s => ((s.part q).pfAs.getD k 0).toNat)
        (fun s v => s.modPart q fun p => { p with pfAs := listSet p.pfAs k (BitVec.ofNat 8 v) }))
  ++ ((List.range 8).map fun k =>
      Reg.num (0x060 + 4 * k) 4 (fun s => ((s.part q).pfMiss.getD k 0).toNat)
        (fun s _ => s.modPart q fun p => { p with pfMiss := listSet p.pfMiss k 0 }))
  ++ ((List.range 6).map fun i => Reg.wo (0x080 + 8 * i) 8 (fun s v => s.poolPush q i (v % 2 ^ 44)))
  ++ [Reg.num 0x0B0 8 (fun s => (s.part q).apBase.toNat) (fun s v => s.modPart q fun p => { p with apBase := BitVec.ofNat 44 v })]
  ++ ((List.range 4).map fun k =>
      Reg.bytes (0x0C0 + 16 * k) 16
        (fun s => let r := (s.part q).prange.getD k (0, 0); bytesOf 8 r.1.toNat ++ bytesOf 8 r.2.toNat)
        (fun s bs => if pf then s.modPart q fun p =>
            { p with prange := listSet p.prange k (BitVec.ofNat 64 (natOfBytes (bs.take 8)), BitVec.ofNat 64 (natOfBytes (bs.drop 8))) }
          else s))

/-- Registers of a partition's block (spec/13 Table 9). -/
def tableNine (q : Nat) : List Reg :=
  [Reg.wo 0x100 4 (fun s v => if v % 2 = 1 then s.resetPart q 6 else s),
   Reg.ro 0x104 1 (fun s => (s.part q).prstCause.toNat),
   Reg.num 0x108 4 (fun s => (s.part q).wdog.toNat)
     (fun s v => s.modPart q fun p => { p with wdog := BitVec.ofNat 32 v, wdLeft := BitVec.ofNat 32 v }),
   Reg.ro 0x10C 4 (fun s => (s.part q).wdLeft.toNat),
   Reg.num 0x110 4 (fun s => if (s.part q).haltEn then 1 else 0) (fun s v => s.modPart q fun p => { p with haltEn := v % 2 == 1 }),
   Reg.num 0x120 32 (fun s => (s.part q).twin.toNat) (fun s v => s.modPart q fun p => { p with twin := BitVec.ofNat 256 v })]
  ++ ((List.range 256).map fun a =>
      Reg.num (0x1000 + 8 * a) 8 (fun s => (tabGetD (s.part q).uvec a 0).toNat)
        (fun s v => s.modPart q fun p => { p with uvec := setVec p.uvec a v }))
  ++ ((List.range 256).map fun a =>
      Reg.num (0x1800 + 8 * a) 8 (fun s => (tabGetD (s.part q).svec a 0).toNat)
        (fun s v => s.modPart q fun p => { p with svec := setVec p.svec a v }))

/-- The block of a partition. -/
def blockRegs (q : Nat) (pf : Bool) : List Reg := tableSix q pf ++ tableNine q

/-! ## Accesses -/

/-- Bytes at base with the bytes of a write at off laid over them. -/
def overlay (bs : List Byte) (base off : Nat) (data : List Byte) : List Byte :=
  (List.range bs.length).map fun i =>
    if off ≤ base + i ∧ base + i < off + data.length then data.getD (base + i - off) 0 else bs.getD i 0

/-- The registers that an access of n bytes at off touches. -/
def touched (rs : List Reg) (off n : Nat) : List Reg := rs.filter fun r => decide (off < r.off + r.size) && decide (r.off < off + n)

/-- A write to a set of registers, in ascending order; unlisted offsets are ignored. -/
def State.putRegs (s : State) (rs : List Reg) (off : Nat) (data : List Byte) : State :=
  (touched rs off data.length).foldl
    (fun t r => r.put t (overlay (if r.keeps then r.get t else List.replicate r.size 0) r.off off data)) s

/-- A read of a set of registers; unlisted offsets read 0. -/
def State.getRegs (s : State) (rs : List Reg) (off n : Nat) : List Byte :=
  (touched rs off n).foldl (fun bs r => overlay bs off r.off (r.get s)) (List.replicate n 0)

/-- Where an offset of BAR0 lies for a function (R351): a set of registers, none for a partition that does not exist (R348),
with the offset in it. -/
def State.bar0 (s : State) (fn off : Nat) : List Reg × Nat :=
  if fn = 0 then
    if 0x100000 ≤ off ∧ off < 0x200000 then
      let q := (off - 0x100000) / 0x10000
      (if s.hasPart q then blockRegs q true else [], (off - 0x100000) % 0x10000)
    else (packageRegs, off)
  else (blockRegs (fn - 1) false, off)

/-- Whether an offset of BAR0 lies in the schedule window (R312, R351). -/
def inSchedule (off : Nat) : Bool := decide (0x1000000 ≤ off) && decide (off < 0x1040000)

/-- A read of the schedule window, filtered as R313 states. -/
def State.schedRead (s : State) (fn off n : Nat) : List Byte :=
  (List.range n).map fun i =>
    let x := s.entry ((off + i) / 64)
    if fn ≠ 0 ∧ x.part.toNat ≠ fn - 1 then 0 else x.bytes.getD ((off + i) % 64) 0

/-- A write to BAR0. -/
def State.bar0Write (s : State) (fn off : Nat) (data : List Byte) : State :=
  if inSchedule off then s.schedWrite fn (off - 0x1000000) data
  else let p := s.bar0 fn off; s.putRegs p.1 p.2 data

/-- A read of BAR0; a read of DROPINC clears it (R345). -/
def State.bar0Read (s : State) (fn off n : Nat) : State :=
  let bs := if inSchedule off then s.schedRead fn (off - 0x1000000) n else let p := s.bar0 fn off; s.getRegs p.1 p.2 n
  let s1 := if fn = 0 ∧ off < 0x64 ∧ 0x60 < off + n then s.modHub fun h => { h with dropInc := 0 } else s
  { s1 with busData := bs }

/-- REGISTER_WRITE (R5, R351): a write by function input.fn of input.data at offset input.off of BAR0; without input.wr, a
read of input.count bytes. -/
def execRegisterWrite (s : State) : Outcome :=
  let x := s.input
  if !(s.hasFn x.fn) then .refused .noSuchEvent
  else if x.wr then .next (s.bar0Write x.fn x.off x.data)
  else .next (s.bar0Read x.fn x.off (min x.count 64))

end Sys2Proof.Machine
end

