-- ==== Sys2Proof/Decode.lean ====
section
/-! DEFINITION. Decoding (spec/03 R71 to R90), total on any bytes, and the encoder written from the same formats. A word
that is no instruction decodes to ILLEGAL_WORD with its cause; the operand checks of R84 are made when the group
would issue (R91), by Instr.wordCause. -/

namespace Sys2Proof

/-- The major opcode (R74). -/
def opOf (w : Word) : BitVec 6 := w.extractLsb' 26 6
/-- FN of the R format (R74). -/
def fnOf (w : Word) : BitVec 4 := w.extractLsb' 21 4
/-- K of the M format (R76). -/
def kOf (w : Word) : BitVec 3 := w.extractLsb' 23 3
/-- O of the M format (R76). -/
def mOf (w : Word) : BitVec 2 := w.extractLsb' 21 2
/-- SB (R74, R76). -/
def sbOf (w : Word) : BitVec 7 := w.extractLsb' 14 7
/-- SA (R74). -/
def saOf (w : Word) : BitVec 7 := w.extractLsb' 7 7
/-- D (R74). -/
def dOf (w : Word) : BitVec 7 := w.extractLsb' 0 7
/-- W (R74). -/
def wOf (w : Word) : BitVec 1 := w.extractLsb' 25 1

def rForm (w : Word) : RForm := ⟨wOf w, sbOf w, saOf w, dOf w⟩
def iForm (w : Word) : IForm := ⟨wOf w, w.extractLsb' 14 11, saOf w, dOf w⟩
def shForm (w : Word) : ShForm := ⟨wOf w, w.extractLsb' 21 4, w.extractLsb' 14 5, saOf w, dOf w⟩
def mForm (w : Word) : MForm := ⟨kOf w, mOf w, sbOf w, saOf w, dOf w⟩
def kForm (w : Word) : KForm := ⟨kOf w, sbOf w, saOf w, dOf w⟩
def aForm (w : Word) : AForm := ⟨kOf w, w.extractLsb' 21 1, sbOf w, saOf w, dOf w⟩
def oForm (w : Word) : OForm := ⟨mOf w, sbOf w, saOf w, dOf w⟩
def xForm (w : Word) : XForm := ⟨sbOf w, saOf w, dOf w⟩
def bForm (w : Word) : BForm := ⟨w.extractLsb' 23 3, w.extractLsb' 20 3, w.extractLsb' 0 20⟩
def wForm (w : Word) : WForm := ⟨w.extractLsb' 20 6, w.extractLsb' 12 8, w.extractLsb' 0 12⟩
def eForm (w : Word) : EForm := ⟨w.extractLsb' 14 8, saOf w, dOf w⟩
def yForm (w : Word) : YForm := ⟨w.extractLsb' 14 10, saOf w, dOf w⟩
def fForm (w : Word) : FForm := ⟨saOf w, dOf w⟩
def pfxMForm (w : Word) : PfxM :=
  ⟨w.extractLsb' 22 3, w.extractLsb' 21 1, w.extractLsb' 18 3, w.extractLsb' 16 2, w.extractLsb' 0 16⟩

/-- A prefix word: major 0x3D (R80). -/
def isPfx (w : Word) : Bool := opOf w == 0x3D
/-- A PFX.I word (R80: bit 25). -/
def isPfxI (w : Word) : Bool := isPfx w && wOf w == 1

/-- Major 0x01 (R85; R96). -/
def decode01 (p : Pfx) (w : Word) (bad : Instr) : Instr :=
  match (fnOf w).toNat with
  | 0 => .iadd p (rForm w)
  | 1 => .isub p (rForm w)
  | 2 => .imul p (rForm w)
  | 3 => .imulh p (rForm w)
  | 4 => .imulhn p (rForm w)
  | 5 => .imad p (rForm w)
  | 6 => .imin p (rForm w)
  | 7 => .imax p (rForm w)
  | 8 => .iminn p (rForm w)
  | 9 => .imaxn p (rForm w)
  | 10 => .iabs p (rForm w)
  | _ => bad

/-- Major 0x02 (R85; R97, R98). -/
def decode02 (p : Pfx) (w : Word) : Instr :=
  match (fnOf w).toNat with
  | 0 => .and p (rForm w)
  | 1 => .or p (rForm w)
  | 2 => .xor p (rForm w)
  | 3 => .andn p (rForm w)
  | 4 => .shl p (rForm w)
  | 5 => .shr p (rForm w)
  | 6 => .sar p (rForm w)
  | 7 => .rotl p (rForm w)
  | 8 => .popc p (rForm w)
  | 9 => .clz p (rForm w)
  | 10 => .ctz p (rForm w)
  | 11 => .brev p (rForm w)
  | 12 => .sel p (rForm w)
  | 13 => .bfx p (rForm w)
  | 14 => .bfxs p (rForm w)
  | _ => .bfi p (rForm w)

/-- Major 0x03 (R85; R99). -/
def decode03 (p : Pfx) (w : Word) : Instr := .icmp p (fnOf w) (rForm w)

/-- Major 0x04 (R85; R100). -/
def decode04 (p : Pfx) (w : Word) : Instr := .iaddi p (iForm w)

/-- Major 0x05 (R85; R100). -/
def decode05 (p : Pfx) (w : Word) : Instr := .andi p (iForm w)

/-- Major 0x06 (R85; R100). -/
def decode06 (p : Pfx) (w : Word) : Instr := .ori p (iForm w)

/-- Major 0x07 (R85; R100). -/
def decode07 (p : Pfx) (w : Word) : Instr := .xori p (iForm w)

/-- Major 0x08 (R85; R101). -/
def decode08 (p : Pfx) (w : Word) (bad : Instr) : Instr :=
  match (w.extractLsb' 19 2).toNat with
  | 0 => .shli p (shForm w)
  | 1 => .shri p (shForm w)
  | 2 => .sari p (shForm w)
  | _ => bad

/-- Major 0x09 (R85; R102). -/
def decode09 (p : Pfx) (w : Word) : Instr := .ldi p (iForm w)

/-- Major 0x0A (R85; R103). -/
def decode0A (p : Pfx) (w : Word) : Instr :=
  match (fnOf w).toNat with
  | 0 => .add64 p (rForm w)
  | 1 => .sub64 p (rForm w)
  | 2 => .mad64 p (rForm w)
  | _ => .cmp64 p (fnOf w - 3) (rForm w)

/-- Major 0x0B (R85; R103). -/
def decode0B (p : Pfx) (w : Word) : Instr := .add64i p (iForm w)

/-- Major 0x0C (R85; R105, R106, R107). -/
def decode0C (p : Pfx) (w : Word) (bad : Instr) : Instr :=
  match (fnOf w).toNat with
  | 0 => .fadd p (rForm w)
  | 1 => .fsub p (rForm w)
  | 2 => .fmul p (rForm w)
  | 3 => .ffma p (rForm w)
  | 4 => .fmin p (rForm w)
  | 5 => .fmax p (rForm w)
  | 6 => .fabs p (rForm w)
  | 7 => .fneg p (rForm w)
  | 8 => .fclass p (rForm w)
  | 9 => .frnd p (rForm w)
  | 10 => .fscale p (rForm w)
  | _ => bad

/-- Major 0x0D (R85; R108). -/
def decode0D (p : Pfx) (w : Word) : Instr := .fcmp p (fnOf w) (rForm w)

/-- Major 0x0E (R85; R109). -/
def decode0E (p : Pfx) (w : Word) (bad : Instr) : Instr :=
  match (fnOf w).toNat with
  | 0 => .frcp p (rForm w)
  | 1 => .frsq p (rForm w)
  | 2 => .fsqrt p (rForm w)
  | 3 => .fexp2 p (rForm w)
  | 4 => .flog2 p (rForm w)
  | 5 => .ftanh p (rForm w)
  | 6 => .fsigm p (rForm w)
  | _ => bad

/-- Major 0x0F (R85; R51, R53, R54, R111). -/
def decode0F (p : Pfx) (w : Word) (bad : Instr) : Instr :=
  match (fnOf w).toNat with
  | 0 => .cvtfi p (rForm w)
  | 1 => .cvtfiN p (rForm w)
  | 2 => .cvtif p (rForm w)
  | 3 => .cvtifN p (rForm w)
  | 4 => .cvtbf p (rForm w)
  | 5 => .cvtfb p (rForm w)
  | 6 => .cvte4 p (rForm w)
  | 7 => .cvte4f p (rForm w)
  | 8 => .cvti4 p (rForm w)
  | _ => bad

/-- Major 0x18 (R85; R113). -/
def decode18 (p : Pfx) (w : Word) (bad : Instr) : Instr :=
  match (fnOf w).toNat with
  | 0 => .shflIdx p (rForm w)
  | 1 => .shflUp p (rForm w)
  | 2 => .shflDown p (rForm w)
  | 3 => .shflXor p (rForm w)
  | _ => bad

/-- Major 0x19 (R85; R114). -/
def decode19 (p : Pfx) (w : Word) (bad : Instr) : Instr :=
  match (fnOf w).toNat with
  | 0 => .radd p (rForm w)
  | 1 => .raddF p (rForm w)
  | 2 => .rmax p (rForm w)
  | 3 => .rmaxN p (rForm w)
  | 4 => .rmaxF p (rForm w)
  | 5 => .rmin p (rForm w)
  | 6 => .rminN p (rForm w)
  | 7 => .rminF p (rForm w)
  | 8 => .scana p (rForm w)
  | 9 => .scanaF p (rForm w)
  | _ => bad

/-- Major 0x1A (R85; R115). -/
def decode1A (p : Pfx) (w : Word) (bad : Instr) : Instr :=
  match (fnOf w).toNat with
  | 0 => .bcast p (rForm w)
  | 1 => .mkl p (rForm w)
  | 2 => .mkg p (rForm w)
  | 3 => .tag p (rForm w)
  | _ => bad

/-- Major 0x1B (R85; R116, R117, R118). -/
def decode1B (p : Pfx) (w : Word) (bad : Instr) : Instr :=
  match (fnOf w).toNat with
  | 0 => .qplane p (rForm w)
  | 1 => .hadx p (rForm w)
  | 2 => .dqx p (rForm w)
  | _ => bad

/-- Major 0x1C (R85; R119). -/
def decode1C (p : Pfx) (w : Word) (bad : Instr) : Instr :=
  match (fnOf w).toNat with
  | 0 => .rand p (rForm w)
  | _ => bad

/-- Major 0x1E (R85; R122). -/
def decode1E (p : Pfx) (w : Word) : Instr := .bra p (bForm w)

/-- Major 0x1F (R85; R122). -/
def decode1F (p : Pfx) (w : Word) : Instr := .brc p (bForm w)

/-- Major 0x20 (R85; R124). -/
def decode20 (p : Pfx) (w : Word) : Instr := .brd p (bForm w)

/-- Major 0x21 (R85; R123). -/
def decode21 (p : Pfx) (w : Word) : Instr := .call p (bForm w)

/-- Major 0x22 (R85; R123, R126, R127). -/
def decode22 (p : Pfx) (w : Word) (bad : Instr) : Instr :=
  match (fnOf w).toNat with
  | 0 => .recon p (rForm w)
  | 1 => .ret p (rForm w)
  | 2 => .jmpr p (rForm w)
  | 3 => .exit p (rForm w)
  | _ => bad

/-- Major 0x23 (R85; R129, R130). -/
def decode23 (p : Pfx) (w : Word) (bad : Instr) : Instr :=
  match (fnOf w).toNat with
  | 0 => .spawn p (rForm w)
  | 1 => .regroup p (rForm w)
  | _ => bad

/-- Major 0x24 (R85; R133). -/
def decode24 (p : Pfx) (w : Word) (bad : Instr) : Instr :=
  match (fnOf w).toNat with
  | 0 => .voteAny p (rForm w)
  | 1 => .voteAll p (rForm w)
  | 2 => .voteBallot p (rForm w)
  | 3 => .voteCount p (rForm w)
  | 4 => .voteRank p (rForm w)
  | 5 => .elect p (rForm w)
  | 6 => .mand p (rForm w)
  | 7 => .mor p (rForm w)
  | 8 => .mxor p (rForm w)
  | 9 => .mnot p (rForm w)
  | 10 => .mmov p (rForm w)
  | 11 => .mpopc p (rForm w)
  | _ => bad

/-- Major 0x25 (R85; R134, R138, R139). -/
def decode25 (p : Pfx) (w : Word) (bad : Instr) : Instr :=
  match (fnOf w).toNat with
  | 0 => .bar p (rForm w)
  | 1 => .bararr p (rForm w)
  | 2 => .barwt p (rForm w)
  | 3 => .cjoin p (rForm w)
  | 4 => .cleave p (rForm w)
  | _ => bad

/-- Major 0x26 (R85; R157, R164). -/
def decode26 (p : Pfx) (w : Word) : Instr :=
  match (mOf w).toNat with
  | 2 => .ldDf p (kForm w)
  | _ => .ld p (mForm w)

/-- Major 0x27 (R85; R158, R164). -/
def decode27 (p : Pfx) (w : Word) : Instr :=
  match (mOf w).toNat with
  | 2 => .lduDf p (kForm w)
  | _ => .ldu p (mForm w)

/-- Major 0x28 (R85; R161, R162). -/
def decode28 (p : Pfx) (w : Word) : Instr :=
  match (w.extractLsb' 22 1).toNat with
  | 0 => .ldx p (aForm w)
  | _ => .ldraw p (aForm w)

/-- Major 0x29 (R85; R159). -/
def decode29 (p : Pfx) (w : Word) : Instr := .st p (mForm w)

/-- Major 0x2A (R85; R167, R169, R170). -/
def decode2A (p : Pfx) (w : Word) (bad : Instr) : Instr :=
  match (mOf w).toNat with
  | 0 => .spld p (kForm w)
  | 1 => .spst p (kForm w)
  | 2 => (match (kOf w).toNat with | 0 => .ldlk p (xForm w) | 1 => .stul p (xForm w) | _ => bad)
  | _ => .spa p (kForm w)

/-- Major 0x2B (R85; R172). -/
def decode2B (p : Pfx) (w : Word) : Instr := .atom p (mForm w)

/-- Major 0x2C (R85; R172). -/
def decode2C (p : Pfx) (w : Word) : Instr := .atomr p (mForm w)

/-- Major 0x2D (R85; R172). -/
def decode2D (p : Pfx) (w : Word) : Instr :=
  match (kOf w).toNat with
  | 0 => .atomXchg p (oForm w)
  | 1 => .atomCas p (oForm w)
  | 2 => .atomrXchg p (oForm w)
  | 3 => .atomrCas p (oForm w)
  | 4 => .atomAdd64 p (oForm w)
  | 5 => .atomrAdd64 p (oForm w)
  | 6 => .atomrXchg64 p (oForm w)
  | _ => .atomrCas64 p (oForm w)

/-- Major 0x2E (R85; R180, R182, R183, R184). -/
def decode2E (p : Pfx) (w : Word) (bad : Instr) : Instr :=
  match (fnOf w).toNat with
  | 0 => .fenceAcq p (rForm w)
  | 1 => .fenceRel p (rForm w)
  | 2 => .fenceAr p (rForm w)
  | 3 => .isync p (rForm w)
  | 4 => .isyncRange p (rForm w)
  | 5 => .hflush p (rForm w)
  | 6 => .pref p (rForm w)
  | _ => bad

/-- Major 0x2F (R85; R186). -/
def decode2F (p : Pfx) (w : Word) (bad : Instr) : Instr :=
  match (w.extractLsb' 22 4).toNat with
  | 0 => .waittl p (eForm w)
  | _ => bad

/-- Major 0x30 (R85; R185, R187, R188). -/
def decode30 (p : Pfx) (w : Word) (bad : Instr) : Instr :=
  match (fnOf w).toNat with
  | 0 => .waitsb p (rForm w)
  | 1 => .rsbq p (rForm w)
  | 2 => .awrd p (rForm w)
  | _ => bad

/-- Major 0x31 (R85; R188). -/
def decode31 (p : Pfx) (w : Word) : Instr := .braw p (wForm w)

/-- Major 0x32 (R85; R191). -/
def decode32 (p : Pfx) (w : Word) (bad : Instr) : Instr :=
  match (kOf w).toNat with
  | 6 => .capld p (oForm w)
  | _ => bad

/-- Major 0x33 (R85; R191). -/
def decode33 (p : Pfx) (w : Word) (bad : Instr) : Instr :=
  match (kOf w).toNat with
  | 6 => .capst p (oForm w)
  | _ => bad

/-- Major 0x34 (R85; R192). -/
def decode34 (p : Pfx) (w : Word) (bad : Instr) : Instr :=
  match (fnOf w).toNat with
  | 0 => .capnar p (rForm w)
  | 1 => .capchk p (rForm w)
  | 2 => .captag p (rForm w)
  | 3 => .capmk p (rForm w)
  | _ => bad

/-- Major 0x36 (R85; R197, R199). -/
def decode36 (p : Pfx) (w : Word) (bad : Instr) : Instr :=
  match (w.extractLsb' 22 4).toNat with
  | 0 => .push p (eForm w)
  | 1 => .pushCore p (eForm w)
  | 2 => .pushDie p (eForm w)
  | 3 => .pushPkg p (eForm w)
  | 4 => .pushq p (eForm w)
  | 5 => .tlrd p (eForm w)
  | _ => bad

/-- Major 0x37 (R85; R222, R223, R224, R225, R226, R227, R228, R229). -/
def decode37 (p : Pfx) (w : Word) (bad : Instr) : Instr :=
  match (fnOf w).toNat with
  | 0 => .kvres p (rForm w)
  | 1 => .kvapp p (rForm w)
  | 2 => .kvpub p (rForm w)
  | 3 => .kvacq p (rForm w)
  | 4 => .kvseal p (rForm w)
  | 5 => .kvg p (rForm w)
  | 6 => .kvqk p (rForm w)
  | 7 => .kvav p (rForm w)
  | 8 => .kvprom p (rForm w)
  | 9 => .kvrm p (rForm w)
  | _ => bad

/-- Major 0x38 (R85; R233). -/
def decode38 (p : Pfx) (w : Word) (bad : Instr) : Instr :=
  match (fnOf w).toNat with
  | 0 => .lqsend p (rForm w)
  | 1 => .lqrecv p (rForm w)
  | 2 => .lqpeek p (rForm w)
  | _ => bad

/-- Major 0x39 (R85; R235, R236, R237, R238). -/
def decode39 (p : Pfx) (w : Word) (bad : Instr) : Instr :=
  match (fnOf w).toNat with
  | 0 => .heaprd p (rForm w)
  | 1 => .sdraw p (rForm w)
  | 2 => .pncommit p (rForm w)
  | 3 => .dlwait p (rForm w)
  | _ => bad

/-- Major 0x3A (R85; R239). -/
def decode3A (p : Pfx) (w : Word) (bad : Instr) : Instr :=
  match (fnOf w).toNat with
  | 0 => .pfmark p (rForm w)
  | 1 => .leaveq p (rForm w)
  | _ => bad

/-- Major 0x3B (R85; R142, R143, R144, R146, R147, R148, R149). -/
def decode3B (p : Pfx) (w : Word) (bad : Instr) : Instr :=
  match (w.extractLsb' 24 2).toNat with
  | 0 => .mfs p (yForm w)
  | 1 => .mts p (yForm w)
  | 2 => (match (w.extractLsb' 14 10).toNat with | 0 => .nop p (fForm w) | 1 => .yield p (fForm w) | 2 => .wbase p (fForm w) | 3 => .trap p (fForm w) | 4 => .tret p (fForm w) | 5 => .svc p (fForm w) | 6 => .tfence p (fForm w) | 7 => .flclr p (fForm w) | 8 => .bkpt p (fForm w) | _ => bad)
  | _ => bad

/-- The instruction of a word under its prefixes (R85). bad names the word as unassigned within its major: cause 2,
but cause 4 when a PFX.I stands before an indexed word whose SB is not 127 (R76) or before a word of major 0x08 (R101). -/
def decodeInstr (p : Pfx) (w : Word) (group : List Word) : Instr :=
  let indexed := [0x26, 0x27, 0x28, 0x29, 0x2A, 0x32, 0x33].contains (opOf w).toNat
  let misused := p.i.isSome && ((indexed && w.extractLsb' 14 7 != 127) || opOf w == 0x08)
  let bad := Instr.illegalWord group (if misused then 4 else 2)
  if w = 0 then .illz p else if w = 0xFFFFFFFF then .ill p else
  match (opOf w).toNat with
  | 1 => decode01 p w bad
  | 2 => decode02 p w
  | 3 => decode03 p w
  | 4 => decode04 p w
  | 5 => decode05 p w
  | 6 => decode06 p w
  | 7 => decode07 p w
  | 8 => decode08 p w bad
  | 9 => decode09 p w
  | 10 => decode0A p w
  | 11 => decode0B p w
  | 12 => decode0C p w bad
  | 13 => decode0D p w
  | 14 => decode0E p w bad
  | 15 => decode0F p w bad
  | 24 => decode18 p w bad
  | 25 => decode19 p w bad
  | 26 => decode1A p w bad
  | 27 => decode1B p w bad
  | 28 => decode1C p w bad
  | 30 => decode1E p w
  | 31 => decode1F p w
  | 32 => decode20 p w
  | 33 => decode21 p w
  | 34 => decode22 p w bad
  | 35 => decode23 p w bad
  | 36 => decode24 p w bad
  | 37 => decode25 p w bad
  | 38 => decode26 p w
  | 39 => decode27 p w
  | 40 => decode28 p w
  | 41 => decode29 p w
  | 42 => decode2A p w bad
  | 43 => decode2B p w
  | 44 => decode2C p w
  | 45 => decode2D p w
  | 46 => decode2E p w bad
  | 47 => decode2F p w bad
  | 48 => decode30 p w bad
  | 49 => decode31 p w
  | 50 => decode32 p w bad
  | 51 => decode33 p w bad
  | 52 => decode34 p w bad
  | 54 => decode36 p w bad
  | 55 => decode37 p w bad
  | 56 => decode38 p w bad
  | 57 => decode39 p w bad
  | 58 => decode3A p w bad
  | 59 => decode3B p w bad
  | _ => .illegalWord group (if p.m.isSome || p.i.isSome then 4 else 1)

/-- A group and how many words it takes (R72). -/
structure Group where
  instr : Instr
  len : Nat
  deriving DecidableEq, Repr

/-- Whether the words taken so far do not yet end the group (R72): each is a prefix that may follow those before it. -/
def moreWords : List Word → Bool
  | [w] => isPfx w
  | [w, v] => isPfx w && !isPfxI w && isPfxI v
  | _ => false

/-- The group that a list of words ending it forms (R72): prefix words, then the instruction; a surplus prefix ends the
group with cause 4. -/
def decodeGroup : List Word → Group
  | [w] => ⟨decodeInstr {} w [w], 1⟩
  | [w, v] =>
    if isPfx v then ⟨.illegalWord [w, v] 4, 2⟩
    else if isPfxI w then ⟨decodeInstr { i := some (w.extractLsb' 0 25) } v [w, v], 2⟩
    else ⟨decodeInstr { m := some (pfxMForm w) } v [w, v], 2⟩
  | w :: v :: u :: _ =>
    if isPfx u then ⟨.illegalWord [w, v, u] 4, 3⟩
    else ⟨decodeInstr { m := some (pfxMForm w), i := some (v.extractLsb' 0 25) } u [w, v, u], 3⟩
  | [] => ⟨.illegalWord [] 1, 1⟩

/-- The words of one group at the head of a list of words. -/
def takeGroup : List Word → Option (List Word)
  | w :: ws =>
    if !moreWords [w] then some [w] else
    match ws with
    | v :: us =>
      if !moreWords [w, v] then some [w, v] else
      match us with
      | u :: _ => some [w, v, u]
      | [] => none
    | [] => none
  | [] => none

/-- A little-endian word from four bytes (R71). -/
def wordOfBytes (b0 b1 b2 b3 : Byte) : Word := b3 ++ b2 ++ b1 ++ b0

/-- The words of a list of bytes; bytes that do not fill a word are left out. -/
def wordsOfBytes : List Byte → List Word
  | b0 :: b1 :: b2 :: b3 :: bs => wordOfBytes b0 b1 b2 b3 :: wordsOfBytes bs
  | _ => []

/-- Why bytes give no group. -/
inductive DecodeError where
  /-- the bytes end before the group does -/
  | truncated
  deriving DecidableEq, Repr

/-- Decoding bytes: the group at their head and the bytes after it, or the name of what is wrong. -/
def decode (bs : List Byte) : Except DecodeError (Group × List Byte) :=
  match takeGroup (wordsOfBytes bs) with
  | some ws => let g := decodeGroup ws; .ok (g, bs.drop (4 * g.len))
  | none => .error .truncated

/-- The bytes of a word, lowest address first (R71). -/
def bytesOfWord (w : Word) : List Byte :=
  [w.extractLsb' 0 8, w.extractLsb' 8 8, w.extractLsb' 16 8, w.extractLsb' 24 8]

/-- n bytes of a number, least significant first. -/
def bytesOfNat : Nat → Nat → List Byte
  | 0, _ => []
  | n + 1, x => BitVec.ofNat 8 x :: bytesOfNat n (x / 256)

/-- The instruction that the decoder reads from nbits bits of the opcode table's numbering, zeros above (three words, the
longest group). -/
def decodeTableWord (nbits w : Nat) : Option Instr :=
  match decode (bytesOfNat 12 (w % 2 ^ nbits)) with
  | .ok (g, _) => some g.instr
  | .error _ => none

/-! ## The encoder -/

/-- R format (R74). -/
def encR (op : BitVec 6) (w : BitVec 1) (fn : BitVec 4) (sb sa d : BitVec 7) : Word := op ++ w ++ fn ++ sb ++ sa ++ d
/-- I format (R75). -/
def encI (op : BitVec 6) (w : BitVec 1) (imm : BitVec 11) (sa d : BitVec 7) : Word := op ++ w ++ imm ++ sa ++ d
/-- M format (R76). -/
def encM (op : BitVec 6) (k : BitVec 3) (o : BitVec 2) (sb sa d : BitVec 7) : Word := op ++ k ++ o ++ sb ++ sa ++ d
/-- B format (R77). -/
def encB (op : BitVec 6) (c mr : BitVec 3) (off : BitVec 20) : Word := op ++ c ++ mr ++ off
/-- BW format (R77). -/
def encW (op p : BitVec 6) (k8 : BitVec 8) (off12 : BitVec 12) : Word := op ++ p ++ k8 ++ off12
/-- E format (R78). -/
def encE (op : BitVec 6) (fn : BitVec 4) (q : BitVec 8) (sa d : BitVec 7) : Word := op ++ fn ++ q ++ sa ++ d
/-- S format (R79). -/
def encS (op : BitVec 6) (grp : BitVec 2) (n : BitVec 10) (sa d : BitVec 7) : Word := op ++ grp ++ n ++ sa ++ d
/-- PFX.M (R80). -/
def encPfxM (m : PfxM) : Word := (0x3D : BitVec 6) ++ (0 : BitVec 1) ++ m.mask ++ m.neg ++ m.scope ++ m.rnd ++ m.aux
/-- PFX.I (R80). -/
def encPfxI (imm : BitVec 25) : Word := (0x3D : BitVec 6) ++ (1 : BitVec 1) ++ imm

/-- The instruction word of an instruction; 0 for a step without an encoding. -/
def Instr.word : Instr → Word
  | .iadd _ f => encR 1 f.w 0 f.sb f.sa f.d
  | .isub _ f => encR 1 f.w 1 f.sb f.sa f.d
  | .imul _ f => encR 1 f.w 2 f.sb f.sa f.d
  | .imulh _ f => encR 1 f.w 3 f.sb f.sa f.d
  | .imulhn _ f => encR 1 f.w 4 f.sb f.sa f.d
  | .imad _ f => encR 1 f.w 5 f.sb f.sa f.d
  | .imin _ f => encR 1 f.w 6 f.sb f.sa f.d
  | .imax _ f => encR 1 f.w 7 f.sb f.sa f.d
  | .iminn _ f => encR 1 f.w 8 f.sb f.sa f.d
  | .imaxn _ f => encR 1 f.w 9 f.sb f.sa f.d
  | .iabs _ f => encR 1 f.w 10 f.sb f.sa f.d
  | .and _ f => encR 2 f.w 0 f.sb f.sa f.d
  | .or _ f => encR 2 f.w 1 f.sb f.sa f.d
  | .xor _ f => encR 2 f.w 2 f.sb f.sa f.d
  | .andn _ f => encR 2 f.w 3 f.sb f.sa f.d
  | .shl _ f => encR 2 f.w 4 f.sb f.sa f.d
  | .shr _ f => encR 2 f.w 5 f.sb f.sa f.d
  | .sar _ f => encR 2 f.w 6 f.sb f.sa f.d
  | .rotl _ f => encR 2 f.w 7 f.sb f.sa f.d
  | .popc _ f => encR 2 f.w 8 f.sb f.sa f.d
  | .clz _ f => encR 2 f.w 9 f.sb f.sa f.d
  | .ctz _ f => encR 2 f.w 10 f.sb f.sa f.d
  | .brev _ f => encR 2 f.w 11 f.sb f.sa f.d
  | .sel _ f => encR 2 f.w 12 f.sb f.sa f.d
  | .bfx _ f => encR 2 f.w 13 f.sb f.sa f.d
  | .bfxs _ f => encR 2 f.w 14 f.sb f.sa f.d
  | .bfi _ f => encR 2 f.w 15 f.sb f.sa f.d
  | .icmp _ c f => encR 3 f.w c f.sb f.sa f.d
  | .iaddi _ f => encI 4 f.w f.imm f.sa f.d
  | .andi _ f => encI 5 f.w f.imm f.sa f.d
  | .ori _ f => encI 6 f.w f.imm f.sa f.d
  | .xori _ f => encI 7 f.w f.imm f.sa f.d
  | .shli _ f => encI 8 f.w (f.hi ++ (0 : BitVec 2) ++ f.cnt) f.sa f.d
  | .shri _ f => encI 8 f.w (f.hi ++ (1 : BitVec 2) ++ f.cnt) f.sa f.d
  | .sari _ f => encI 8 f.w (f.hi ++ (2 : BitVec 2) ++ f.cnt) f.sa f.d
  | .ldi _ f => encI 9 f.w f.imm f.sa f.d
  | .add64 _ f => encR 10 f.w 0 f.sb f.sa f.d
  | .sub64 _ f => encR 10 f.w 1 f.sb f.sa f.d
  | .mad64 _ f => encR 10 f.w 2 f.sb f.sa f.d
  | .cmp64 _ c f => encR 10 f.w (c + 3) f.sb f.sa f.d
  | .add64i _ f => encI 11 f.w f.imm f.sa f.d
  | .fadd _ f => encR 12 f.w 0 f.sb f.sa f.d
  | .fsub _ f => encR 12 f.w 1 f.sb f.sa f.d
  | .fmul _ f => encR 12 f.w 2 f.sb f.sa f.d
  | .ffma _ f => encR 12 f.w 3 f.sb f.sa f.d
  | .fmin _ f => encR 12 f.w 4 f.sb f.sa f.d
  | .fmax _ f => encR 12 f.w 5 f.sb f.sa f.d
  | .fabs _ f => encR 12 f.w 6 f.sb f.sa f.d
  | .fneg _ f => encR 12 f.w 7 f.sb f.sa f.d
  | .fclass _ f => encR 12 f.w 8 f.sb f.sa f.d
  | .frnd _ f => encR 12 f.w 9 f.sb f.sa f.d
  | .fscale _ f => encR 12 f.w 10 f.sb f.sa f.d
  | .fcmp _ c f => encR 13 f.w c f.sb f.sa f.d
  | .frcp _ f => encR 14 f.w 0 f.sb f.sa f.d
  | .frsq _ f => encR 14 f.w 1 f.sb f.sa f.d
  | .fsqrt _ f => encR 14 f.w 2 f.sb f.sa f.d
  | .fexp2 _ f => encR 14 f.w 3 f.sb f.sa f.d
  | .flog2 _ f => encR 14 f.w 4 f.sb f.sa f.d
  | .ftanh _ f => encR 14 f.w 5 f.sb f.sa f.d
  | .fsigm _ f => encR 14 f.w 6 f.sb f.sa f.d
  | .cvtfi _ f => encR 15 f.w 0 f.sb f.sa f.d
  | .cvtfiN _ f => encR 15 f.w 1 f.sb f.sa f.d
  | .cvtif _ f => encR 15 f.w 2 f.sb f.sa f.d
  | .cvtifN _ f => encR 15 f.w 3 f.sb f.sa f.d
  | .cvtbf _ f => encR 15 f.w 4 f.sb f.sa f.d
  | .cvtfb _ f => encR 15 f.w 5 f.sb f.sa f.d
  | .cvte4 _ f => encR 15 f.w 6 f.sb f.sa f.d
  | .cvte4f _ f => encR 15 f.w 7 f.sb f.sa f.d
  | .cvti4 _ f => encR 15 f.w 8 f.sb f.sa f.d
  | .shflIdx _ f => encR 24 f.w 0 f.sb f.sa f.d
  | .shflUp _ f => encR 24 f.w 1 f.sb f.sa f.d
  | .shflDown _ f => encR 24 f.w 2 f.sb f.sa f.d
  | .shflXor _ f => encR 24 f.w 3 f.sb f.sa f.d
  | .radd _ f => encR 25 f.w 0 f.sb f.sa f.d
  | .raddF _ f => encR 25 f.w 1 f.sb f.sa f.d
  | .rmax _ f => encR 25 f.w 2 f.sb f.sa f.d
  | .rmaxN _ f => encR 25 f.w 3 f.sb f.sa f.d
  | .rmaxF _ f => encR 25 f.w 4 f.sb f.sa f.d
  | .rmin _ f => encR 25 f.w 5 f.sb f.sa f.d
  | .rminN _ f => encR 25 f.w 6 f.sb f.sa f.d
  | .rminF _ f => encR 25 f.w 7 f.sb f.sa f.d
  | .scana _ f => encR 25 f.w 8 f.sb f.sa f.d
  | .scanaF _ f => encR 25 f.w 9 f.sb f.sa f.d
  | .bcast _ f => encR 26 f.w 0 f.sb f.sa f.d
  | .mkl _ f => encR 26 f.w 1 f.sb f.sa f.d
  | .mkg _ f => encR 26 f.w 2 f.sb f.sa f.d
  | .tag _ f => encR 26 f.w 3 f.sb f.sa f.d
  | .qplane _ f => encR 27 f.w 0 f.sb f.sa f.d
  | .hadx _ f => encR 27 f.w 1 f.sb f.sa f.d
  | .dqx _ f => encR 27 f.w 2 f.sb f.sa f.d
  | .rand _ f => encR 28 f.w 0 f.sb f.sa f.d
  | .bra _ f => encB 30 f.c f.mr f.off
  | .brc _ f => encB 31 f.c f.mr f.off
  | .brd _ f => encB 32 f.c f.mr f.off
  | .call _ f => encB 33 f.c f.mr f.off
  | .recon _ f => encR 34 f.w 0 f.sb f.sa f.d
  | .ret _ f => encR 34 f.w 1 f.sb f.sa f.d
  | .jmpr _ f => encR 34 f.w 2 f.sb f.sa f.d
  | .exit _ f => encR 34 f.w 3 f.sb f.sa f.d
  | .spawn _ f => encR 35 f.w 0 f.sb f.sa f.d
  | .regroup _ f => encR 35 f.w 1 f.sb f.sa f.d
  | .voteAny _ f => encR 36 f.w 0 f.sb f.sa f.d
  | .voteAll _ f => encR 36 f.w 1 f.sb f.sa f.d
  | .voteBallot _ f => encR 36 f.w 2 f.sb f.sa f.d
  | .voteCount _ f => encR 36 f.w 3 f.sb f.sa f.d
  | .voteRank _ f => encR 36 f.w 4 f.sb f.sa f.d
  | .elect _ f => encR 36 f.w 5 f.sb f.sa f.d
  | .mand _ f => encR 36 f.w 6 f.sb f.sa f.d
  | .mor _ f => encR 36 f.w 7 f.sb f.sa f.d
  | .mxor _ f => encR 36 f.w 8 f.sb f.sa f.d
  | .mnot _ f => encR 36 f.w 9 f.sb f.sa f.d
  | .mmov _ f => encR 36 f.w 10 f.sb f.sa f.d
  | .mpopc _ f => encR 36 f.w 11 f.sb f.sa f.d
  | .bar _ f => encR 37 f.w 0 f.sb f.sa f.d
  | .bararr _ f => encR 37 f.w 1 f.sb f.sa f.d
  | .barwt _ f => encR 37 f.w 2 f.sb f.sa f.d
  | .cjoin _ f => encR 37 f.w 3 f.sb f.sa f.d
  | .cleave _ f => encR 37 f.w 4 f.sb f.sa f.d
  | .ld _ f => encM 38 f.k f.o f.sb f.sa f.d
  | .ldDf _ f => encM 38 f.k 2 f.sb f.sa f.d
  | .ldu _ f => encM 39 f.k f.o f.sb f.sa f.d
  | .lduDf _ f => encM 39 f.k 2 f.sb f.sa f.d
  | .ldx _ f => encM 40 f.k ((0 : BitVec 1) ++ f.acq) f.sb f.sa f.d
  | .ldraw _ f => encM 40 f.k ((1 : BitVec 1) ++ f.acq) f.sb f.sa f.d
  | .st _ f => encM 41 f.k f.o f.sb f.sa f.d
  | .spld _ f => encM 42 f.k 0 f.sb f.sa f.d
  | .spst _ f => encM 42 f.k 1 f.sb f.sa f.d
  | .ldlk _ f => encM 42 0 2 f.sb f.sa f.d
  | .stul _ f => encM 42 1 2 f.sb f.sa f.d
  | .spa _ f => encM 42 f.k 3 f.sb f.sa f.d
  | .atom _ f => encM 43 f.k f.o f.sb f.sa f.d
  | .atomr _ f => encM 44 f.k f.o f.sb f.sa f.d
  | .atomXchg _ f => encM 45 0 f.o f.sb f.sa f.d
  | .atomCas _ f => encM 45 1 f.o f.sb f.sa f.d
  | .atomrXchg _ f => encM 45 2 f.o f.sb f.sa f.d
  | .atomrCas _ f => encM 45 3 f.o f.sb f.sa f.d
  | .atomAdd64 _ f => encM 45 4 f.o f.sb f.sa f.d
  | .atomrAdd64 _ f => encM 45 5 f.o f.sb f.sa f.d
  | .atomrXchg64 _ f => encM 45 6 f.o f.sb f.sa f.d
  | .atomrCas64 _ f => encM 45 7 f.o f.sb f.sa f.d
  | .fenceAcq _ f => encR 46 f.w 0 f.sb f.sa f.d
  | .fenceRel _ f => encR 46 f.w 1 f.sb f.sa f.d
  | .fenceAr _ f => encR 46 f.w 2 f.sb f.sa f.d
  | .isync _ f => encR 46 f.w 3 f.sb f.sa f.d
  | .isyncRange _ f => encR 46 f.w 4 f.sb f.sa f.d
  | .hflush _ f => encR 46 f.w 5 f.sb f.sa f.d
  | .pref _ f => encR 46 f.w 6 f.sb f.sa f.d
  | .waittl _ f => encE 47 0 f.q f.sa f.d
  | .waitsb _ f => encR 48 f.w 0 f.sb f.sa f.d
  | .rsbq _ f => encR 48 f.w 1 f.sb f.sa f.d
  | .awrd _ f => encR 48 f.w 2 f.sb f.sa f.d
  | .braw _ f => encW 49 f.p f.k8 f.off12
  | .capld _ f => encM 50 6 f.o f.sb f.sa f.d
  | .capst _ f => encM 51 6 f.o f.sb f.sa f.d
  | .capnar _ f => encR 52 f.w 0 f.sb f.sa f.d
  | .capchk _ f => encR 52 f.w 1 f.sb f.sa f.d
  | .captag _ f => encR 52 f.w 2 f.sb f.sa f.d
  | .capmk _ f => encR 52 f.w 3 f.sb f.sa f.d
  | .push _ f => encE 54 0 f.q f.sa f.d
  | .pushCore _ f => encE 54 1 f.q f.sa f.d
  | .pushDie _ f => encE 54 2 f.q f.sa f.d
  | .pushPkg _ f => encE 54 3 f.q f.sa f.d
  | .pushq _ f => encE 54 4 f.q f.sa f.d
  | .tlrd _ f => encE 54 5 f.q f.sa f.d
  | .kvres _ f => encR 55 f.w 0 f.sb f.sa f.d
  | .kvapp _ f => encR 55 f.w 1 f.sb f.sa f.d
  | .kvpub _ f => encR 55 f.w 2 f.sb f.sa f.d
  | .kvacq _ f => encR 55 f.w 3 f.sb f.sa f.d
  | .kvseal _ f => encR 55 f.w 4 f.sb f.sa f.d
  | .kvg _ f => encR 55 f.w 5 f.sb f.sa f.d
  | .kvqk _ f => encR 55 f.w 6 f.sb f.sa f.d
  | .kvav _ f => encR 55 f.w 7 f.sb f.sa f.d
  | .kvprom _ f => encR 55 f.w 8 f.sb f.sa f.d
  | .kvrm _ f => encR 55 f.w 9 f.sb f.sa f.d
  | .lqsend _ f => encR 56 f.w 0 f.sb f.sa f.d
  | .lqrecv _ f => encR 56 f.w 1 f.sb f.sa f.d
  | .lqpeek _ f => encR 56 f.w 2 f.sb f.sa f.d
  | .heaprd _ f => encR 57 f.w 0 f.sb f.sa f.d
  | .sdraw _ f => encR 57 f.w 1 f.sb f.sa f.d
  | .pncommit _ f => encR 57 f.w 2 f.sb f.sa f.d
  | .dlwait _ f => encR 57 f.w 3 f.sb f.sa f.d
  | .pfmark _ f => encR 58 f.w 0 f.sb f.sa f.d
  | .leaveq _ f => encR 58 f.w 1 f.sb f.sa f.d
  | .mfs _ f => encS 59 0 f.off f.sa f.d
  | .mts _ f => encS 59 1 f.off f.sa f.d
  | .nop _ f => encS 59 2 0 f.sa f.d
  | .yield _ f => encS 59 2 1 f.sa f.d
  | .wbase _ f => encS 59 2 2 f.sa f.d
  | .trap _ f => encS 59 2 3 f.sa f.d
  | .tret _ f => encS 59 2 4 f.sa f.d
  | .svc _ f => encS 59 2 5 f.sa f.d
  | .tfence _ f => encS 59 2 6 f.sa f.d
  | .flclr _ f => encS 59 2 7 f.sa f.d
  | .bkpt _ f => encS 59 2 8 f.sa f.d
  | .illz _ => 0
  | .ill _ => 0xFFFFFFFF
  | .gustRetire _ => 0
  | .driftArrival _ _ => 0
  | .loadReply _ _ => 0
  | .postedCompletion _ _ => 0
  | .trapEntry _ _ _ => 0
  | .pendingEntryComplete _ => 0
  | .wcAgeDrain _ _ => 0
  | .allowanceRefill => 0
  | .ackReceive => 0
  | .requestPacketReceive => 0
  | .incarnationNotice => 0
  | .requestTimeout => 0
  | .planeFail => 0
  | .quiesceNotice => 0
  | .remapWrite => 0
  | .dommaskWrite => 0
  | .dropincRead => 0
  | .lqownWrite => 0
  | .lqEntryArrival => 0
  | .commandStart _ => 0
  | .leaveGrant _ => 0
  | .governorInterval => 0
  | .taskIssue _ => 0
  | .maskHoldRelease _ _ => 0
  | .maskDeadline _ _ => 0
  | .dlwaitDeadline _ _ => 0
  | .commandComplete _ _ => 0
  | .mxtask _ _ => 0
  | .mxconv _ _ => 0
  | .cpy _ _ => 0
  | .cpy2d _ _ => 0
  | .gather _ _ => 0
  | .scatter _ _ => 0
  | .fill _ _ => 0
  | .reqnt _ _ => 0
  | .xpose _ _ => 0
  | .hostfl _ _ => 0
  | .ringx _ _ => 0
  | .lqfwd _ _ => 0
  | .migrate _ _ => 0
  | .graphpost _ _ => 0
  | .oldestAdvance _ _ => 0
  | .prefetchRecord _ => 0
  | .prefetchDeadline _ => 0
  | .poolPop _ _ => 0
  | .poolPush => 0
  | .scheduleTick => 0
  | .scheduleEntryWrite => 0
  | .slotEnd _ => 0
  | .spillContext _ => 0
  | .frontCreate => 0
  | .gustPlace => 0
  | .frontComplete _ => 0
  | .bar4Access => 0
  | .hostWindowAccess => 0
  | .preset => 0
  | .watchdogExpire => 0
  | .powerOn => 0
  | .pcieFundamentalReset => 0
  | .pcieHotReset => 0
  | .vfFlr => 0
  | .pfFlr => 0
  | .thermalTrip => 0
  | .supplyFaultTrip => 0
  | .securityViolation => 0
  | .fatalInternalError => 0
  | .hbmEccError => 0
  | .hbfReadError => 0
  | .coreSramError => 0
  | .dieLinkError => 0
  | .pcieLinkError => 0
  | .ptpSync => 0
  | .ptpHoldover => 0
  | .dbgacc => 0
  | .dbgenWrite => 0
  | .dbgTargetWrite => 0
  | .dbgstatWrite => 0
  | .haltFront => 0
  | .resumeFront => 0
  | .stepGust => 0
  | .readWindowWord => 0
  | .writeWindowWord => 0
  | .resetPartition => 0
  | .resetPackage => 0
  | .drainFront => 0
  | .instgo => 0
  | .attgo => 0
  | .attParamWrite => 0
  | .feataccWrite => 0
  | .registerWrite => 0
  | .illegalWord ws _ => ws.getLastD 0
  | .fetchFault _ _ _ => 0
  | .receivedCountReport => 0
  | .remapAnswerTimeout => 0
  | .supplyRailRecovery => 0
  | .thermalTripRecovery => 0
  | .installationComplete => 0
  | .attestationReportWritten => 0

/-- The prefix words of an instruction. -/
def Instr.pfx : Instr → Pfx
  | .iadd p _ => p
  | .isub p _ => p
  | .imul p _ => p
  | .imulh p _ => p
  | .imulhn p _ => p
  | .imad p _ => p
  | .imin p _ => p
  | .imax p _ => p
  | .iminn p _ => p
  | .imaxn p _ => p
  | .iabs p _ => p
  | .and p _ => p
  | .or p _ => p
  | .xor p _ => p
  | .andn p _ => p
  | .shl p _ => p
  | .shr p _ => p
  | .sar p _ => p
  | .rotl p _ => p
  | .popc p _ => p
  | .clz p _ => p
  | .ctz p _ => p
  | .brev p _ => p
  | .sel p _ => p
  | .bfx p _ => p
  | .bfxs p _ => p
  | .bfi p _ => p
  | .icmp p _ _ => p
  | .iaddi p _ => p
  | .andi p _ => p
  | .ori p _ => p
  | .xori p _ => p
  | .shli p _ => p
  | .shri p _ => p
  | .sari p _ => p
  | .ldi p _ => p
  | .add64 p _ => p
  | .sub64 p _ => p
  | .mad64 p _ => p
  | .cmp64 p _ _ => p
  | .add64i p _ => p
  | .fadd p _ => p
  | .fsub p _ => p
  | .fmul p _ => p
  | .ffma p _ => p
  | .fmin p _ => p
  | .fmax p _ => p
  | .fabs p _ => p
  | .fneg p _ => p
  | .fclass p _ => p
  | .frnd p _ => p
  | .fscale p _ => p
  | .fcmp p _ _ => p
  | .frcp p _ => p
  | .frsq p _ => p
  | .fsqrt p _ => p
  | .fexp2 p _ => p
  | .flog2 p _ => p
  | .ftanh p _ => p
  | .fsigm p _ => p
  | .cvtfi p _ => p
  | .cvtfiN p _ => p
  | .cvtif p _ => p
  | .cvtifN p _ => p
  | .cvtbf p _ => p
  | .cvtfb p _ => p
  | .cvte4 p _ => p
  | .cvte4f p _ => p
  | .cvti4 p _ => p
  | .shflIdx p _ => p
  | .shflUp p _ => p
  | .shflDown p _ => p
  | .shflXor p _ => p
  | .radd p _ => p
  | .raddF p _ => p
  | .rmax p _ => p
  | .rmaxN p _ => p
  | .rmaxF p _ => p
  | .rmin p _ => p
  | .rminN p _ => p
  | .rminF p _ => p
  | .scana p _ => p
  | .scanaF p _ => p
  | .bcast p _ => p
  | .mkl p _ => p
  | .mkg p _ => p
  | .tag p _ => p
  | .qplane p _ => p
  | .hadx p _ => p
  | .dqx p _ => p
  | .rand p _ => p
  | .bra p _ => p
  | .brc p _ => p
  | .brd p _ => p
  | .call p _ => p
  | .recon p _ => p
  | .ret p _ => p
  | .jmpr p _ => p
  | .exit p _ => p
  | .spawn p _ => p
  | .regroup p _ => p
  | .voteAny p _ => p
  | .voteAll p _ => p
  | .voteBallot p _ => p
  | .voteCount p _ => p
  | .voteRank p _ => p
  | .elect p _ => p
  | .mand p _ => p
  | .mor p _ => p
  | .mxor p _ => p
  | .mnot p _ => p
  | .mmov p _ => p
  | .mpopc p _ => p
  | .bar p _ => p
  | .bararr p _ => p
  | .barwt p _ => p
  | .cjoin p _ => p
  | .cleave p _ => p
  | .ld p _ => p
  | .ldDf p _ => p
  | .ldu p _ => p
  | .lduDf p _ => p
  | .ldx p _ => p
  | .ldraw p _ => p
  | .st p _ => p
  | .spld p _ => p
  | .spst p _ => p
  | .ldlk p _ => p
  | .stul p _ => p
  | .spa p _ => p
  | .atom p _ => p
  | .atomr p _ => p
  | .atomXchg p _ => p
  | .atomCas p _ => p
  | .atomrXchg p _ => p
  | .atomrCas p _ => p
  | .atomAdd64 p _ => p
  | .atomrAdd64 p _ => p
  | .atomrXchg64 p _ => p
  | .atomrCas64 p _ => p
  | .fenceAcq p _ => p
  | .fenceRel p _ => p
  | .fenceAr p _ => p
  | .isync p _ => p
  | .isyncRange p _ => p
  | .hflush p _ => p
  | .pref p _ => p
  | .waittl p _ => p
  | .waitsb p _ => p
  | .rsbq p _ => p
  | .awrd p _ => p
  | .braw p _ => p
  | .capld p _ => p
  | .capst p _ => p
  | .capnar p _ => p
  | .capchk p _ => p
  | .captag p _ => p
  | .capmk p _ => p
  | .push p _ => p
  | .pushCore p _ => p
  | .pushDie p _ => p
  | .pushPkg p _ => p
  | .pushq p _ => p
  | .tlrd p _ => p
  | .kvres p _ => p
  | .kvapp p _ => p
  | .kvpub p _ => p
  | .kvacq p _ => p
  | .kvseal p _ => p
  | .kvg p _ => p
  | .kvqk p _ => p
  | .kvav p _ => p
  | .kvprom p _ => p
  | .kvrm p _ => p
  | .lqsend p _ => p
  | .lqrecv p _ => p
  | .lqpeek p _ => p
  | .heaprd p _ => p
  | .sdraw p _ => p
  | .pncommit p _ => p
  | .dlwait p _ => p
  | .pfmark p _ => p
  | .leaveq p _ => p
  | .mfs p _ => p
  | .mts p _ => p
  | .nop p _ => p
  | .yield p _ => p
  | .wbase p _ => p
  | .trap p _ => p
  | .tret p _ => p
  | .svc p _ => p
  | .tfence p _ => p
  | .flclr p _ => p
  | .bkpt p _ => p
  | .illz p => p
  | .ill p => p
  | .gustRetire _ => {}
  | .driftArrival _ _ => {}
  | .loadReply _ _ => {}
  | .postedCompletion _ _ => {}
  | .trapEntry _ _ _ => {}
  | .pendingEntryComplete _ => {}
  | .wcAgeDrain _ _ => {}
  | .allowanceRefill => {}
  | .ackReceive => {}
  | .requestPacketReceive => {}
  | .incarnationNotice => {}
  | .requestTimeout => {}
  | .planeFail => {}
  | .quiesceNotice => {}
  | .remapWrite => {}
  | .dommaskWrite => {}
  | .dropincRead => {}
  | .lqownWrite => {}
  | .lqEntryArrival => {}
  | .commandStart _ => {}
  | .leaveGrant _ => {}
  | .governorInterval => {}
  | .taskIssue _ => {}
  | .maskHoldRelease _ _ => {}
  | .maskDeadline _ _ => {}
  | .dlwaitDeadline _ _ => {}
  | .commandComplete _ _ => {}
  | .mxtask _ _ => {}
  | .mxconv _ _ => {}
  | .cpy _ _ => {}
  | .cpy2d _ _ => {}
  | .gather _ _ => {}
  | .scatter _ _ => {}
  | .fill _ _ => {}
  | .reqnt _ _ => {}
  | .xpose _ _ => {}
  | .hostfl _ _ => {}
  | .ringx _ _ => {}
  | .lqfwd _ _ => {}
  | .migrate _ _ => {}
  | .graphpost _ _ => {}
  | .oldestAdvance _ _ => {}
  | .prefetchRecord _ => {}
  | .prefetchDeadline _ => {}
  | .poolPop _ _ => {}
  | .poolPush => {}
  | .scheduleTick => {}
  | .scheduleEntryWrite => {}
  | .slotEnd _ => {}
  | .spillContext _ => {}
  | .frontCreate => {}
  | .gustPlace => {}
  | .frontComplete _ => {}
  | .bar4Access => {}
  | .hostWindowAccess => {}
  | .preset => {}
  | .watchdogExpire => {}
  | .powerOn => {}
  | .pcieFundamentalReset => {}
  | .pcieHotReset => {}
  | .vfFlr => {}
  | .pfFlr => {}
  | .thermalTrip => {}
  | .supplyFaultTrip => {}
  | .securityViolation => {}
  | .fatalInternalError => {}
  | .hbmEccError => {}
  | .hbfReadError => {}
  | .coreSramError => {}
  | .dieLinkError => {}
  | .pcieLinkError => {}
  | .ptpSync => {}
  | .ptpHoldover => {}
  | .dbgacc => {}
  | .dbgenWrite => {}
  | .dbgTargetWrite => {}
  | .dbgstatWrite => {}
  | .haltFront => {}
  | .resumeFront => {}
  | .stepGust => {}
  | .readWindowWord => {}
  | .writeWindowWord => {}
  | .resetPartition => {}
  | .resetPackage => {}
  | .drainFront => {}
  | .instgo => {}
  | .attgo => {}
  | .attParamWrite => {}
  | .feataccWrite => {}
  | .registerWrite => {}
  | .illegalWord _ _ => {}
  | .fetchFault _ _ _ => {}
  | .receivedCountReport => {}
  | .remapAnswerTimeout => {}
  | .supplyRailRecovery => {}
  | .thermalTripRecovery => {}
  | .installationComplete => {}
  | .attestationReportWritten => {}

/-- The prefix words of a group, PFX.M first (R72). -/
def Pfx.words (p : Pfx) : List Word :=
  (match p.m with | some m => [encPfxM m] | none => []) ++ (match p.i with | some i => [encPfxI i] | none => [])

/-- The words of an instruction's group. -/
def encode (i : Instr) : List Word := i.pfx.words ++ [i.word]

end Sys2Proof
end

