-- ==== Sys2Proof/Machine/Fetch.lean ====
section
/-! DEFINITION. Instruction fetch (spec/03 R71, R72, spec/13 R358, spec/09 R279): translation with the X permission, the
instruction cache of the core and the prefetched words of the gust. -/

namespace Sys2Proof.Machine

/-- The bytes of a 32-byte block of memory. -/
def State.blockOf (s : State) (blk : Nat) : List Byte := memGetBytes s.mem (blk * 32) 32

/-- Where the bytes of a fetched block come from (R182, R279). -/
inductive CodeFrom where
  /-- the gust's prefetched words -/
  | gust
  /-- the core's instruction cache -/
  | cache
  /-- memory -/
  | memory
  deriving DecidableEq, Repr

/-- A fetched block in the gust's prefetched words, in the instruction cache when memory gave it, and as the block that slot
b executes. -/
def State.fillBlock (s : State) (k : Nat) (b : Bool) (g : Gust) (blk : Nat) (src : CodeFrom) (bs : List Byte) : State :=
  let c := s.core (coreOf k)
  let s1 := if src = .memory then s.setCore (coreOf k) { c with icache := tabSet c.icache blk bs } else s
  s1.setGust k (Gust.setSlot { g with prefetch := tabSet g.prefetch blk bs } b { g.slot b with blk := some blk })

/-- A free choice between two sources of a block when their bytes differ (log 6). -/
def State.chooseCode (s : State) (x y : CodeFrom × List Byte) : State × CodeFrom × List Byte :=
  if x.2 = y.2 then (s, x)
  else
    let (b, s1) := s.freshBool
    (s1, if b then x else y)

/-- The 32 bytes that a fetch takes for a block (R182, R279): words prefetched by the gust or held by the core's
instruction cache may be older than memory, and which it takes is a free choice. A block that a slot of the gust executes
stays as it was taken, so that it is never a mixture. -/
def State.fetchBlock (s : State) (k : Nat) (b : Bool) (g : Gust) (blk : Nat) : State × List Byte :=
  let now := s.blockOf blk
  let outer :=
    match tabGet? (s.core (coreOf k)).icache blk with
    | some q => s.chooseCode (.cache, q) (.memory, now)
    | none => (s, .memory, now)
  let r :=
    match tabGet? g.prefetch blk with
    | some p =>
      if g.a.blk = some blk ∨ g.b.blk = some blk then (s, CodeFrom.gust, p)
      else outer.1.chooseCode (.gust, p) outer.2
    | none => outer
  (r.1.fillBlock k b g blk r.2.1 r.2.2, r.2.2)

/-- Fetches one word (R72, R358): the word, with whether its page needs a feature that is not accepted (R393), or the fault
that it meets. -/
def State.fetchWord (s : State) (k : Nat) (b : Bool) (va : Nat) : State × Except (Nat × Nat) (Word × Bool) :=
  match s.gust? k with
  | none => (s, .error (0x08, 2))
  | some g =>
    let fr := s.frontOf g
    match s.translate (coreOf k) fr.part fr.asid va with
    | (s1, none) => (s1, .error (0x08, 2))
    | (s1, some x) =>
      let d := x.domain va
      if x.mig = 2 then (s1, .error (0x08, 3))
      else if !x.x then (s1, .error (0x09, 9))
      else if s1.poisoned d 4 then (s1, .error (0x0B, 3))
      else
        let (s2, bs) := s1.fetchBlock k b g (d / 32)
        (s2, .ok (BitVec.ofNat 32 (natOfBytes ((bs.drop (d % 32)).take 4)), s1.lacksFeature x))

/-- Fetches a group word by word (R72): its words, with whether a page of one needs a feature that is not accepted, or the
fault and the address of the word that could not be fetched. -/
def State.fetchGroup (s : State) (k : Nat) (b : Bool) (pc : BitVec 56) : Nat → List Word → Bool →
    State × Except (Nat × Nat × BitVec 56) (List Word × Bool)
  | 0, ws, lacks => (s, .ok (ws, lacks))
  | n + 1, ws, lacks =>
    let va := pc + BitVec.ofNat 56 (4 * ws.length)
    match s.fetchWord k b va.toNat with
    | (s1, .error (code, cause)) => (s1, .error (code, cause, va))
    | (s1, .ok (w, l)) =>
      let ws1 := ws ++ [w]
      if moreWords ws1 then s1.fetchGroup k b pc n ws1 (lacks || l) else (s1, .ok (ws1, lacks || l))

/-- The instruction that fetched words give a gust: that of the words, or FLT.ILLEGAL cause 7, the last of its causes (R90),
when a page of theirs needs a feature that is not accepted (R393, logs 15 and 57). -/
def State.groupInstr (s : State) (g : Gust) (b : Bool) (ws : List Word) (lacks : Bool) : Instr :=
  let i := (decodeGroup ws).instr
  if lacks && (illegalCause i s g).isNone then .fetchFault 0x01 7 ((g.slot b).pc.zeroExtend 64) else i

/-- The instruction at a slot's PC (R71, R72): a fetch fault comes before every other fault (R359). -/
def State.fetchInstr (s : State) (k : Nat) (b : Bool) : State × Instr :=
  match s.gust? k with
  | none => (s, .illegalWord [] 1)
  | some g =>
    match s.fetchGroup k b (g.slot b).pc 3 [] false with
    | (s1, .ok (ws, lacks)) => (s1, s1.groupInstr g b ws lacks)
    | (s1, .error (code, cause, va)) => (s1, .fetchFault code cause (va.zeroExtend 64))

end Sys2Proof.Machine
end

