-- ==== Sys2Proof/Machine/Sampling.lean ====
section
/-! DEFINITION. HEAPRD, SDRAW, PNCOMMIT and DLWAIT (spec/07 R234 to R238). -/

namespace Sys2Proof.Machine

/-! ## HEAPRD (R235) -/

/-- The RoundNE sum, in ranking order, of the weights of a heap's pairs (R235). -/
def Heap.weight (h : Heap) : Word := h.pairs.foldl (fun acc p => addNE acc (expDiff p.1 h.m)) 0

/-- The status bits that HEAPRD reports (R235): those of the unit with bits 0 and 1 as its counts give them. -/
def Heap.report (h : Heap) : Nat :=
  h.status
    ||| (if 256 < h.seen ∧ (h.topk = 0 ∨ 256 < h.topk) then 1 else 0)
    ||| (if (fpCond 2 h.topp 0x3F800000).1 && (fpCond 2 h.weight (mulNE h.topp h.s)).1 then 2 else 0)

/-- The list that HEAPRD writes (R235). -/
def Heap.list (h : Heap) : List Byte :=
  bytesOf 4 h.pairs.length ++ bytesOf 4 h.report ++ bytesOf 4 h.m.toNat ++ bytesOf 4 h.s.toNat
    ++ h.pairs.flatMap fun p => bytesOf 4 p.1.toNat ++ bytesOf 4 p.2

/-- HEAPRD (R235). -/
def heaprdBody (f : RForm) : Body := undriftedActive fun c s =>
  if c.wm = 0 then .ok { s := s }
  else if s.heapBusy s.curCore f.sa.toNat then .error (.wait s (.heap f.sa.toNat))
  else
    let h := (s.core s.curCore).heaps.getD f.sa.toNat {}
    let a := (c.rd f.sb c.low).toNat
    match c.spOperand s 16 (16 + 8 * h.pairs.length) a with
    | some e => .error e
    | none =>
      if !(c.resultFits [(f.d.toNat, .u 0)]) then .error (c.fault s 0x04 0)
      else putU c (c.spStore s a h.list) f.d (h.pairs.length + 2 ^ 16 * h.report) .shift
/-- HEAPRD (R235). -/
def execHeaprd (p : Pfx) (f : RForm) (s : State) : Outcome := runGroup (.heaprd p f) s (heaprdBody f)

/-! ## SDRAW (R236) -/

/-- The parameters of SDRAW (R236). -/
structure DrawParams where
  temp : Word
  topp : Word
  minp : Word
  topk : Nat
  deriving DecidableEq, Repr

/-- The parameter block that 16 bytes hold (R236). -/
def drawParams (bs : List Byte) : DrawParams :=
  { temp := BitVec.ofNat 32 (cmdField bs 0 4), topp := BitVec.ofNat 32 (cmdField bs 4 4),
    minp := BitVec.ofNat 32 (cmdField bs 8 4), topk := cmdField bs 12 4 }

/-- Running RoundNE sums of weights: (token, sum) pairs (R236). -/
def runningSums : List (Nat × Word) → Word → Bool → List (Nat × Word)
  | [], _, _ => []
  | (t, w) :: xs, acc, first =>
    let c := if first then w else addNE acc w
    (t, c) :: runningSums xs c false

/-- The entries of a running sum up to and including the first that p admits; all of them when none is. -/
def upToFirst (p : Word → Bool) : List (Nat × Word) → List (Nat × Word)
  | [] => []
  | e :: es => if p e.2 then [e] else e :: upToFirst p es

/-- Whether SDRAW refuses its inputs (R236). -/
def drawRefused (n : Nat) (u temp : Word) : Bool :=
  n == 0 || decide (256 < n)
    || isNaN u || (fpCond 2 u 0).1 || (fpCond 5 u 0x3F800000).1
    || (fpCond 2 temp 0).1 || isNaN temp || fpAbs temp == 0x7F800000

/-- The token that SDRAW draws from entries (x, t) (R236). -/
def draw (xs : List (Word × Nat)) (u : Word) (p : DrawParams) : Nat :=
  match xs with
  | [] => 0xFFFFFFFF
  | (v0, t0) :: _ =>
    if fpAbs p.temp = 0 then t0
    else
      let k := if p.topk = 0 then xs.length else min xs.length p.topk
      let x0 := divNE v0 p.temp
      let ws := xs.map fun e =>
        let w := expDiff (divNE e.1 p.temp) x0
        (e.2, if isNaN w then (0 : Word) else w)
      let kept := ws.take 1 ++ ((ws.take k).drop 1).filter fun e => (fpCond 5 e.2 p.minp).1
      let cs := runningSums kept 0 true
      let last := ((cs.getLast?).map fun e => e.2).getD 0
      let js := upToFirst (fun c => (fpCond 5 c (mulNE p.topp last)).1) cs
      let cj := ((js.getLast?).map fun e => e.2).getD 0
      let r := mulNE u cj
      match js.find? fun e => (fpCond 4 e.2 r).1 with
      | some e => e.1
      | none => ((js.getLast?).map fun e => e.1).getD t0

/-- SDRAW (R236). -/
def sdrawBody (f : RForm) : Body := undriftedActive fun c s =>
  if c.wm = 0 then .ok { s := s }
  else
    let a := (c.rd f.sa c.low).toNat
    let q := (c.lead.lane (c.lead.reg f.d.toNat) c.low).toNat
    match firstStop [c.spOperand s 16 16 a, c.spOperand s 16 16 q] with
    | some e => .error e
    | none =>
      let n := cmdField (c.spGet s a 4) 0 4
      let p := drawParams (c.spGet s q 16)
      let u := c.rd f.sb c.low
      if drawRefused n u p.temp then putU c s f.d 0xFFFFFFFF .shift
      else
        match c.spOperand s 16 (16 + 8 * n) a with
        | some e => .error e
        | none =>
          let bs := c.spGet s (a + 16) (8 * n)
          let xs := (List.range n).map fun i => (BitVec.ofNat 32 (cmdField bs (8 * i) 4), cmdField bs (8 * i + 4) 4)
          putU c s f.d (draw xs u p) .shift
/-- SDRAW (R236). -/
def execSdraw (p : Pfx) (f : RForm) (s : State) : Outcome := runGroup (.sdraw p f) s (sdrawBody f)

/-! ## PNCOMMIT (R237) -/

/-- Adds 1 to the count of a token, inserted in token order when it is missing (R237). -/
def countToken (t : Nat) : List (Nat × Nat) → List (Nat × Nat)
  | [] => [(t, 1)]
  | (u, n) :: es =>
    if t < u then (t, 1) :: (u, n) :: es
    else if t = u then (u, min (n + 1) (2 ^ 32 - 1)) :: es
    else (u, n) :: countToken t es

/-- The bytes of a base list from its first (R237); the reserved word keeps its bytes. -/
def baseBytes (rsv : List Byte) (es : List (Nat × Nat)) : List Byte :=
  bytesOf 4 es.length ++ rsv ++ es.flatMap fun e => bytesOf 4 e.1 ++ bytesOf 4 e.2

/-- PNCOMMIT (R237). -/
def pncommitBody (f : RForm) : Body := undriftedActive fun c s =>
  if c.wm = 0 then .ok { s := s, move := .yield }
  else
    let a := (c.rd f.sa c.low).toNat
    let b := (c.rd f.sb c.low).toNat
    match firstStop [c.spOperand s 8 8 a, c.spOperand s 4 4 b] with
    | some e => .error e
    | none =>
      let n := cmdField (c.spGet s a 4) 0 4
      let m := cmdField (c.spGet s b 4) 0 4
      if 1024 < n ∨ 63 < m then putU c s f.d 2 .yield
      else
        match firstStop [c.spOperand s 8 (8 + 8 * n) a, c.spOperand s 4 (4 + 4 * m) b] with
        | some e => .error e
        | none =>
          match baseList (c.spGet s) a, pathList (c.spGet s) b with
          | some es, some ts =>
            let r := ts.foldl (fun t x => countToken x t) es
            if 1024 < r.length then putU c s f.d 1 .yield
            else
              match c.spOperand s 8 (8 + 8 * r.length) a with
              | some e => .error e
              | none =>
                if !(c.resultFits [(f.d.toNat, .u 0)]) then .error (c.fault s 0x04 0)
                else putU c (c.spStore s a (baseBytes (c.spGet s (a + 4) 4) r)) f.d 0 .yield
          | _, _ => putU c s f.d 2 .yield
/-- PNCOMMIT (R237). -/
def execPncommit (p : Pfx) (f : RForm) (s : State) : Outcome := runGroup (.pncommit p f) s (pncommitBody f)

/-! ## DLWAIT (R238) -/

/-- One check of DLWAIT's word (R238), a blocking load: its value, or the memory fault or the wait for the word of another
package (R177, R341). The check is then performed, and the next one translates anew. -/
def dlwaitRead (c : Ctx) (s : State) (va : Nat) : State × Except Stop Nat :=
  if va % 8 ≠ 0 then (s, .error (c.formFault s 0x06 1 va))
  else
    match c.reach s va 8 true false with
    | .error e => (s, .error e)
    | .ok (s1, d) =>
      match c.fabricAt s1 va [(d, 8)] with
      | .error e => (s1, .error e)
      | .ok s2 =>
        let g := (s2.gust? s2.cur).getD c.g
        (s2.putGust (g.setSlot c.b { g.slot c.b with pages := none }), .ok (s2.readNat d 8))

/-- DLWAIT (R238): each check reads the word anew, as an acquire load (R181, R264). -/
def dlwaitBody (f : RForm) : Body := undriftedActive fun c s =>
  if c.wm = 0 then .ok { s := s, move := .yield }
  else
    let deadline := (c.rd64 f.d c.low).toNat
    let done := fun (t : State) (st : Word) =>
      match putPair c t f.d (.u st) (.u 0) with
      | .error e => .error e
      | .ok r => .ok { r with move := .yield }
    match memoryWait c s true with
    | some e => .error e
    | none =>
      match dlwaitRead c s (c.rd64 f.sa c.low).toNat with
      | (_, .error e) => .error e
      | (s1, .ok v) =>
        if (c.rd64 f.sb c.low).toNat ≤ v then done s1 0
        else if deadline ≤ s1.hub.now.toNat then done s1 1
        else .error (.wait s1 (.dlwait (c.rd64 f.sa c.low).toNat (c.rd64 f.sb c.low).toNat deadline))
/-- DLWAIT (R238). -/
def execDlwait (p : Pfx) (f : RForm) (s : State) : Outcome := runGroup (.dlwait p f) s (dlwaitBody f)

/-- DLWAIT_DEADLINE (R238): NOW has reached the deadline of a waiting DLWAIT; its check is made once more, and its wait
ends with it. -/
def execDlwaitDeadline (k : Nat) (b : Bool) (s : State) : Outcome :=
  match s.gust? k with
  | none => .refused .noSuchEvent
  | some g =>
    match (g.slot b).wait with
    | some (.dlwait _ _ t) =>
      if s.hub.now.toNat < t ∨ !(s.ready k g b) then .refused .noSuchEvent
      else
        match s.fetchInstr k b with
        | (s1, .dlwait p f) => execDlwait p f { s1 with cur := k, curB := b }
        | _ => .refused .noSuchEvent
    | _ => .refused .noSuchEvent

end Sys2Proof.Machine
end

