-- ==== Sys2Proof/Machine/Rotation.lean ====
section
/-! DEFINITION. The rotation of a quadrant: which ready position issues (spec/11 R323), and YIELD's place in it (R142). -/

namespace Sys2Proof.Machine

/-- The quadrant of a gust in its core, and its gust slot in that quadrant (R323, R354). -/
def quadOf (k : Nat) : Nat := slotOf k % 64 / 16
def placeOf (k : Nat) : Nat := slotOf k % 16

/-- The key of the gust at slot i of quadrant q of a core's active bank. -/
def keyAt (core q i : Nat) : Nat := core * 128 + q * 16 + i

/-- The ready positions of a quadrant, ascending: 2i for PC slot A of gust slot i, 2i + 1 for its slot B (R323). -/
def State.readyPositions (s : State) (core q : Nat) : List Nat :=
  (List.range 16).flatMap fun i =>
    match s.gust? (keyAt core q i) with
    | none => []
    | some g => (if s.ready (keyAt core q i) g false then [2 * i] else []) ++
                (if s.ready (keyAt core q i) g true then [2 * i + 1] else [])

/-- A quadrant of a core. -/
def State.quad (s : State) (core q : Nat) : Quad := (s.core core).quads.getD q {}
def State.setQuad (s : State) (core q : Nat) (x : Quad) : State :=
  s.setCore core { s.core core with quads := listSet (s.core core).quads q x }

/-- A yielding gust stands behind every other ready position of its quadrant (R142, R323). -/
def State.standBehind (s : State) (k : Nat) : State :=
  let core := coreOf k
  let q := quadOf k
  let x := s.quad core q
  s.setQuad core q { x with behind := tabSet x.behind (placeOf k) ((s.readyPositions core q).filter fun n => n / 2 != placeOf k) }

/-- The first position at or after a pointer, counting upward and wrapping. -/
def nextPosition (p : Nat) (ns : List Nat) : Option Nat :=
  match ns.find? fun n => p ≤ n with
  | some n => some n
  | none => ns.head?

/-- The oldest of the positions with an age of 128 or more, the lowest on a tie. -/
def oldestPosition (x : Quad) : List Nat → Option Nat
  | [] => none
  | n :: ns =>
    let a := tabGetD x.ages n 0
    match oldestPosition x ns with
    | none => if 128 ≤ a then some n else none
    | some m => if 128 ≤ a ∧ tabGetD x.ages m 0 ≤ a then some n else some m

/-- The position that a quadrant issues (R323). -/
def State.choose (s : State) (core q : Nat) : Option Nat :=
  let x := s.quad core q
  let ns := s.readyPositions core q
  match oldestPosition x ns with
  | some n => some n
  | none =>
    match nextPosition x.p (ns.filter fun n => (tabGetD x.behind (n / 2) []).isEmpty) with
    | some n => some n
    | none => nextPosition x.p ns

/-- Whether slot b of gust k, in the active bank, is the position that its quadrant issues. -/
def State.chosen (s : State) (k : Nat) (b : Bool) : Bool :=
  inActive k && s.choose (coreOf k) (quadOf k) == some (2 * placeOf k + (if b then 1 else 0))

/-- Whether a pointer at p that moves on behind position n passes position m (R323): m lies from p up to n, wrapping. -/
def passes (p n m : Nat) : Bool := decide ((m + 32 - p) % 32 ≤ (n + 32 - p) % 32)

/-- A quadrant after a position has issued (R323): the pointer stands after it, the ages of the others that were ready rise,
and the gusts that stood behind a position that the pointer has passed stand behind it no more. -/
def Quad.issued (x : Quad) (n : Nat) (ns : List Nat) : Quad where
  p := (n + 1) % 32
  ages := (ns.filter (· != n)).foldl (fun t m => tabSet t m (tabGetD x.ages m 0 + 1)) []
  behind := (x.behind.map fun e => (e.1, e.2.filter fun m => !passes x.p n m)).filter fun e => !e.2.isEmpty && e.1 != n / 2

/-- The quadrant's rotation advanced for an issue of a position of gust k. -/
def State.rotate (s : State) (k : Nat) (b : Bool) : State :=
  let core := coreOf k
  let q := quadOf k
  s.setQuad core q ((s.quad core q).issued (2 * placeOf k + (if b then 1 else 0)) (s.readyPositions core q))

end Sys2Proof.Machine
end

