-- ==== Sys2Proof/Machine/System.lean ====
section
/-! DEFINITION. System instructions (spec/05 R141 to R149, spec/01 R25, R39), traps, and the groups that are no instruction
(spec/03 R90, spec/13 R358). -/

namespace Sys2Proof.Machine

/-! ## Reading and writing system registers (R39, R144) -/

/-- NOW as MFS reads it (R39): time has gone on by a free number of ns within the tick (log 6). -/
def State.readNow (s : State) : DWord × State :=
  let now := s.hub.now.toNat
  let (n, s1) := s.freshNat
  let t := now + n % (1000 - now % 1000)
  (BitVec.ofNat 64 t, s1.toNow t)

/-- SLOTS (R39). -/
def slotsValue (g : Gust) (b : Bool) : Nat :=
  (if b then 1 else 0) + (if g.a.live then 2 else 0) + (if g.b.live then 4 else 0) + 256 * g.dsp

/-- A 32-bit system register as MFS reads it, with its tag (R39); FLAGS by lane. -/
def sysValue (s : State) (g : Gust) (b : Bool) (off : Nat) : Val :=
  let fr := s.frontOf g
  let u := fun (n : Nat) => Val.u (BitVec.ofNat 32 n)
  match off with
  | 0x000 => if g.renumbered then g.mkG fun l => BitVec.ofNat 32 l else .l 0 1
  | 0x001 => u g.gustId
  | 0x002 => .u fr.frontId
  | 0x003 => u g.wb
  | 0x004 => u g.alloc
  | 0x005 => u (g.gbud + (if g.gbudRefused then 2 ^ 31 else 0))
  | 0x006 => u g.gcnt
  | 0x007 => .u g.lmask
  | 0x008 => g.mkG fun l => BitVec.ofNat 32 (g.flagsOf l)
  | 0x009 => .u (g.ten.zeroExtend 32)
  | 0x00C => .u (s.features.extractLsb' 0 32)
  | 0x00D => .u (s.features.extractLsb' 32 32)
  | 0x00E => .u (s.features.extractLsb' 64 32)
  | 0x00F => .u (s.features.extractLsb' 96 32)
  | 0x013 => .u g.xmask
  | 0x014 => .u g.xother
  | 0x015 => .u g.xdone
  | 0x016 => .u g.xcause
  | 0x017 => .u g.xdest
  | 0x019 => u (slotsValue g b)
  | _ => .u 0

/-- A 64-bit system register as MFS reads it: its low and high words (R39). -/
def sysPair (g : Gust) (off : Nat) : Val × Val :=
  let p := fun (x : DWord) => (Val.u x.lo, Val.u x.hi)
  match off with
  | 0x010 => p g.xpc
  | 0x011 => p g.xfpc
  | 0x012 => (g.mkG fun l => (g.xaddr.getD l 0).lo, g.mkG fun l => (g.xaddr.getD l 0).hi)
  | _ => p (g.frame.zeroExtend 64)

/-- MFS (R144). -/
def mfsBody (f : YForm) : Body := undrifted fun c s =>
  let off := f.off.toNat
  if off = 0x00A then
    let (t, s1) := s.readNow
    putPair c s1 f.d (.u t.lo) (.u t.hi)
  else if sysReg64 off then putPair c s f.d (sysPair c.g off).1 (sysPair c.g off).2
  else
    match wrAll c s [(f.d.toNat, sysValue s c.g c.b off)] with
    | .error e => .error e
    | .ok (s1, l1) => .ok { s := s1, l1 := l1 }
/-- MFS (R144). -/
def execMfs (p : Pfx) (f : YForm) (s : State) : Outcome := runGroup (.mfs p f) s (mfsBody f)

/-- Whether the bank's free pool covers a budget of n (R25, R26). -/
def State.coversBudget (s : State) (k : Nat) (g : Gust) (n : Nat) : Bool :=
  let core := coreOf k
  let bank := if inActive k then 0 else 1
  let w := if g.twin.isSome then 2 else 1
  decide (s.committed core bank + w * commitBytes g.alloc n ≤ bankBytes + w * commitBytes g.alloc g.gbud)

/-- MTS GBUD (R25). -/
def Gust.putBudget (g : Gust) (n : Nat) (covers : Bool) : Gust :=
  if n < g.gcnt then { g with gbudRefused := false }
  else if g.alloc < n ∨ !covers then { g with gbudRefused := true }
  else { g with gbud := n, gbudRefused := false }

/-- A gust with a system register written (R39, R144): w the lowest lane's word, x its pair, lane by lane for FLAGS and
XADDR. -/
def putSys (c : Ctx) (s : State) (off : Nat) (word : Nat → Word) (pair : Nat → DWord) : Gust :=
  let g := c.g
  let w := word c.low
  let x := pair c.low
  match off with
  | 0x005 => g.putBudget (w.toNat % 1024) (s.coversBudget s.cur g (w.toNat % 1024))
  | 0x008 => g.putFlags c.wm word
  | 0x009 => { g with ten := w.truncate 5 }
  | 0x010 => { g with xpc := x }
  | 0x011 => { g with xfpc := x }
  | 0x012 => { g with xaddr := lanes.map fun l => if inMask c.wm l then pair l else g.xaddr.getD l 0 }
  | 0x013 => { g with xmask := w }
  | 0x014 => { g with xother := w }
  | 0x015 => { g with xdone := w }
  | 0x016 => { g with xcause := w }
  | 0x017 => { g with xdest := w &&& 0x3FF }
  | _ => g

/-- MTS (R144). -/
def mtsBody (f : YForm) : Body := undrifted fun c s =>
  if c.wm = 0 then .ok { s := s }
  else .ok { s := s.putGust (putSys c s f.off.toNat (c.rd f.sa) (c.rd64 f.sa)) }
/-- MTS (R144). -/
def execMts (p : Pfx) (f : YForm) (s : State) : Outcome := runGroup (.mts p f) s (mtsBody f)

/-! ## NOP, YIELD, WBASE, FLCLR -/

/-- NOP (R142). -/
def execNop (p : Pfx) (f : FForm) (s : State) : Outcome := runGroup (.nop p f) s fun _ t => .ok { s := t }

/-- YIELD (R142). -/
def execYield (p : Pfx) (f : FForm) (s : State) : Outcome :=
  runGroup (.yield p f) s fun _ t => .ok { s := t.standBehind t.cur, move := .yield }

/-- WBASE (R143). -/
def wbaseBody (f : FForm) : Body := undrifted fun c s =>
  let n := (c.rd f.sa c.low).toNat
  if n % 8 = 0 ∧ n + 8 ≤ c.g.alloc then .ok { s := s.putGust { c.g with wb := n } } else .error (c.fault s 0x02 2)
/-- WBASE (R143). -/
def execWbase (p : Pfx) (f : FForm) (s : State) : Outcome := runGroup (.wbase p f) s (wbaseBody f)

/-- The flags cleared in some lanes (R147). -/
def Gust.clearFlags (g : Gust) (m : Word) : Gust :=
  { g with fNX := g.fNX &&& ~~~m, fUF := g.fUF &&& ~~~m, fOF := g.fOF &&& ~~~m, fDZ := g.fDZ &&& ~~~m,
           fNV := g.fNV &&& ~~~m }

/-- FLCLR (R147). -/
def execFlclr (p : Pfx) (f : FForm) (s : State) : Outcome :=
  runGroup (.flclr p f) s fun c t => .ok { s := t.putGust (c.g.clearFlags c.wm) }

/-! ## TRAP, SVC, TFENCE, BKPT -/

/-- TRAP (R148). -/
def execTrap (p : Pfx) (f : FForm) (s : State) : Outcome :=
  runGroup (.trap p f) s fun c t => .error (c.fault t 0x11 f.sa.toNat)

/-- SVC (R148). -/
def execSvc (p : Pfx) (f : FForm) (s : State) : Outcome :=
  runGroup (.svc p f) s fun c t => .error (c.fault t 0x12 f.sa.toNat)

/-- The enabled flags of a lane (R146). -/
def Gust.enabledFlags (g : Gust) (l : Nat) : Nat := g.flagsOf l &&& g.ten.toNat

/-- TFENCE (R146). -/
def tfenceBody : Body := fun c s =>
  let t := c.smask &&& maskOf fun l => c.g.enabledFlags l != 0
  if c.g.handler ≠ 0 ∨ t = 0 then .ok { s := s }
  else
    .error (.fault s { code := 0x10, cause := (lanesOf t).foldl (fun n l => n ||| c.g.enabledFlags l) 0, xmask := t })
/-- TFENCE (R146). -/
def execTfence (p : Pfx) (f : FForm) (s : State) : Outcome := runGroup (.tfence p f) s tfenceBody

/-- A BKPT halt is recorded for the debugger (R386). -/
def State.recordHalt (s : State) (g : Gust) : State :=
  let fr := s.frontOf g
  { s with dbg := { s.dbg with bkpt := true, evFront := fr.frontId,
                                   evGust := BitVec.ofNat 20 (g.gustId % 2 ^ 16 + 2 ^ 16 * fr.part) } }

/-- BKPT (R148, R386): with HALTEN its gust halts at the group. A gust that the debugger has released from there goes on: the
group is then a NOP (log 18). -/
def bkptBody (f : FForm) : Body := fun c s =>
  if c.g.bkptAt = some (c.b, c.pc) then .ok { s := s.putGust { c.g with bkptAt := none } }
  else if (s.part (s.frontOf c.g).part).haltEn then
    .error (.arrived ((s.putGust { c.g with halted := true, bkptAt := some (c.b, c.pc),
                                            xcause := (c.g.xcause &&& 0xFFFF0000) ||| BitVec.ofNat 32 f.sa.toNat }).recordHalt c.g))
  else .ok { s := s }
/-- BKPT (R148). -/
def execBkpt (p : Pfx) (f : FForm) (s : State) : Outcome := runGroup (.bkpt p f) s (bkptBody f)

/-! ## TRET (R149, R365) -/

/-- TRET to a group: the handler is left, and the trapped slot continues there, or takes up the wait that the trap has
interrupted (R150). -/
def tretTo (c : Ctx) (s : State) (pc : BitVec 56) (again : Bool) : Except Stop Done :=
  let slotB := match c.g.trapRet with | some t => t.slotB | none => c.b
  let g := c.g.leaveHandler c.b pc
  if c.g.keptAt.isSome then .error (.arrived ((s.putGust g).settled s.cur))
  else .ok { s := s.putGust { g with replay := g.replay ++ if again then [(slotB, c.g.xdone)] else [] }, pc := some pc,
             move := .both }

/-- TRET (R149): SA = 0 continues at the group after the one at XPC, whose words are fetched; SA = 1 at XPC. An XPC that is no
group's address faults at the TRET, inside the handler, in both forms (log 46). -/
def tretBody (f : FForm) : Body := fun c s =>
  let x := c.g.xpc
  let pc : BitVec 56 := x.truncate 56
  if x.toNat % 4 ≠ 0 then .error (c.fault s 0x06 4)
  else if 2 ^ 56 ≤ x.toNat then .error (c.fault s 0x08 1)
  else if f.sa = 1 then tretTo c s pc true
  else
    match s.fetchGroup s.cur c.b pc 3 [] false with
    | (s1, .error (code, cause, va)) =>
      .error (.fault s1 { code := code, cause := cause, xmask := c.smask, xaddr := some (lanes.map fun _ => va.zeroExtend 64) })
    | (s1, .ok (ws, _)) =>
      let g := (s1.gust? s1.cur).getD c.g
      tretTo { c with g := g } s1 (pc + BitVec.ofNat 56 (4 * ws.length)) false
/-- TRET (R149). -/
def execTret (p : Pfx) (f : FForm) (s : State) : Outcome := runGroup (.tret p f) s (tretBody f)

/-! ## Groups that are no instruction -/

/-- ILLZ (R90). -/
def execIllz (p : Pfx) (s : State) : Outcome := runGroup (.illz p) s fun c t => .error (c.fault t 0x01 8)

/-- ILL (R90). -/
def execIll (p : Pfx) (s : State) : Outcome := runGroup (.ill p) s fun c t => .error (c.fault t 0x01 9)

/-- ILLEGAL_WORD (R90): the words that no instruction has. -/
def execIllegalWord (ws : List Word) (cause : Nat) (s : State) : Outcome :=
  runGroup (.illegalWord ws cause) s fun c t => .error (c.fault t 0x01 cause)

/-- FETCH_FAULT (R358): the group whose words cannot be fetched; with FLT.ILLEGAL cause 7 one whose page needs a feature that
is not accepted (R393, log 15), which is no memory fault and writes no XADDR (R362). -/
def execFetchFault (code cause : Nat) (va : DWord) (s : State) : Outcome :=
  match s.gust? s.cur with
  | none => .refused .noIssuingGust
  | some g =>
    .next (s.takeFault s.cur s.curB { code := code, cause := cause, xmask := (g.slot s.curB).mask,
                                      xaddr := if code = 0x01 then none else some (lanes.map fun _ => va) })

end Sys2Proof.Machine
end

