-- ==== Sys2Proof/Machine/Votes.lean ====
section
/-! DEFINITION. Votes and mask arithmetic (spec/05 R133). -/

namespace Sys2Proof.Machine

/-- p of R133: the lanes of Active() in m_SA. -/
def Ctx.votes (c : Ctx) (sa : BitVec 7) : Word := c.g.maskReg sa.toNat &&& c.wm

/-- A vote with a uniform result (R133). -/
def voteBody (f : RForm) (v : Ctx → Word) : Body := undrifted fun c s => putResult c s f.d (.u (v c))

/-- VOTE.ANY (R133). -/
def execVoteAny (p : Pfx) (f : RForm) (s : State) : Outcome :=
  runGroup (.voteAny p f) s (voteBody f fun c => if c.votes f.sa = 0 then 0 else 1)
/-- VOTE.ALL (R133). -/
def execVoteAll (p : Pfx) (f : RForm) (s : State) : Outcome :=
  runGroup (.voteAll p f) s (voteBody f fun c => if c.votes f.sa = c.wm then 1 else 0)
/-- VOTE.COUNT (R133). -/
def execVoteCount (p : Pfx) (f : RForm) (s : State) : Outcome :=
  runGroup (.voteCount p f) s (voteBody f fun c => BitVec.ofNat 32 (popCount (c.votes f.sa)))
/-- MPOPC (R133). -/
def execMpopc (p : Pfx) (f : RForm) (s : State) : Outcome :=
  runGroup (.mpopc p f) s (voteBody f fun c => BitVec.ofNat 32 (popCount (c.g.maskReg f.sa.toNat)))
/-- VOTE.RANK (R133). -/
def execVoteRank (p : Pfx) (f : RForm) (s : State) : Outcome :=
  runGroup (.voteRank p f) s (undrifted fun c s =>
    putResult c s f.d (c.g.mkG fun l => BitVec.ofNat 32 (popCount (c.votes f.sa &&& lowMask l))))

/-- Writes a whole mask register (R133: BALLOT and ELECT). -/
def putWhole (c : Ctx) (s : State) (d : BitVec 7) (m : Word) : Except Stop Done := .ok { s := s.putGust (c.g.setMask d.toNat m) }

/-- VOTE.BALLOT (R133). -/
def execVoteBallot (p : Pfx) (f : RForm) (s : State) : Outcome :=
  runGroup (.voteBallot p f) s (undrifted fun c s => putWhole c s f.d (c.wm &&& maskOf fun l => c.rd f.sa l != 0))
/-- ELECT (R133). -/
def execElect (p : Pfx) (f : RForm) (s : State) : Outcome :=
  runGroup (.elect p f) s fun c s => putWhole c s f.d (c.wm &&& maskOf fun l => l == c.low)

/-- A mask operation (R133). -/
def maskBody (f : RForm) (op : Word → Word → Word) : Body := fun c s =>
  let r := op (c.g.maskReg f.sa.toNat) (c.g.maskReg f.sb.toNat)
  putMask c s f.d (inMask r)

/-- MAND (R133). -/
def execMand (p : Pfx) (f : RForm) (s : State) : Outcome := runGroup (.mand p f) s (maskBody f fun a b => a &&& b)
/-- MOR (R133). -/
def execMor (p : Pfx) (f : RForm) (s : State) : Outcome := runGroup (.mor p f) s (maskBody f fun a b => a ||| b)
/-- MXOR (R133). -/
def execMxor (p : Pfx) (f : RForm) (s : State) : Outcome := runGroup (.mxor p f) s (maskBody f fun a b => a ^^^ b)
/-- MNOT (R133). -/
def execMnot (p : Pfx) (f : RForm) (s : State) : Outcome := runGroup (.mnot p f) s (maskBody f fun a _ => ~~~a)
/-- MMOV (R133). -/
def execMmov (p : Pfx) (f : RForm) (s : State) : Outcome := runGroup (.mmov p f) s (maskBody f fun a _ => a)

end Sys2Proof.Machine
end

