-- ==== Sys2Proof/Machine/Dispatch.lean ====
section
/-! DEFINITION. The meaning of every constructor of Instr, one direct call each. -/

namespace Sys2Proof.Machine

def exec (i : Instr) (s : State) : Host.Outcome State Fault Refusal :=
  match i with
  | .iadd p f => Sys2Proof.Machine.execIadd p f s
  | .isub p f => Sys2Proof.Machine.execIsub p f s
  | .imul p f => Sys2Proof.Machine.execImul p f s
  | .imulh p f => Sys2Proof.Machine.execImulh p f s
  | .imulhn p f => Sys2Proof.Machine.execImulhn p f s
  | .imad p f => Sys2Proof.Machine.execImad p f s
  | .imin p f => Sys2Proof.Machine.execImin p f s
  | .imax p f => Sys2Proof.Machine.execImax p f s
  | .iminn p f => Sys2Proof.Machine.execIminn p f s
  | .imaxn p f => Sys2Proof.Machine.execImaxn p f s
  | .iabs p f => Sys2Proof.Machine.execIabs p f s
  | .and p f => Sys2Proof.Machine.execAnd p f s
  | .or p f => Sys2Proof.Machine.execOr p f s
  | .xor p f => Sys2Proof.Machine.execXor p f s
  | .andn p f => Sys2Proof.Machine.execAndn p f s
  | .shl p f => Sys2Proof.Machine.execShl p f s
  | .shr p f => Sys2Proof.Machine.execShr p f s
  | .sar p f => Sys2Proof.Machine.execSar p f s
  | .rotl p f => Sys2Proof.Machine.execRotl p f s
  | .popc p f => Sys2Proof.Machine.execPopc p f s
  | .clz p f => Sys2Proof.Machine.execClz p f s
  | .ctz p f => Sys2Proof.Machine.execCtz p f s
  | .brev p f => Sys2Proof.Machine.execBrev p f s
  | .sel p f => Sys2Proof.Machine.execSel p f s
  | .bfx p f => Sys2Proof.Machine.execBfx p f s
  | .bfxs p f => Sys2Proof.Machine.execBfxs p f s
  | .bfi p f => Sys2Proof.Machine.execBfi p f s
  | .icmp p c f => Sys2Proof.Machine.execIcmp p c f s
  | .iaddi p f => Sys2Proof.Machine.execIaddi p f s
  | .andi p f => Sys2Proof.Machine.execAndi p f s
  | .ori p f => Sys2Proof.Machine.execOri p f s
  | .xori p f => Sys2Proof.Machine.execXori p f s
  | .shli p f => Sys2Proof.Machine.execShli p f s
  | .shri p f => Sys2Proof.Machine.execShri p f s
  | .sari p f => Sys2Proof.Machine.execSari p f s
  | .ldi p f => Sys2Proof.Machine.execLdi p f s
  | .add64 p f => Sys2Proof.Machine.execAdd64 p f s
  | .sub64 p f => Sys2Proof.Machine.execSub64 p f s
  | .mad64 p f => Sys2Proof.Machine.execMad64 p f s
  | .cmp64 p c f => Sys2Proof.Machine.execCmp64 p c f s
  | .add64i p f => Sys2Proof.Machine.execAdd64i p f s
  | .fadd p f => Sys2Proof.Machine.execFadd p f s
  | .fsub p f => Sys2Proof.Machine.execFsub p f s
  | .fmul p f => Sys2Proof.Machine.execFmul p f s
  | .ffma p f => Sys2Proof.Machine.execFfma p f s
  | .fmin p f => Sys2Proof.Machine.execFmin p f s
  | .fmax p f => Sys2Proof.Machine.execFmax p f s
  | .fabs p f => Sys2Proof.Machine.execFabs p f s
  | .fneg p f => Sys2Proof.Machine.execFneg p f s
  | .fclass p f => Sys2Proof.Machine.execFclass p f s
  | .frnd p f => Sys2Proof.Machine.execFrnd p f s
  | .fscale p f => Sys2Proof.Machine.execFscale p f s
  | .fcmp p c f => Sys2Proof.Machine.execFcmp p c f s
  | .frcp p f => Sys2Proof.Machine.execFrcp p f s
  | .frsq p f => Sys2Proof.Machine.execFrsq p f s
  | .fsqrt p f => Sys2Proof.Machine.execFsqrt p f s
  | .fexp2 p f => Sys2Proof.Machine.execFexp2 p f s
  | .flog2 p f => Sys2Proof.Machine.execFlog2 p f s
  | .ftanh p f => Sys2Proof.Machine.execFtanh p f s
  | .fsigm p f => Sys2Proof.Machine.execFsigm p f s
  | .cvtfi p f => Sys2Proof.Machine.execCvtfi p f s
  | .cvtfiN p f => Sys2Proof.Machine.execCvtfiN p f s
  | .cvtif p f => Sys2Proof.Machine.execCvtif p f s
  | .cvtifN p f => Sys2Proof.Machine.execCvtifN p f s
  | .cvtbf p f => Sys2Proof.Machine.execCvtbf p f s
  | .cvtfb p f => Sys2Proof.Machine.execCvtfb p f s
  | .cvte4 p f => Sys2Proof.Machine.execCvte4 p f s
  | .cvte4f p f => Sys2Proof.Machine.execCvte4f p f s
  | .cvti4 p f => Sys2Proof.Machine.execCvti4 p f s
  | .shflIdx p f => Sys2Proof.Machine.execShflIdx p f s
  | .shflUp p f => Sys2Proof.Machine.execShflUp p f s
  | .shflDown p f => Sys2Proof.Machine.execShflDown p f s
  | .shflXor p f => Sys2Proof.Machine.execShflXor p f s
  | .radd p f => Sys2Proof.Machine.execRadd p f s
  | .raddF p f => Sys2Proof.Machine.execRaddF p f s
  | .rmax p f => Sys2Proof.Machine.execRmax p f s
  | .rmaxN p f => Sys2Proof.Machine.execRmaxN p f s
  | .rmaxF p f => Sys2Proof.Machine.execRmaxF p f s
  | .rmin p f => Sys2Proof.Machine.execRmin p f s
  | .rminN p f => Sys2Proof.Machine.execRminN p f s
  | .rminF p f => Sys2Proof.Machine.execRminF p f s
  | .scana p f => Sys2Proof.Machine.execScana p f s
  | .scanaF p f => Sys2Proof.Machine.execScanaF p f s
  | .bcast p f => Sys2Proof.Machine.execBcast p f s
  | .mkl p f => Sys2Proof.Machine.execMkl p f s
  | .mkg p f => Sys2Proof.Machine.execMkg p f s
  | .tag p f => Sys2Proof.Machine.execTag p f s
  | .qplane p f => Sys2Proof.Machine.execQplane p f s
  | .hadx p f => Sys2Proof.Machine.execHadx p f s
  | .dqx p f => Sys2Proof.Machine.execDqx p f s
  | .rand p f => Sys2Proof.Machine.execRand p f s
  | .bra p f => Sys2Proof.Machine.execBra p f s
  | .brc p f => Sys2Proof.Machine.execBrc p f s
  | .brd p f => Sys2Proof.Machine.execBrd p f s
  | .call p f => Sys2Proof.Machine.execCall p f s
  | .recon p f => Sys2Proof.Machine.execRecon p f s
  | .ret p f => Sys2Proof.Machine.execRet p f s
  | .jmpr p f => Sys2Proof.Machine.execJmpr p f s
  | .exit p f => Sys2Proof.Machine.execExit p f s
  | .spawn p f => Sys2Proof.Machine.execSpawn p f s
  | .regroup p f => Sys2Proof.Machine.execRegroup p f s
  | .voteAny p f => Sys2Proof.Machine.execVoteAny p f s
  | .voteAll p f => Sys2Proof.Machine.execVoteAll p f s
  | .voteBallot p f => Sys2Proof.Machine.execVoteBallot p f s
  | .voteCount p f => Sys2Proof.Machine.execVoteCount p f s
  | .voteRank p f => Sys2Proof.Machine.execVoteRank p f s
  | .elect p f => Sys2Proof.Machine.execElect p f s
  | .mand p f => Sys2Proof.Machine.execMand p f s
  | .mor p f => Sys2Proof.Machine.execMor p f s
  | .mxor p f => Sys2Proof.Machine.execMxor p f s
  | .mnot p f => Sys2Proof.Machine.execMnot p f s
  | .mmov p f => Sys2Proof.Machine.execMmov p f s
  | .mpopc p f => Sys2Proof.Machine.execMpopc p f s
  | .bar p f => Sys2Proof.Machine.execBar p f s
  | .bararr p f => Sys2Proof.Machine.execBararr p f s
  | .barwt p f => Sys2Proof.Machine.execBarwt p f s
  | .cjoin p f => Sys2Proof.Machine.execCjoin p f s
  | .cleave p f => Sys2Proof.Machine.execCleave p f s
  | .ld p f => Sys2Proof.Machine.execLd p f s
  | .ldDf p f => Sys2Proof.Machine.execLdDf p f s
  | .ldu p f => Sys2Proof.Machine.execLdu p f s
  | .lduDf p f => Sys2Proof.Machine.execLduDf p f s
  | .ldx p f => Sys2Proof.Machine.execLdx p f s
  | .ldraw p f => Sys2Proof.Machine.execLdraw p f s
  | .st p f => Sys2Proof.Machine.execSt p f s
  | .spld p f => Sys2Proof.Machine.execSpld p f s
  | .spst p f => Sys2Proof.Machine.execSpst p f s
  | .ldlk p f => Sys2Proof.Machine.execLdlk p f s
  | .stul p f => Sys2Proof.Machine.execStul p f s
  | .spa p f => Sys2Proof.Machine.execSpa p f s
  | .atom p f => Sys2Proof.Machine.execAtom p f s
  | .atomr p f => Sys2Proof.Machine.execAtomr p f s
  | .atomXchg p f => Sys2Proof.Machine.execAtomXchg p f s
  | .atomCas p f => Sys2Proof.Machine.execAtomCas p f s
  | .atomrXchg p f => Sys2Proof.Machine.execAtomrXchg p f s
  | .atomrCas p f => Sys2Proof.Machine.execAtomrCas p f s
  | .atomAdd64 p f => Sys2Proof.Machine.execAtomAdd64 p f s
  | .atomrAdd64 p f => Sys2Proof.Machine.execAtomrAdd64 p f s
  | .atomrXchg64 p f => Sys2Proof.Machine.execAtomrXchg64 p f s
  | .atomrCas64 p f => Sys2Proof.Machine.execAtomrCas64 p f s
  | .fenceAcq p f => Sys2Proof.Machine.execFenceAcq p f s
  | .fenceRel p f => Sys2Proof.Machine.execFenceRel p f s
  | .fenceAr p f => Sys2Proof.Machine.execFenceAr p f s
  | .isync p f => Sys2Proof.Machine.execIsync p f s
  | .isyncRange p f => Sys2Proof.Machine.execIsyncRange p f s
  | .hflush p f => Sys2Proof.Machine.execHflush p f s
  | .pref p f => Sys2Proof.Machine.execPref p f s
  | .waittl p f => Sys2Proof.Machine.execWaittl p f s
  | .waitsb p f => Sys2Proof.Machine.execWaitsb p f s
  | .rsbq p f => Sys2Proof.Machine.execRsbq p f s
  | .awrd p f => Sys2Proof.Machine.execAwrd p f s
  | .braw p f => Sys2Proof.Machine.execBraw p f s
  | .capld p f => Sys2Proof.Machine.execCapld p f s
  | .capst p f => Sys2Proof.Machine.execCapst p f s
  | .capnar p f => Sys2Proof.Machine.execCapnar p f s
  | .capchk p f => Sys2Proof.Machine.execCapchk p f s
  | .captag p f => Sys2Proof.Machine.execCaptag p f s
  | .capmk p f => Sys2Proof.Machine.execCapmk p f s
  | .push p f => Sys2Proof.Machine.execPush p f s
  | .pushCore p f => Sys2Proof.Machine.execPushCore p f s
  | .pushDie p f => Sys2Proof.Machine.execPushDie p f s
  | .pushPkg p f => Sys2Proof.Machine.execPushPkg p f s
  | .pushq p f => Sys2Proof.Machine.execPushq p f s
  | .tlrd p f => Sys2Proof.Machine.execTlrd p f s
  | .kvres p f => Sys2Proof.Machine.execKvres p f s
  | .kvapp p f => Sys2Proof.Machine.execKvapp p f s
  | .kvpub p f => Sys2Proof.Machine.execKvpub p f s
  | .kvacq p f => Sys2Proof.Machine.execKvacq p f s
  | .kvseal p f => Sys2Proof.Machine.execKvseal p f s
  | .kvg p f => Sys2Proof.Machine.execKvg p f s
  | .kvqk p f => Sys2Proof.Machine.execKvqk p f s
  | .kvav p f => Sys2Proof.Machine.execKvav p f s
  | .kvprom p f => Sys2Proof.Machine.execKvprom p f s
  | .kvrm p f => Sys2Proof.Machine.execKvrm p f s
  | .lqsend p f => Sys2Proof.Machine.execLqsend p f s
  | .lqrecv p f => Sys2Proof.Machine.execLqrecv p f s
  | .lqpeek p f => Sys2Proof.Machine.execLqpeek p f s
  | .heaprd p f => Sys2Proof.Machine.execHeaprd p f s
  | .sdraw p f => Sys2Proof.Machine.execSdraw p f s
  | .pncommit p f => Sys2Proof.Machine.execPncommit p f s
  | .dlwait p f => Sys2Proof.Machine.execDlwait p f s
  | .pfmark p f => Sys2Proof.Machine.execPfmark p f s
  | .leaveq p f => Sys2Proof.Machine.execLeaveq p f s
  | .mfs p f => Sys2Proof.Machine.execMfs p f s
  | .mts p f => Sys2Proof.Machine.execMts p f s
  | .nop p f => Sys2Proof.Machine.execNop p f s
  | .yield p f => Sys2Proof.Machine.execYield p f s
  | .wbase p f => Sys2Proof.Machine.execWbase p f s
  | .trap p f => Sys2Proof.Machine.execTrap p f s
  | .tret p f => Sys2Proof.Machine.execTret p f s
  | .svc p f => Sys2Proof.Machine.execSvc p f s
  | .tfence p f => Sys2Proof.Machine.execTfence p f s
  | .flclr p f => Sys2Proof.Machine.execFlclr p f s
  | .bkpt p f => Sys2Proof.Machine.execBkpt p f s
  | .illz p => Sys2Proof.Machine.execIllz p s
  | .ill p => Sys2Proof.Machine.execIll p s
  | .gustRetire g => Sys2Proof.Machine.execGustRetire g s
  | .driftArrival g sym => Sys2Proof.Machine.execDriftArrival g sym s
  | .loadReply g slotB => Sys2Proof.Machine.execLoadReply g slotB s
  | .postedCompletion g id => Sys2Proof.Machine.execPostedCompletion g id s
  | .trapEntry g slotB r => Sys2Proof.Machine.execTrapEntry g slotB r s
  | .pendingEntryComplete g => Sys2Proof.Machine.execPendingEntryComplete g s
  | .wcAgeDrain core ix => Sys2Proof.Machine.execWcAgeDrain core ix s
  | .commandStart eng => Sys2Proof.Machine.execCommandStart eng s
  | .leaveGrant die => Sys2Proof.Machine.execLeaveGrant die s
  | .taskIssue core => Sys2Proof.Machine.execTaskIssue core s
  | .maskHoldRelease eng num => Sys2Proof.Machine.execMaskHoldRelease eng num s
  | .maskDeadline eng num => Sys2Proof.Machine.execMaskDeadline eng num s
  | .dlwaitDeadline g slotB => Sys2Proof.Machine.execDlwaitDeadline g slotB s
  | .commandComplete eng num => Sys2Proof.Machine.execCommandComplete eng num s
  | .mxtask eng num => Sys2Proof.Machine.execMxtask eng num s
  | .mxconv eng num => Sys2Proof.Machine.execMxconv eng num s
  | .cpy eng num => Sys2Proof.Machine.execCpy eng num s
  | .cpy2d eng num => Sys2Proof.Machine.execCpy2d eng num s
  | .gather eng num => Sys2Proof.Machine.execGather eng num s
  | .scatter eng num => Sys2Proof.Machine.execScatter eng num s
  | .fill eng num => Sys2Proof.Machine.execFill eng num s
  | .reqnt eng num => Sys2Proof.Machine.execReqnt eng num s
  | .xpose eng num => Sys2Proof.Machine.execXpose eng num s
  | .hostfl eng num => Sys2Proof.Machine.execHostfl eng num s
  | .ringx eng num => Sys2Proof.Machine.execRingx eng num s
  | .lqfwd eng num => Sys2Proof.Machine.execLqfwd eng num s
  | .migrate eng num => Sys2Proof.Machine.execMigrate eng num s
  | .graphpost eng num => Sys2Proof.Machine.execGraphpost eng num s
  | .oldestAdvance part asid => Sys2Proof.Machine.execOldestAdvance part asid s
  | .prefetchRecord ix => Sys2Proof.Machine.execPrefetchRecord ix s
  | .prefetchDeadline ix => Sys2Proof.Machine.execPrefetchDeadline ix s
  | .poolPop part pool => Sys2Proof.Machine.execPoolPop part pool s
  | .slotEnd inst => Sys2Proof.Machine.execSlotEnd inst s
  | .spillContext core => Sys2Proof.Machine.execSpillContext core s
  | .frontComplete front => Sys2Proof.Machine.execFrontComplete front s
  | .illegalWord ws cause => Sys2Proof.Machine.execIllegalWord ws cause s
  | .fetchFault code cause va => Sys2Proof.Machine.execFetchFault code cause va s
  | .allowanceRefill => Sys2Proof.Machine.execAllowanceRefill s
  | .ackReceive => Sys2Proof.Machine.execAckReceive s
  | .requestPacketReceive => Sys2Proof.Machine.execRequestPacketReceive s
  | .incarnationNotice => Sys2Proof.Machine.execIncarnationNotice s
  | .requestTimeout => Sys2Proof.Machine.execRequestTimeout s
  | .planeFail => Sys2Proof.Machine.execPlaneFail s
  | .quiesceNotice => Sys2Proof.Machine.execQuiesceNotice s
  | .remapWrite => Sys2Proof.Machine.execRemapWrite s
  | .dommaskWrite => Sys2Proof.Machine.execDommaskWrite s
  | .dropincRead => Sys2Proof.Machine.execDropincRead s
  | .lqownWrite => Sys2Proof.Machine.execLqownWrite s
  | .lqEntryArrival => Sys2Proof.Machine.execLqEntryArrival s
  | .governorInterval => Sys2Proof.Machine.execGovernorInterval s
  | .poolPush => Sys2Proof.Machine.execPoolPush s
  | .scheduleTick => Sys2Proof.Machine.execScheduleTick s
  | .scheduleEntryWrite => Sys2Proof.Machine.execScheduleEntryWrite s
  | .frontCreate => Sys2Proof.Machine.execFrontCreate s
  | .gustPlace => Sys2Proof.Machine.execGustPlace s
  | .bar4Access => Sys2Proof.Machine.execBar4Access s
  | .hostWindowAccess => Sys2Proof.Machine.execHostWindowAccess s
  | .preset => Sys2Proof.Machine.execPreset s
  | .watchdogExpire => Sys2Proof.Machine.execWatchdogExpire s
  | .powerOn => Sys2Proof.Machine.execPowerOn s
  | .pcieFundamentalReset => Sys2Proof.Machine.execPcieFundamentalReset s
  | .pcieHotReset => Sys2Proof.Machine.execPcieHotReset s
  | .vfFlr => Sys2Proof.Machine.execVfFlr s
  | .pfFlr => Sys2Proof.Machine.execPfFlr s
  | .thermalTrip => Sys2Proof.Machine.execThermalTrip s
  | .supplyFaultTrip => Sys2Proof.Machine.execSupplyFaultTrip s
  | .securityViolation => Sys2Proof.Machine.execSecurityViolation s
  | .fatalInternalError => Sys2Proof.Machine.execFatalInternalError s
  | .hbmEccError => Sys2Proof.Machine.execHbmEccError s
  | .hbfReadError => Sys2Proof.Machine.execHbfReadError s
  | .coreSramError => Sys2Proof.Machine.execCoreSramError s
  | .dieLinkError => Sys2Proof.Machine.execDieLinkError s
  | .pcieLinkError => Sys2Proof.Machine.execPcieLinkError s
  | .ptpSync => Sys2Proof.Machine.execPtpSync s
  | .ptpHoldover => Sys2Proof.Machine.execPtpHoldover s
  | .dbgacc => Sys2Proof.Machine.execDbgacc s
  | .dbgenWrite => Sys2Proof.Machine.execDbgenWrite s
  | .dbgTargetWrite => Sys2Proof.Machine.execDbgTargetWrite s
  | .dbgstatWrite => Sys2Proof.Machine.execDbgstatWrite s
  | .haltFront => Sys2Proof.Machine.execHaltFront s
  | .resumeFront => Sys2Proof.Machine.execResumeFront s
  | .stepGust => Sys2Proof.Machine.execStepGust s
  | .readWindowWord => Sys2Proof.Machine.execReadWindowWord s
  | .writeWindowWord => Sys2Proof.Machine.execWriteWindowWord s
  | .resetPartition => Sys2Proof.Machine.execResetPartition s
  | .resetPackage => Sys2Proof.Machine.execResetPackage s
  | .drainFront => Sys2Proof.Machine.execDrainFront s
  | .instgo => Sys2Proof.Machine.execInstgo s
  | .attgo => Sys2Proof.Machine.execAttgo s
  | .attParamWrite => Sys2Proof.Machine.execAttParamWrite s
  | .feataccWrite => Sys2Proof.Machine.execFeataccWrite s
  | .registerWrite => Sys2Proof.Machine.execRegisterWrite s
  | .receivedCountReport => Sys2Proof.Machine.execReceivedCountReport s
  | .remapAnswerTimeout => Sys2Proof.Machine.execRemapAnswerTimeout s
  | .supplyRailRecovery => Sys2Proof.Machine.execSupplyRailRecovery s
  | .thermalTripRecovery => Sys2Proof.Machine.execThermalTripRecovery s
  | .installationComplete => Sys2Proof.Machine.execInstallationComplete s
  | .attestationReportWritten => Sys2Proof.Machine.execAttestationReportWritten s

end Sys2Proof.Machine
end

