-- ==== Sys2Proof/Machine/Turns.lean ====
section
/-! DEFINITION. What a step is about (spec/11 R323, spec/95): the group that a slot issues, the turn that the machine takes when
the outside has chosen none, and a small program placed for the first step. -/

namespace Sys2Proof.Machine

/-! ## A group issues -/


/-- The state in which slot b of gust k issues: the quadrant's rotation has moved on, and a debugger step is used up. -/
def State.issuing (s : State) (k : Nat) (b : Bool) (g : Gust) : State :=
  let s1 := ((s.rotate k b).setGust k { g with stepOnce := false, nextB := !b }).stepDone g
  { s1 with cur := k, curB := b }

/-- The instruction that a slot issues, with the state after its fetch (R71, R72). -/
def State.issue (s : State) (k : Nat) (b : Bool) (g : Gust) : State × Instr := (s.issuing k b g).fetchInstr k b

/-! ## What the outside has done before a step -/

/-- Bytes of other packages that their own programs have written. -/
def State.takePeerMem (s : State) (xs : List (Nat × Byte)) : State :=
  { s with mem := xs.foldl (fun m x => if peerOf x.1 = s.self then m else memSet m x.1 x.2) s.mem }

/-- Lines of other packages that carry poison, or no longer do (R165). -/
def State.takePeerPoison (s : State) (xs : List (Nat × Bool)) : State :=
  { s with poison := xs.foldl (fun ps x =>
      if peerOf (x.1 * 128) = s.self then ps else if x.2 then setAdd ps x.1 else ps.filter (· != x.1)) s.poison }

/-- Whether configuration space admits a setting (R348). -/
def configOk (c : PciConfig) : Bool := decide (c.vfs ≤ 16) && c.bar4.all fun n => decide (30 ≤ n) && decide (n ≤ 40)

/-- A configuration of the host: while a reset runs its accesses are answered with Configuration Request Retry Status and
change nothing (R382). -/
def State.takeConfig (s : State) (c : Option PciConfig) : State :=
  match c with
  | some c => if configOk c && !s.inReset then { s with hub := { s.hub with config := c } } else s
  | none => s

/-- A soft error in register n of a gust or of its twin (R372, R373): the stored bits change, the tag does not. -/
def Gust.flipped (g : Gust) (n : Nat) (xs : List Word) : Gust :=
  let v : Val := match tabGetD g.regs n (.u 0) with
    | .g _ => .g (column (laneGet xs))
    | .u _ => .u (laneGet xs 0)
    | .l _ _ => .l (laneGet xs 0) (laneGet xs 1)
    | .d r us => .d r us
  { g with regs := tabSet g.regs n v }

/-- Soft errors in twinned gusts: (key, whether in the twin, register, stored words). -/
def State.takeSoft (s : State) (xs : List (Nat × Bool × Nat × List Word)) : State :=
  xs.foldl (fun t x =>
    match t.gust? x.1, tabGet? t.twins x.1 with
    | some g, some h =>
      if x.2.1 != t.twinRun then { t with twins := tabSet t.twins x.1 (h.flipped x.2.2.1 x.2.2.2) } else t.setGust x.1 (g.flipped x.2.2.1 x.2.2.2)
    | _, _ => t) s

/-- What the outside has done before a step of its choice: memory of other packages, configuration, soft errors. -/
def State.outside (s : State) : State :=
  (((s.takePeerMem s.input.peerMem).takePeerPoison s.input.peerPoison).takeConfig s.input.config).takeSoft s.input.soft

/-! ## The machine's own turns -/

/-- The steps of gusts that stand open. -/
def State.gustTurns (s : State) : List Instr :=
  s.gusts.flatMap fun e =>
    (if e.2.retiring then [.gustRetire e.1] else [])
    ++ (if e.2.pending ≠ 0 then [.pendingEntryComplete e.1] else [])
    ++ ((List.range 8).filterMap fun n => if (e.2.syms.getD n {}).state = 1 then some (.driftArrival e.1 n) else none)
    ++ ([false, true].filterMap fun b => match (e.2.slot b).wait with
        | some (.reply _) => some (.loadReply e.1 b)
        | some (.form f) => if f.arrived then none else some (.loadReply e.1 b)
        | some (.dlwait ..) => some (.dlwaitDeadline e.1 b)
        | _ => none)
    ++ (e.2.posted.map fun p => .postedCompletion e.1 p.id)

/-- The step by which a started command takes effect. -/
def commandTurn (key : Nat) (x : Started) : Instr :=
  let n := x.cmd.num
  if x.done then .commandComplete key n
  else
    match cmdField x.cmd.bytes 0 1 with
    | 0x01 => .mxtask key n
    | 0x02 => .mxconv key n
    | 0x10 => .cpy key n
    | 0x11 => .cpy2d key n
    | 0x12 => .gather key n
    | 0x13 => .scatter key n
    | 0x14 => .fill key n
    | 0x15 => .reqnt key n
    | 0x16 => .xpose key n
    | 0x17 => .hostfl key n
    | 0x18 => .ringx key n
    | 0x19 => .lqfwd key n
    | 0x20 => .migrate key n
    | _ => .graphpost key n

/-- The steps of engines that stand open. -/
def State.engineTurns (s : State) : List Instr :=
  (s.engs.flatMap fun e =>
    (if e.2.queue.isEmpty || e.2.cls == 0 then [] else [.commandStart e.1])
      ++ (if e.2.cls = 0 then e.2.queue.flatMap fun c => [.maskHoldRelease e.1 c.num, .maskDeadline e.1 c.num] else [])
      ++ e.2.started.map (commandTurn e.1))
  ++ (s.cores.flatMap fun c => if c.2.tasks.isEmpty && c.2.requeue.isEmpty then [] else [.taskIssue c.1])

/-- The steps of fronts, instances and banks that stand open. -/
def State.frontTurns (s : State) : List Instr :=
  (s.fronts.flatMap fun e => (e.2.posted.map fun p => .postedCompletion 0 p.id) ++ [.frontComplete e.1])
    ++ [.gustPlace, .frontCreate]
    ++ (s.insts.map fun e => .slotEnd e.1)
    ++ (s.cores.map fun c => .spillContext c.1)
    ++ (s.hub.pfRecs.flatMap fun e => [.prefetchRecord e.1, .prefetchDeadline e.1])
    ++ (s.cores.flatMap fun c => (List.range c.2.wcb.length).map fun i => .wcAgeDrain c.1 i)

/-- A step that reads nothing of the outside. -/
def quietInput : Input := { count := 0 }

/-- The steps that a number names: a die's or a queue's. -/
def State.numberedTurns (s : State) : List (Instr × Input) :=
  ((List.range 4).flatMap fun d => (List.range 16).map fun q => (.leaveGrant d, { which := q }))
    ++ (s.hub.lq.map fun e => (.lqEntryArrival, { which := e.1 }))
    ++ (List.range 16).flatMap fun q => (s.part q).listed.map fun x => (.oldestAdvance q x.asid, quietInput)

/-- The steps that the machine may take by itself, in the order in which they are tried. -/
def State.ownTurns (s : State) : List (Instr × Input) :=
  ((s.gustTurns ++ s.engineTurns ++ s.frontTurns).map fun i => (i, quietInput)) ++ s.numberedTurns

/-- The position that the machine lets issue: the first quadrant, from one that moves on with every turn, that has one. -/
def State.ownIssue (s : State) : Option (Nat × Bool) :=
  let cores := (s.gusts.filterMap fun e => if inActive e.1 then some (coreOf e.1) else none).dedup
  let quads := cores.flatMap fun c => [0, 1, 2, 3].map fun q => (c, q)
  let n := quads.length
  ((quads.drop (s.turn % (n + 1)) ++ quads).findSome? fun p => (s.choose p.1 p.2).map fun x => (keyAt p.1 p.2 (x / 2), x % 2 == 1))

/-! ## A program for the first step -/

/-- A write of a 64-bit word of own memory. -/
def State.pokeWord (s : State) (pa v : Nat) : State := s.hubWrite (s.own pa) (bytesOf 8 v)

/-- Page tables of address space 0 of partition 0 (R289 to R292): VA 0x40_0000 read and execute, VA 0x41_0000 read and
write. -/
def State.withTables (s : State) : State :=
  let peer := s.self * 2 ^ 44
  (((((((s.pokeWord (asRec 0 0) 0x10001).pokeWord 0x10000 0x12001).pokeWord 0x12000 0x14001).pokeWord 0x14000 0x16001).pokeWord
    0x16020 0x18001).pokeWord 0x18000 (0x400113 + peer)).pokeWord 0x18010 (0x410107 + peer)).pokeWord 0x10008 0

/-- The front of the placed program. -/
def placedFront : Front :=
  { frontId := 0, part := 0, asid := 0, inst := 0, node := 0, die := some 0, alloc := 128, gbud := 128, placed := 1,
    entry := 0x400000, uvec := 0x400100, svec := 0x400200 }

/-- The gust of the placed program. -/
def placedGust : Gust :=
  { gustId := 0, front := 0, a := { pc := 0x400000, mask := 0xFFFFFFFF }, alloc := 128, gbud := 128, lmask := 0xFFFFFFFF,
    frame := 0x410000 }

/-- The bytes of an instruction placed at 0x40_0000 of a gust in slot 0 of core 0, which issues next (log 12). -/
def State.withProgram (s : State) (bs : List Byte) : State :=
  let s1 := (s.withTables).hubWrite (s.own 0x400000) bs
  let c := s1.core 0
  let d := s1.die 0
  let s2 := (((s1.setCore 0 { c with tlb := [], icache := [] }).setDie 0 { d with tlb := [] }).setFront 0 placedFront).setGust 0
    placedGust
  { s2 with
    inReset := false
    hub := { s2.hub with domMask := s2.hub.domMask ||| BitVec.ofNat 64 (2 ^ s2.self) }
    sec := { s2.sec with featSet := s2.sec.featSet ||| 0xFFF, featLock := true }
    poison := []
    agenda := [.issue 0 false] }

end Sys2Proof.Machine
end

