-- ==== Sys2Proof/Machine/Step.lean ====
section
/-! DEFINITION. One step of the machine: the turn at the head of the agenda, or one of the machine's own. -/

namespace Sys2Proof.Machine

/-- A position issues its group (R323): refused unless it is the one that its quadrant chooses. -/
def issueTurn (k : Nat) (b : Bool) (s : State) : Outcome :=
  match s.gust? k with
  | none => .refused .noSuchEvent
  | some g =>
    if g.entryDue k && !(s.resuming k g) then .next (s.entryTurn k g)
    else if !(s.chosen k b) then .refused .noSuchEvent
    else exec (s.issue k b g).2 (s.issue k b g).1

/-- A step of the outside's choice happens. -/
def eventTurn (i : Instr) (s : State) : Outcome := exec i s.outside

/-- The first of the machine's own steps that can happen. -/
def ownEvent (s : State) : Option State :=
  s.ownTurns.findSome? fun p =>
    match exec p.1 { s with input := p.2 } with
    | .next t => some t
    | _ => none

/-- The machine's own turn (log 5): a group issues, an open step happens, or a tick passes. -/
def ownTurn (s : State) : Outcome :=
  let s1 := { s with turn := s.turn + 1 }
  if s.turn % 64 = 63 then exec .scheduleTick s1
  else
    match (if s.turn % 4 = 3 then none else s1.ownIssue) with
    | some (k, b) => issueTurn k b s1
    | none =>
      match ownEvent s1, s1.ownIssue with
      | some t, _ => .next t
      | none, some (k, b) => issueTurn k b s1
      | none, none => exec .scheduleTick s1

/-- One turn: the one at the head of the agenda, or one of the machine's own. -/
def turn (s : State) : Outcome :=
  match s.agenda with
  | .issue k b cut :: rest => issueTurn k b { s with agenda := rest, cut := cut }
  | .event i x :: rest => eventTurn i { s with agenda := rest, input := x, cut := false }
  | [] => ownTurn { s with cut := false }

/-- One step: a turn, for the gusts and their twins (R372). -/
def step (s : State) : Outcome := twinned turn s

/-- The state with an instruction stored where the next step fetches it (log 12): nbits bits of w, the rest 0. -/
def State.withFetchWord (s : State) (nbits w : Nat) : State := s.withProgram (bytesOf 12 (w % 2 ^ nbits))

end Sys2Proof.Machine
end

