-- ==== Sys2Proof/Safety.lean ====
section
/-! DEFINITION. The terms of the claims: a group that issues without one of the faults of R359, what a completed group
changes and what it leaves alone, and the invariants of a run. -/

namespace Sys2Proof.Machine

/-! ## A group issues -/

/-- The gust at the current position issues a group that none of FLT.ILLEGAL, FLT.WINDOW and FLT.LATCH stops (R359); when it is
twinned, its twin would send the same (R373). It takes its own operands: it is no twin whose access is its primary's (R372). -/
structure Issues (i : Instr) (s : State) (g : Gust) : Prop where
  here : s.gust? s.cur = some g
  legal : preFault i s g s.curB = none
  agree : (mkCtx i g s.curB).twinsDiffer s s.cur = false
  own : s.leadOf i g = g

/-- The write mask of the group: Active() (R22). -/
def active (i : Instr) (s : State) (g : Gust) : Word := (mkCtx i g s.curB).wm

/-- The address of the next group (R72). -/
def nextPc (i : Instr) (s : State) (g : Gust) : BitVec 56 := (mkCtx i g s.curB).next

/-- The slot does not come to its join when it goes on at pc: Settle then changes nothing (R125). -/
abbrev StaysApart (s : State) (g : Gust) (pc : BitVec 56) : Prop :=
  (g.slot s.curB).mask ≠ 0 ∧ ((g.slot s.curB).join = 0 ∨ pc ≠ (g.slot s.curB).join)

/-- No operand of the group is a drift record (R30). -/
abbrev NoDrift (i : Instr) (s : State) (g : Gust) : Prop := g.driftOf s.curB i = none

/-- The general storage has room for the registers that a group writes (R25): GBUD leaves as many, or each of them counts
already or lies in the trap bank. -/
abbrev Room (g : Gust) (ds : List Nat) : Prop :=
  g.gcnt + ds.length ≤ g.gbud ∨ ∀ n ∈ ds, ((g.reg n).wide = true ∨ g.inTrapBank n = true)

/-- A group of an instruction that writes one register, ready to complete: no fault before its rule, plain operands, room
for its result, and no join at its next group. -/
structure ReadyReg (i : Instr) (s : State) (g : Gust) (w : BitVec 1) (d : BitVec 7) : Prop where
  issues : Issues i s g
  plain : NoDrift i s g
  apart : StaysApart s g (nextPc i s g)
  room : w = 1 ∨ Room g [d.toNat]

/-- As ReadyReg, for a group that writes a pair. -/
structure ReadyPair (i : Instr) (s : State) (g : Gust) (d : BitVec 7) : Prop where
  issues : Issues i s g
  plain : NoDrift i s g
  apart : StaysApart s g (nextPc i s g)
  room : Room g [d.toNat, d.toNat + 1]

/-- As ReadyReg, for a group that writes a mask register. -/
structure ReadyMask (i : Instr) (s : State) (g : Gust) : Prop where
  issues : Issues i s g
  plain : NoDrift i s g
  apart : StaysApart s g (nextPc i s g)
  seven : g.masks.length = 7

/-! ## What a group leaves alone -/

/-- Only gusts change: every other field of the state is kept, all of memory among them, and so is every other gust. -/
def OnlyGust (s t : State) : Prop := t = { s with gusts := t.gusts } ∧ ∀ k, k ≠ s.cur → t.gust? k = s.gust? k

/-- XDONE after a group that has performed its lanes (R193): in a replay those that it left out and Active(), if the
instruction is one whose lanes XDONE counts. -/
def doneAfter (i : Instr) (s : State) (g : Gust) : Word :=
  match g.replayOf s.curB with
  | some d => if countsLanes i then d ||| active i s g else g.xdone
  | none => g.xdone

/-- The replays that a gust owes after a group of the slot: those of the other slot (R149). -/
def replayAfter (s : State) (g : Gust) : List (Bool × Word) := g.replay.filter fun e => e.1 != s.curB

/-- The slot goes on at pc with its mask and join, and the other slot is as it was. -/
def GoesOn (s : State) (g h : Gust) (pc : BitVec 56) : Prop :=
  (h.slot s.curB).pc = pc ∧ (h.slot s.curB).mask = (g.slot s.curB).mask ∧ (h.slot s.curB).join = (g.slot s.curB).join
    ∧ (h.slot s.curB).wait = none ∧ h.slot (!s.curB) = g.slot (!s.curB)

/-- The latches of the slot have shifted by one (R18). -/
def Shifted (s : State) (g h : Gust) : Prop :=
  ∀ n, 1 ≤ n → n ≤ 7 → (h.slot s.curB).latch (n + 1) = (g.slot s.curB).latch n

/-- Every register but those of ds is as it was (by window-relative number), and no capability tag has been set. -/
def RegsKept (g h : Gust) (ds : List Nat) : Prop :=
  (∀ n, n ∉ ds → h.reg n = g.reg n) ∧ ∀ n, h.capTag n = true → g.capTag n = true

/-- Of the gust nothing has changed but its slots and its registers: not its masks, flags, X registers, stack depth,
window, symbols, memberships or posted operations. A replay of the slot has ended (R149), with XDONE as R193 has it. -/
def GustKept (i : Instr) (s : State) (g h : Gust) : Prop :=
  h = { g with a := h.a, b := h.b, regs := h.regs, trapBank := h.trapBank, capTags := h.capTags,
               trapCapTags := h.trapCapTags, replay := replayAfter s g, xdone := doneAfter i s g }

/-- As GustKept, and sticky flags with XFPC and XDEST may have changed as well. -/
def GustKeptButFlags (i : Instr) (s : State) (g h : Gust) : Prop :=
  h = { g with a := h.a, b := h.b, regs := h.regs, trapBank := h.trapBank, capTags := h.capTags,
               trapCapTags := h.trapCapTags, replay := replayAfter s g, xdone := doneAfter i s g, fNX := h.fNX, fUF := h.fUF,
               fOF := h.fOF, fDZ := h.fDZ, fNV := h.fNV, xfpc := h.xfpc, xdest := h.xdest }

/-- Of the gust nothing has changed but its slots: no register, mask, flag or X register but XDONE after a replay. -/
def SlotsOnly (i : Instr) (s : State) (g h : Gust) : Prop :=
  h = { g with a := h.a, b := h.b, replay := replayAfter s g, xdone := doneAfter i s g }

/-! ## Shape tags and GCNT -/

/-- 1 (U) when every value of a list is uniform, else 0 (G). -/
def uniformTag (vs : List Val) : Nat := if vs.all fun v => v.tag == 1 then 1 else 0

/-- The tag of IADD, ISUB and IADDI by those of their inputs (R23): U of all U, L of L with U or L, else G. -/
def sumTag (vs : List Val) : Nat :=
  if vs.all fun v => v.tag == 1 then 1 else if vs.all fun v => v.tag == 1 || v.tag == 2 then 2 else 0

/-- The tag of IMUL, or of a shift by b when sh (R23): U of all U, L of L with U, else G. -/
def productTag (sh : Bool) (a b : Val) : Nat :=
  if a.tag = 1 ∧ b.tag = 1 then 1
  else if (a.tag = 2 ∧ b.tag = 1) ∨ (!sh ∧ a.tag = 1 ∧ b.tag = 2) then 2 else 0

/-- The tag of IMAD (R23): L of (L·U or U·L) plus U or L. -/
def madTag (a b d : Val) : Nat :=
  if a.tag = 1 ∧ b.tag = 1 ∧ d.tag = 1 then 1
  else if ((a.tag = 2 ∧ b.tag = 1) ∨ (a.tag = 1 ∧ b.tag = 2)) ∧ (d.tag = 1 ∨ d.tag = 2) then 2 else 0

/-- The tag that a full write gives the result of an instruction on plain operands (R23, Table 5; R103, R112, R114, R115,
R133, R157, R158, R39): 0 G, 1 U, 2 L. A status or count for which the spec names no tag is U (log 66). -/
def fullTag (i : Instr) (s : State) (g : Gust) : Nat :=
  let src := fun (f : BitVec 7) => g.src s.curB f.toNat
  let reg := fun (n : Nat) => g.reg n
  let pair := fun (f : BitVec 7) => [g.reg f.toNat, g.reg (f.toNat + 1)]
  match i with
  | .iadd _ f | .isub _ f => sumTag [src f.sa, src f.sb]
  | .iaddi _ f => sumTag [src f.sa]
  | .imul _ f => productTag false (src f.sa) (src f.sb)
  | .imad _ f => madTag (src f.sa) (src f.sb) (reg f.d.toNat)
  | .shl _ f => productTag true (src f.sa) (src f.sb)
  | .shli _ f => productTag true (src f.sa) (.u 0)
  | .imulh _ f | .imulhn _ f | .imin _ f | .imax _ f | .iminn _ f | .imaxn _ f | .and _ f | .or _ f | .xor _ f | .andn _ f
  | .shr _ f | .sar _ f | .rotl _ f | .bfx _ f | .bfxs _ f | .fadd _ f | .fsub _ f | .fmul _ f | .fmin _ f | .fmax _ f
  | .fscale _ f | .cvti4 _ f => uniformTag [src f.sa, src f.sb]
  | .iabs _ f | .popc _ f | .clz _ f | .ctz _ f | .brev _ f | .frnd _ f | .frcp _ f | .frsq _ f | .fsqrt _ f | .fexp2 _ f
  | .flog2 _ f | .ftanh _ f | .fsigm _ f | .fabs _ f | .fneg _ f | .fclass _ f | .cvtfi _ f | .cvtfiN _ f | .cvtif _ f
  | .cvtifN _ f | .cvtbf _ f | .cvtfb _ f | .cvte4 _ f | .cvte4f _ f | .radd _ f | .raddF _ f | .rmax _ f | .rmaxN _ f
  | .rmaxF _ f | .rmin _ f | .rminN _ f | .rminF _ f => uniformTag [src f.sa]
  | .andi _ f | .ori _ f | .xori _ f => uniformTag [src f.sa]
  | .shri _ f | .sari _ f => uniformTag [src f.sa]
  | .sel _ f | .bfi _ f | .ffma _ f => uniformTag [src f.sa, src f.sb, reg f.d.toNat]
  | .add64 _ f | .sub64 _ f => uniformTag (pair f.sa ++ pair f.sb)
  | .mad64 _ f => uniformTag (src f.sa :: src f.sb :: pair f.d)
  | .add64i _ f => uniformTag (pair f.sa)
  | .scana _ f => if (src f.sa).tag = 1 then 2 else 0
  | .capchk _ f => uniformTag (src f.sb :: (List.range 4).map fun j => reg (f.sa.toNat + j))
  | .mkl .. => 2
  | .mfs _ f => if f.off = 0 ∧ !g.renumbered then 2 else if f.off ∈ [0x000, 0x008, 0x012] then 0 else 1
  | .scanaF .. | .mkg .. | .shflIdx .. | .shflUp .. | .shflDown .. | .shflXor .. | .qplane .. | .hadx .. | .dqx .. | .rand ..
  | .voteRank .. | .ld .. | .ldraw .. | .ldx .. | .spld .. | .ldlk .. | .atomr .. | .atomrXchg .. | .atomrCas .. | .atomrAdd64 ..
  | .atomrXchg64 .. | .atomrCas64 .. | .kvg .. | .kvrm .. | .kvav .. => 0
  | _ => 1

/-- The tag that a register of a value has after a write under a mask m (R22, R24): as it was under an empty one, G after a
partial one, full after a full one. -/
def tagAfter (g : Gust) (m : Word) (full : Nat) (old : Val) : Nat :=
  if m = 0 then old.tag else if m = g.lmask then full else 0

/-- Whether GCNT counts a register by its tag alone (R25): it is not of the trap bank, and no REGROUP has reserved it. -/
def countsByTag (g : Gust) (n : Nat) : Bool := !g.inTrapBank n && !g.reserved (g.wb + n)

/-- GCNT after a write of the registers ds (R25): it has risen by those that have become G or D and fallen by those that no
longer are. -/
def GcntFollows (g h : Gust) (ds : List Nat) : Prop :=
  keysFrom 0 g.regs = true →
  h.gcnt + (ds.filter fun n => countsByTag g n && (g.reg n).wide && !(h.reg n).wide).length
    = g.gcnt + (ds.filter fun n => countsByTag g n && !(g.reg n).wide && (h.reg n).wide).length

/-- The registers ds have been written under a mask m with a result whose full write has tag full: their tags (R22 to R24) and
GCNT (R25). -/
def TagsFollow (g h : Gust) (m : Word) (full : Nat) (ds : List Nat) : Prop :=
  (∀ n ∈ ds, (h.reg n).tag = tagAfter g m full (g.reg n)) ∧ GcntFollows g h ds

/-! ## What a group does -/

/-- Lane l of the source operand of a field: 0 outside LMASK (R8, R17, R21). -/
def operand (s : State) (g : Gust) (f : BitVec 7) (l : Nat) : Word := g.lane (g.src s.curB f.toNat) l

/-- Lane l of the register that a field names. -/
def regLane (g : Gust) (f : BitVec 7) (l : Nat) : Word := g.lane (g.reg f.toNat) l

/-- Lane l of the pair that a field names (R16). -/
def pairLane64 (g : Gust) (f : BitVec 7) (l : Nat) : DWord :=
  DWord.mk (g.lane (g.reg (f.toNat + 1)) l) (g.lane (g.reg f.toNat) l)

/-- A group completes as a plain instruction with one register result (R18, R43, R93): in the lanes of Active() the result
is op, in every other lane of LMASK it is what the register held; with W = 1 only L1 takes it. Its tag and GCNT are as R22 to
R25 say. -/
def WritesReg (i : Instr) (s : State) (g : Gust) (w : BitVec 1) (d : BitVec 7) (op : Nat → Word) : Prop :=
  ∃ t h v, exec i s = .next t ∧ t.gust? s.cur = some h ∧ OnlyGust s t ∧ GoesOn s g h (nextPc i s g) ∧ Shifted s g h
    ∧ GustKept i s g h ∧ RegsKept g h (if w = 1 then [] else [d.toNat])
    ∧ (h.slot s.curB).latch 1 = .val v ∧ (w ≠ 1 → h.reg d.toNat = v)
    ∧ (∀ l, inMask g.lmask l → v.lane l = if inMask (active i s g) l then op l else regLane g d l)
    ∧ v.tag = tagAfter g (active i s g) (fullTag i s g) (g.reg d.toNat) ∧ GcntFollows g h (if w = 1 then [] else [d.toNat])

/-- XDEST's code of a register destination (R145). -/
def destOf (g : Gust) (n : Nat) : Word := BitVec.ofNat 32 (if g.inTrapBank n then 0x3E0 + n else g.wb + n)

/-- A group whose lanes of Active() raise flags fl is the first to set one while all flags of LMASK are clear (R145). -/
def setsFirst (i : Instr) (s : State) (g : Gust) (fl : Nat → Fl) : Bool :=
  (lanes.all fun l => !inMask g.lmask l || !(inMask g.fNX l || inMask g.fUF l || inMask g.fOF l || inMask g.fDZ l || inMask g.fNV l))
    && lanes.any fun l => inMask (active i s g) l && (fl l).any

/-- Each sticky flag of each lane of Active() is or-ed with what fl gives, and no other flag changes (R36); XFPC and XDEST take
the group and its destination's code when it is the first to set a flag, and keep what they hold otherwise (R145). (A lane
of Active() outside LMASK, which no gust has, is left out.) -/
def FlagsRaised (i : Instr) (s : State) (g h : Gust) (dest : Word) (fl : Nat → Fl) : Prop :=
  (h.xfpc = if setsFirst i s g fl then (g.slot s.curB).pc.zeroExtend 64 else g.xfpc)
  ∧ (h.xdest = if setsFirst i s g fl then dest else g.xdest)
  ∧ ∀ l, l < 32 → (inMask g.lmask l = true ∨ inMask (active i s g) l = false) →
    inMask h.fNX l = (inMask g.fNX l || (inMask (active i s g) l && (fl l).nx))
    ∧ inMask h.fUF l = (inMask g.fUF l || (inMask (active i s g) l && (fl l).uf))
    ∧ inMask h.fOF l = (inMask g.fOF l || (inMask (active i s g) l && (fl l).ovf))
    ∧ inMask h.fDZ l = (inMask g.fDZ l || (inMask (active i s g) l && (fl l).dz))
    ∧ inMask h.fNV l = (inMask g.fNV l || (inMask (active i s g) l && (fl l).nv))

/-- As WritesReg, for an instruction that may set sticky flags (R36). -/
def WritesRegFlags (i : Instr) (s : State) (g : Gust) (w : BitVec 1) (d : BitVec 7) (op : Nat → Word) (fl : Nat → Fl) : Prop :=
  ∃ t h v, exec i s = .next t ∧ t.gust? s.cur = some h ∧ OnlyGust s t ∧ GoesOn s g h (nextPc i s g) ∧ Shifted s g h
    ∧ GustKeptButFlags i s g h ∧ RegsKept g h (if w = 1 then [] else [d.toNat])
    ∧ (h.slot s.curB).latch 1 = .val v ∧ (w ≠ 1 → h.reg d.toNat = v)
    ∧ (∀ l, inMask g.lmask l → v.lane l = if inMask (active i s g) l then op l else regLane g d l)
    ∧ v.tag = tagAfter g (active i s g) (fullTag i s g) (g.reg d.toNat) ∧ GcntFollows g h (if w = 1 then [] else [d.toNat])
    ∧ FlagsRaised i s g h (if w = 1 then 0x3FE else destOf g d.toNat) fl

/-- A group completes with n registers from d up as its result: register d + j holds op j. -/
def WritesRun (i : Instr) (s : State) (g : Gust) (d : BitVec 7) (n : Nat) (op : Nat → Nat → Word) (fl : Nat → Fl) : Prop :=
  ∃ t h, exec i s = .next t ∧ t.gust? s.cur = some h ∧ OnlyGust s t ∧ GoesOn s g h (nextPc i s g) ∧ Shifted s g h
    ∧ GustKeptButFlags i s g h ∧ RegsKept g h ((List.range n).map (d.toNat + ·))
    ∧ TagsFollow g h (active i s g) (fullTag i s g) ((List.range n).map (d.toNat + ·))
    ∧ (∀ j l, j < n → inMask g.lmask l → h.lane (h.reg (d.toNat + j)) l
        = if inMask (active i s g) l then op j l else g.lane (g.reg (d.toNat + j)) l)
    ∧ FlagsRaised i s g h (destOf g d.toNat) fl

/-- A group completes with a 64-bit result in a pair (R16). -/
def WritesPair (i : Instr) (s : State) (g : Gust) (d : BitVec 7) (op : Nat → DWord) : Prop :=
  ∃ t h, exec i s = .next t ∧ t.gust? s.cur = some h ∧ OnlyGust s t ∧ GoesOn s g h (nextPc i s g) ∧ Shifted s g h
    ∧ GustKept i s g h ∧ RegsKept g h [d.toNat, d.toNat + 1]
    ∧ TagsFollow g h (active i s g) (fullTag i s g) [d.toNat, d.toNat + 1]
    ∧ ∀ l, inMask g.lmask l → pairLane64 h d l = if inMask (active i s g) l then op l else pairLane64 g d l

/-- A group completes with a result in mask register d (R99): in the lanes of Active() that LMASK holds bit l is op, in the
others of LMASK it is kept, outside LMASK it is 0; no register changes. -/
def WritesMask (i : Instr) (s : State) (g : Gust) (d : BitVec 7) (op : Nat → Bool) : Prop :=
  ∃ t h, exec i s = .next t ∧ t.gust? s.cur = some h ∧ OnlyGust s t ∧ GoesOn s g h (nextPc i s g) ∧ Shifted s g h
    ∧ h = { g with a := h.a, b := h.b, masks := h.masks, replay := replayAfter s g }
    ∧ (∀ n, 1 ≤ n → n ≤ 7 → n ≠ d.toNat → h.maskReg n = g.maskReg n)
    ∧ ∀ l, l < 32 → inMask (h.maskReg d.toNat) l
        = (inMask g.lmask l && if inMask (active i s g) l then op l else inMask (g.maskReg d.toNat) l)

/-- As WritesMask, for a comparison that may set sticky flags. -/
def WritesMaskFlags (i : Instr) (s : State) (g : Gust) (d : BitVec 7) (op : Nat → Bool) (fl : Nat → Fl) : Prop :=
  ∃ t h, exec i s = .next t ∧ t.gust? s.cur = some h ∧ OnlyGust s t ∧ GoesOn s g h (nextPc i s g) ∧ Shifted s g h
    ∧ h = { g with a := h.a, b := h.b, masks := h.masks, replay := replayAfter s g, fNX := h.fNX, fUF := h.fUF, fOF := h.fOF,
                   fDZ := h.fDZ, fNV := h.fNV, xfpc := h.xfpc, xdest := h.xdest }
    ∧ (∀ n, 1 ≤ n → n ≤ 7 → n ≠ d.toNat → h.maskReg n = g.maskReg n)
    ∧ (∀ l, l < 32 → inMask (h.maskReg d.toNat) l
        = (inMask g.lmask l && if inMask (active i s g) l then op l else inMask (g.maskReg d.toNat) l))
    ∧ FlagsRaised i s g h (BitVec.ofNat 32 (0x200 + d.toNat)) fl

/-- A group completes with a whole mask register as its result (R133: BALLOT and ELECT). -/
def WritesWholeMask (i : Instr) (s : State) (g : Gust) (d : BitVec 7) (m : Nat → Bool) : Prop :=
  ∃ t h, exec i s = .next t ∧ t.gust? s.cur = some h ∧ OnlyGust s t ∧ GoesOn s g h (nextPc i s g) ∧ Shifted s g h
    ∧ h = { g with a := h.a, b := h.b, masks := h.masks, replay := replayAfter s g }
    ∧ (∀ n, 1 ≤ n → n ≤ 7 → n ≠ d.toNat → h.maskReg n = g.maskReg n)
    ∧ ∀ l, l < 32 → inMask (h.maskReg d.toNat) l = m l

/-- A control transfer completes at pc: the latches of the slot become empty (R19), no register, mask, flag or byte of
memory changes. -/
def Transfers (i : Instr) (s : State) (g : Gust) (pc : BitVec 56) : Prop :=
  ∃ t h, exec i s = .next t ∧ t.gust? s.cur = some h ∧ OnlyGust s t ∧ GoesOn s g h pc
    ∧ SlotsOnly i s g h ∧ ∀ n, 1 ≤ n → n ≤ 8 → (h.slot s.curB).latch n = .empty 1

/-! ## Other ways for a group to end -/

/-- The address of the group that issues. -/
def groupPc (s : State) (g : Gust) : BitVec 56 := (g.slot s.curB).pc

/-- All latches of the slot are empty, with cause 1 (R19, R20). -/
def NoLatches (s : State) (h : Gust) : Prop := ∀ n, 1 ≤ n → n ≤ 8 → (h.slot s.curB).latch n = .empty 1

/-- A group has its next state t, in which its gust h goes on at pc. -/
def Completes (i : Instr) (s : State) (g : Gust) (pc : BitVec 56) (t : State) (h : Gust) : Prop :=
  exec i s = .next t ∧ t.gust? s.cur = some h ∧ GoesOn s g h pc

/-- A group takes a fault or trap for its slot (R359 to R362), in state t. -/
def Traps (i : Instr) (s t : State) (r : TrapReq) : Prop := exec i s = .next (t.takeFault s.cur s.curB r)

/-- A fault of a group that names no address: XMASK is the mask of the slot (R362). -/
def plainTrap (s : State) (g : Gust) (code cause : Nat) : TrapReq :=
  { code := code, cause := cause, xmask := (g.slot s.curB).mask }

/-- A group waits: its slot takes wait w and nothing else changes; the group after it is noted (R325). -/
def WaitsFor (i : Instr) (s : State) (g : Gust) (w : Wait) : Prop :=
  ∃ t h, exec i s = .next t ∧ t.gust? s.cur = some h ∧ OnlyGust s t ∧ h = { g with a := h.a, b := h.b }
    ∧ h.slot s.curB = { g.slot s.curB with wait := some w, waitNext := nextPc i s g } ∧ h.slot (!s.curB) = g.slot (!s.curB)

/-- A yield point with one register result (R19, R93): as WritesReg, but the latches become empty. -/
def YieldsReg (i : Instr) (s : State) (g : Gust) (w : BitVec 1) (d : BitVec 7) (op : Nat → Word) : Prop :=
  ∃ t h, Completes i s g (nextPc i s g) t h ∧ OnlyGust s t ∧ NoLatches s h ∧ GustKept i s g h
    ∧ RegsKept g h (if w = 1 then [] else [d.toNat])
    ∧ TagsFollow g h (active i s g) (fullTag i s g) (if w = 1 then [] else [d.toNat])
    ∧ (w ≠ 1 → ∀ l, inMask g.lmask l → regLane h d l = if inMask (active i s g) l then op l else regLane g d l)

/-- A group that changes nothing but its own slot, whose latches shift (R18): L1 takes no value. -/
def Passes (i : Instr) (s : State) (g : Gust) : Prop :=
  ∃ t h, Completes i s g (nextPc i s g) t h ∧ OnlyGust s t ∧ Shifted s g h
    ∧ SlotsOnly i s g h

/-- A yield point with one register result (R19, R93) in a state u that its own rule has reached from s: nothing but the gust
changes from u on. -/
def Yields (i : Instr) (s : State) (g : Gust) (u : State) (w : BitVec 1) (d : BitVec 7) (op : Nat → Word) : Prop :=
  ∃ t h, Completes i s g (nextPc i s g) t h ∧ t = { u with gusts := t.gusts } ∧ (∀ k, k ≠ s.cur → t.gust? k = u.gust? k)
    ∧ NoLatches s h ∧ GustKept i s g h ∧ RegsKept g h (if w = 1 then [] else [d.toNat])
    ∧ TagsFollow g h (active i s g) (fullTag i s g) (if w = 1 then [] else [d.toNat])
    ∧ (w ≠ 1 → ∀ l, inMask g.lmask l → regLane h d l = if inMask (active i s g) l then op l else regLane g d l)

/-- As Yields, with a result in a pair (R16). -/
def YieldsPair (i : Instr) (s : State) (g : Gust) (u : State) (d : BitVec 7) (lo hi : Nat → Word) : Prop :=
  ∃ t h, Completes i s g (nextPc i s g) t h ∧ t = { u with gusts := t.gusts } ∧ (∀ k, k ≠ s.cur → t.gust? k = u.gust? k)
    ∧ NoLatches s h ∧ GustKept i s g h ∧ RegsKept g h [d.toNat, d.toNat + 1]
    ∧ TagsFollow g h (active i s g) (fullTag i s g) [d.toNat, d.toNat + 1]
    ∧ (∀ l, inMask g.lmask l → regLane h d l = if inMask (active i s g) l then lo l else regLane g d l)
    ∧ ∀ l, inMask g.lmask l → h.lane (h.reg (d.toNat + 1)) l
        = if inMask (active i s g) l then hi l else g.lane (g.reg (d.toNat + 1)) l

/-- As Yields, without a result: no register changes. -/
def YieldsNothing (i : Instr) (s : State) (g : Gust) (u : State) : Prop :=
  ∃ t h, Completes i s g (nextPc i s g) t h ∧ t = { u with gusts := t.gusts } ∧ (∀ k, k ≠ s.cur → t.gust? k = u.gust? k)
    ∧ NoLatches s h ∧ SlotsOnly i s g h

/-- As WritesReg, in a state u that the rule has reached from s: no yield point. -/
def PutsReg (i : Instr) (s : State) (g : Gust) (u : State) (w : BitVec 1) (d : BitVec 7) (op : Nat → Word) : Prop :=
  ∃ t h, Completes i s g (nextPc i s g) t h ∧ t = { u with gusts := t.gusts } ∧ (∀ k, k ≠ s.cur → t.gust? k = u.gust? k)
    ∧ Shifted s g h ∧ GustKept i s g h ∧ RegsKept g h (if w = 1 then [] else [d.toNat])
    ∧ TagsFollow g h (active i s g) (fullTag i s g) (if w = 1 then [] else [d.toNat])
    ∧ (w ≠ 1 → ∀ l, inMask g.lmask l → regLane h d l = if inMask (active i s g) l then op l else regLane g d l)

/-! ## What a translation and a store change -/

/-- Beside gusts only TLBs and the count of free choices have changed: all of memory is as it was. -/
def OnlyLooked (s t : State) : Prop :=
  t = { s with gusts := t.gusts, cores := t.cores, dies := t.dies, free := t.free }
    ∧ (∀ c, t.core c = { s.core c with tlb := (t.core c).tlb }) ∧ (∀ d, t.die d = { s.die d with tlb := (t.die d).tlb })
    ∧ ∀ k, k ≠ s.cur → t.gust? k = s.gust? k

/-- As OnlyLooked, and memory has changed in the bytes that p admits alone. A store clears memory tags and ends the
installation of a range that it overlaps (R190, R390); posted operations are numbered. -/
def OnlyStored (s t : State) (p : Nat → Prop) : Prop :=
  t = { s with gusts := t.gusts, cores := t.cores, dies := t.dies, free := t.free, mem := t.mem, memTags := t.memTags,
               sec := { s.sec with ranges := t.sec.ranges }, nextPosted := t.nextPosted }
    ∧ (∀ c, t.core c = { s.core c with tlb := (t.core c).tlb }) ∧ (∀ d, t.die d = { s.die d with tlb := (t.die d).tlb })
    ∧ (∀ k, k ≠ s.cur → t.gust? k = s.gust? k) ∧ ∀ a, ¬ p a → memGet t.mem a = memGet s.mem a

/-- Only gusts and counter n of a die's barrier unit have changed. -/
def OnlyCounter (s t : State) (die n : Nat) : Prop :=
  t = { s with gusts := t.gusts, dies := t.dies } ∧ (∀ d, t.die d = { s.die d with counters := (t.die d).counters })
    ∧ (∀ d m, (d ≠ die ∨ m ≠ n) → t.counter? d m = s.counter? d m)

/-- The cohort counter that a membership slot of a gust names: its die, its number and what it holds (R13, R134). -/
def counterOf (s : State) (g : Gust) (slot : Nat) : Option (Nat × Nat × Counter) :=
  (g.memberOf slot).bind fun i => (s.cohortCounter g i).bind fun p => (s.counter? p.1 p.2).map fun x => (p.1, p.2, x)

end Sys2Proof.Machine
end

