-- ==== Sys2Proof/Certificates/Slice0/Obligations.lean ====
section
/-! DEFINITION. The statements for the provers. Each says what an instruction, a step or the whole machine does, in the terms
of Sys2Proof/Safety.lean; its docstring names the rule of spec/ that it formalises. -/

namespace Sys2Proof.Claims

open Sys2Proof.Machine

/-! ## Tables of operations, written from the spec's tables -/

/-- A row of a table of two-source register instructions: the instruction and its lane function. -/
abbrev Row2 := (Pfx → RForm → Instr) × (Word → Word → Word)
/-- A row of a table of one-source register instructions. -/
abbrev Row1 := (Pfx → RForm → Instr) × (Word → Word)
/-- A row of a table of register instructions that read D as well. -/
abbrev Row3 := (Pfx → RForm → Instr) × (Word → Word → Word → Word)

/-- spec/04 Table 1, the rows of two sources (R96). -/
def arithRows : List Row2 :=
  [ (.iadd, fun a b => a + b), (.isub, fun a b => a - b), (.imul, fun a b => a * b),
    (.imulh, fun a b => BitVec.ofInt 32 (a.toInt * b.toInt / 2 ^ 32)),
    (.imulhn, fun a b => BitVec.ofNat 32 (a.toNat * b.toNat / 2 ^ 32)),
    (.imin, fun a b => if a.toInt ≤ b.toInt then a else b), (.imax, fun a b => if a.toInt ≤ b.toInt then b else a),
    (.iminn, fun a b => if a.toNat ≤ b.toNat then a else b), (.imaxn, fun a b => if a.toNat ≤ b.toNat then b else a) ]

/-- spec/04 Table 2, the rows of two sources (R97). -/
def logicRows : List Row2 :=
  [ (.and, fun a b => a &&& b), (.or, fun a b => a ||| b), (.xor, fun a b => a ^^^ b), (.andn, fun a b => a &&& ~~~b),
    (.shl, fun a b => if 32 ≤ b.toNat then 0 else a <<< b.toNat),
    (.shr, fun a b => if 32 ≤ b.toNat then 0 else BitVec.ofNat 32 (a.toNat / 2 ^ b.toNat)),
    (.sar, fun a b => if 32 ≤ b.toNat then (if a.toInt < 0 then 0xFFFFFFFF else 0)
      else BitVec.ofInt 32 (a.toInt / 2 ^ b.toNat)),
    (.rotl, fun a b => a.rotateLeft (b.toNat % 32)) ]

/-- spec/04 Table 2, the rows of one source (R97). -/
def bitRows : List Row1 :=
  [ (.popc, fun a => BitVec.ofNat 32 ((lanes.filter fun k => a.getLsbD k).length)),
    (.clz, fun a => BitVec.ofNat 32 (if a = 0 then 32 else 31 - Nat.log2 a.toNat)),
    (.ctz, fun a => BitVec.ofNat 32 (((lanes.find? fun k => a.getLsbD k)).getD 32)),
    (.brev, fun a => maskOf fun k => a.getLsbD (31 - k)) ]

/-- The position of a bit field: bits 4 to 0 of the control (R98). -/
def fieldPos (b : Word) : Nat := b.toNat % 32
/-- The effective width of a bit field: bits 13 to 8 of the control, cut at bit 31 (R98). -/
def fieldWidth (b : Word) : Nat := min (b.toNat / 256 % 64) (32 - fieldPos b)
/-- The field of a word that a control names, as a number (R98). -/
def fieldOf (a b : Word) : Nat := a.toNat / 2 ^ fieldPos b % 2 ^ fieldWidth b

/-- What BFI does to bit k of d (R98): bits p to p + w' − 1 come from the low bits of a. -/
def insertField (a b d : Word) : Word :=
  maskOf fun k => if fieldPos b ≤ k ∧ k < fieldPos b + fieldWidth b then a.getLsbD (k - fieldPos b) else d.getLsbD k

/-- BFX and BFXS (R98). -/
def fieldRows : List Row2 :=
  [ (.bfx, fun a b => BitVec.ofNat 32 (fieldOf a b)),
    (.bfxs, fun a b => if fieldWidth b = 0 then 0
      else if 2 ^ (fieldWidth b - 1) ≤ fieldOf a b then BitVec.ofInt 32 ((fieldOf a b : Int) - 2 ^ fieldWidth b)
      else BitVec.ofNat 32 (fieldOf a b)) ]

/-- The integer conditions of spec/03 Table 3 (R86), by their code. -/
def condHolds (n : Nat) (ua ub : Nat) (sa sb : Int) : Bool :=
  [decide (ua = ub), decide (ua ≠ ub), decide (sa < sb), decide (sa ≤ sb), decide (sb < sa), decide (sb ≤ sa),
   decide (ua < ub), decide (ua ≤ ub), decide (ub < ua), decide (ub ≤ ua)].getD n false

/-- The 36-bit immediate of a group (R83): {IMM25, IMM11} with a PFX.I, else the sign extension of IMM11. -/
def groupImm (p : Pfx) (imm : BitVec 11) : Int :=
  match p.i with
  | some h => (h ++ imm : BitVec 36).toInt
  | none => imm.toInt

/-! ## Floating point -/

/-- spec/04 Table 3 and Table 4: one-source FP32 instructions and conversions, with their lane functions (R49, R51, R53,
R54, R105, R109, R110). -/
def floatRows1 : List ((Pfx → RForm → Instr) × (Rm → Word → Word × Fl)) :=
  [ (.frnd, fpRnd), (.frcp, fpRcp), (.frsq, fpRsq), (.fsqrt, fpSqrt), (.fexp2, fpExp2), (.flog2, fpLog2), (.ftanh, fpTanh),
    (.fsigm, fpSigm), (.cvtfi, fun rm a => cvtFI rm false a), (.cvtfiN, fun rm a => cvtFI rm true a),
    (.cvtif, fun rm a => cvtIF rm false a), (.cvtifN, fun rm a => cvtIF rm true a),
    (.cvtbf, fun _ a => (a <<< 16, {})), (.cvtfb, fun _ a => cvtFB a), (.cvte4, fun _ a => cvtE4 a),
    (.cvte4f, fun _ a => (cvtE4F a, {})), (.fabs, fun _ a => (a &&& 0x7FFFFFFF, {})),
    (.fneg, fun _ a => (a ^^^ 0x80000000, {})) ]

/-- spec/04 Table 3: two-source FP32 instructions (R105), and CVTI4 (R111). -/
def floatRows2 : List ((Pfx → RForm → Instr) × (Rm → Word → Word → Word × Fl)) :=
  [ (.fadd, fpAdd), (.fsub, fun rm a b => fpAdd rm a (b ^^^ 0x80000000)), (.fmul, fpMul), (.fscale, fpScale),
    (.cvti4, fun _ a b => cvtI4 a b) ]

/-- The effective rounding mode of a group: the PFX.M field, RNE when it is 0 or absent (R46). -/
def roundingOf (p : Pfx) : Rm := [Rm.rne, .rtz, .rup, .rdn].getD p.eff.rnd.toNat .rdn

/-- An FP32 encoding is a NaN: exponent all ones, fraction nonzero (R45). -/
def nan32 (a : Word) : Bool := decide (0x7F800000 < (a &&& 0x7FFFFFFF).toNat)
/-- An FP32 encoding is a signalling NaN: a NaN with bit 22 clear. -/
def snan32 (a : Word) : Bool := nan32 a && !(a.getLsbD 22)

/-- The order of FP32 values that are no NaN, −0 below +0 (R106): negative encodings run backwards. -/
def below32 (a b : Word) : Bool :=
  match a.getLsbD 31, b.getLsbD 31 with
  | true, false => true
  | false, true => false
  | false, false => decide (a.toNat < b.toNat)
  | true, true => decide (b.toNat < a.toNat)

/-- R106: the result of FMIN (up = false) or FMAX (up = true). -/
def minMax32 (up : Bool) (a b : Word) : Word :=
  match nan32 a, nan32 b with
  | true, true => 0x7FC00000
  | true, false => b
  | false, true => a
  | false, false => if below32 a b = up then b else a

/-- R107: the bit of the class of an FP32 encoding. -/
def classBit (a : Word) : Nat :=
  if nan32 a then (if snan32 a then 8 else 9)
  else
    let k := if a &&& 0x7FFFFFFF = 0x7F800000 then 3 else if 0x00800000 ≤ (a &&& 0x7FFFFFFF).toNat then 2
      else if a &&& 0x7FFFFFFF = 0 then 0 else 1
    if a.getLsbD 31 then [3, 2, 1, 0].getD k 0 else [4, 5, 6, 7].getD k 0

/-- A group has its next state with a value as its result: in L1 and, unless W = 1, in register d. -/
def StoresVal (i : Instr) (s : State) (w : BitVec 1) (d : BitVec 7) (v : Val) : Prop :=
  ∃ t h, exec i s = .next t ∧ t.gust? s.cur = some h ∧ (h.slot s.curB).latch 1 = .val v ∧ (w ≠ 1 → h.reg d.toNat = v)

/-- As ReadyMask with flags. -/
def quiet : Nat → Fl := fun _ => {}

/-! ## Lanes -/

/-- A reduction's input in lane l: the source in the write mask, the identity elsewhere (R62). -/
def redInput (i : Instr) (s : State) (g : Gust) (sa : BitVec 7) (ident : Word) (l : Nat) : Word :=
  if inMask (active i s g) l then operand s g sa l else ident

/-- The value of an integer reduction: all 32 inputs combined (R62, R114). -/
def reduceAll (i : Instr) (s : State) (g : Gust) (sa : BitVec 7) (ident : Word) (op : Word → Word → Word) : Word :=
  lanes.foldl (fun x l => op x (redInput i s g sa ident l)) ident

/-- One level of a reduction with flags (R62). -/
def withFl (op : Word → Word → Word × Fl) (a b : Word × Fl) : Word × Fl :=
  let x := op a.1 b.1
  (x.1, (a.2.or b.2).or x.2)

/-- An FP32 reduction by the five levels of R62. -/
def reduceTree (i : Instr) (s : State) (g : Gust) (sa : BitVec 7) (ident : Word) (op : Word → Word → Word × Fl) : Word × Fl :=
  tree32 (withFl op) (ident, {}) (lanes.map fun l => (redInput i s g sa ident l, {}))

/-- An FP32 scan by the five steps of R62. -/
def scanSteps (i : Instr) (s : State) (g : Gust) (sa : BitVec 7) : List (Word × Fl) :=
  [1, 2, 4, 8, 16].foldl (scanStep (fpAdd .rne)) (lanes.map fun l => (redInput i s g sa 0x80000000 l, {}))

/-- Integer reductions of spec/04 R114: constructor, identity, operation. -/
def reduceRows : List ((Pfx → RForm → Instr) × Word × (Word → Word → Word)) :=
  [ (.radd, 0, fun a b => a + b), (.rmax, 0x80000000, fun a b => if a.toInt ≤ b.toInt then b else a),
    (.rmaxN, 0, fun a b => if a.toNat ≤ b.toNat then b else a), (.rmin, 0x7FFFFFFF, fun a b => if a.toInt ≤ b.toInt then a else b),
    (.rminN, 0xFFFFFFFF, fun a b => if a.toNat ≤ b.toNat then a else b) ]

/-- FP32 reductions of spec/04 R114. -/
def reduceRowsF : List ((Pfx → RForm → Instr) × Word × (Word → Word → Word × Fl)) :=
  [ (.raddF, 0x80000000, fpAdd .rne), (.rmaxF, 0xFF800000, fpMinMax true), (.rminF, 0x7F800000, fpMinMax false) ]

/-- Lane exchange (R113): j for lane l and d, none when it falls outside 0 to 31. -/
def shuffleRows : List ((Pfx → RForm → Instr) × (Nat → Nat → Option Nat)) :=
  [ (.shflIdx, fun _ d => some d), (.shflUp, fun l d => if d ≤ l then some (l - d) else none),
    (.shflDown, fun l d => if l + d < 32 then some (l + d) else none), (.shflXor, fun l d => some (l ^^^ d)) ]

/-- What lane l takes (R113). -/
def shuffled (i : Instr) (s : State) (g : Gust) (f : RForm) (src : Nat → Nat → Option Nat) (l : Nat) : Word :=
  match src l ((operand s g f.sb l).toNat % 32) with
  | some j => if inMask (active i s g) j then operand s g f.sa j else operand s g f.sa l
  | none => operand s g f.sa l

/-- The lowest lane of a mask, 0 for an empty one (R120). -/
def lowestOf (m : Word) : Nat := ((lanes.find? fun l => m.getLsbD l)).getD 0

/-- q[l] of QPLANE with its flags (R116); f is the lowest lane of the write mask. -/
def planeQuant (i : Instr) (s : State) (g : Gust) (f : RForm) (l : Nat) : Int × Fl :=
  let sc := operand s g f.sb (lowestOf (active i s g))
  if inMask (active i s g) l = false then (0, {})
  else if badScale sc || isNaN (operand s g f.sa l) then (0, { nv := true })
  else ((quantInt (-128) 127 (operand s g f.sa l) sc).1, { nx := (quantInt (-128) 127 (operand s g f.sa l) sc).2 })

/-- The registers of a HADX block by its SB (R117). -/
def hadBlock (sb : Nat) : Nat := [0, 2, 4, 8].getD sb 0

/-- The vector that HADX rotates: element 32j + l is lane l of register SA + j (R117). -/
def hadVector (g : Gust) (f : RForm) : List Word :=
  ((List.range (hadBlock f.sb.toNat)).map fun j => lanes.map fun l => g.lane (g.reg (f.sa.toNat + j)) l).flatten

/-- DQX's value of lane l and whether it sets NV (R118). -/
def decodedRow (i : Instr) (s : State) (g : Gust) (f : RForm) (l : Nat) : Word × Bool :=
  let ctl := (operand s g f.sb (lowestOf (active i s g))).toNat
  let k := ctl / 65536 % 16
  match headerOf (ctl % 65536) with
  | .zero => (0, false)
  | .nested e m =>
    if 2 ≤ k ∧ k ≤ 8 then
      (scaled e m (decodePlanes ((List.range k).map fun p => (operand s g f.sa p).getLsbD l)), false)
    else (0x7FC00000, true)
  | _ => (0x7FC00000, true)

/-- p of a vote: the lanes of Active() in m_SA (R133). -/
def votesOf (i : Instr) (s : State) (g : Gust) (f : RForm) : Word := g.maskReg f.sa.toNat &&& active i s g

/-- The number of lanes of a mask below lane n. -/
def lanesBelow (m : Word) (n : Nat) : Nat := (lanes.filter fun l => decide (l < n) && m.getLsbD l).length


/-! ## Control flow -/

/-- The target of a branch (R77): the group's address plus four times the signed offset. -/
def branchTarget (s : State) (g : Gust) (off : BitVec 20) : BitVec 56 := groupPc s g + BitVec.ofInt 56 (4 * off.toInt)

/-- The conditions of BRC (R86) on the mask register k and the mask m of the slot: any, all, none, not all. -/
def brcHolds (c : Nat) (k m : Word) : Bool :=
  let a := lanes.any fun l => k.getLsbD l && m.getLsbD l
  let b := lanes.all fun l => !(m.getLsbD l) || k.getLsbD l
  [a, b, !a, !b].getD c false

/-- The lanes of the slot that a BRD takes (R124). -/
def brdTaken (s : State) (g : Gust) (f : BForm) : Word :=
  (g.slot s.curB).mask &&& (if f.c = 0 then g.maskReg f.mr.toNat else ~~~(g.maskReg f.mr.toNat))

/-- The lanes of the slot that fall through (R124). -/
def brdRest (s : State) (g : Gust) (f : BForm) : Word := (g.slot s.curB).mask &&& ~~~(brdTaken s g f)

/-- The join address of a BRD (R124). -/
def brdJoin (p : Pfx) (s : State) (g : Gust) : BitVec 56 := groupPc s g + BitVec.ofInt 56 (4 * p.eff.aux.toInt)

/-- A split (R124): the executing slot goes on at the next group with the lanes that fall through, the other slot at the
target with the lanes taken, both with the join; the latches of both are empty. -/
def Split (p : Pfx) (f : BForm) (s : State) (g h : Gust) : Prop :=
  (h.slot s.curB).pc = nextPc (.brd p f) s g ∧ (h.slot s.curB).mask = brdRest s g f
    ∧ (h.slot s.curB).join = brdJoin p s g ∧ (h.slot s.curB).wait = none
    ∧ (h.slot (!s.curB)).pc = branchTarget s g f.off ∧ (h.slot (!s.curB)).mask = brdTaken s g f
    ∧ (h.slot (!s.curB)).join = brdJoin p s g ∧ (h.slot (!s.curB)).wait = none
    ∧ ∀ b n, 1 ≤ n → n ≤ 8 → (h.slot b).latch n = .empty 1

/-- The record that a push stores for a slot (R40): PC, mask, the signed offset of the join. -/
def pushedRecord (y : Slot) : List Byte := bytesOf 8 y.pc.toNat ++ bytesOf 4 y.mask.toNat ++ bytesOf 4 (y.join - y.pc).toNat

/-- The replays that a gust owes when slot B's path joins slot A's (R125, R193): what either has still to leave out. -/
def joinedReplay (g : Gust) : List (Bool × Word) :=
  if g.replayOf false = none ∧ g.replayOf true = none then g.replay
  else [(false, (g.replayOf false).getD 0 ||| (g.replayOf true).getD 0)]

/-- Of a gust only its slots, its stack depth and its replays have changed when the entry at the top of its stack goes to
slot b: the replay of that path comes back with it (R125, R193). -/
def PoppedTo (g h : Gust) (b : Bool) : Prop :=
  h = { g with a := h.a, b := h.b, dsp := h.dsp
               replay := g.replay ++ (g.stackReplay.filter fun e => e.1 == g.dsp - 1).map fun e => (b, e.2)
               stackReplay := g.stackReplay.filter fun e => e.1 != g.dsp - 1 }

/-- The lanes that a SPAWN selects for joins: AUX[7:4] (R82). -/
def selectsJoin (p : Pfx) (k : Nat) : Bool := p.eff.aux.getLsbD (4 + k)

/-- A membership slot of the gust is valid and names an open cohort of its front (R129). -/
def openMember (s : State) (g : Gust) (k : Nat) : Bool :=
  match g.memberOf k with
  | none => false
  | some i => match (s.frontOf g).cohorts[i]? with
    | some c => c.isOpen
    | none => false

/-- The status of a SPAWN (R129, Table 4): the lowest of those that hold. -/
def spawnCode (p : Pfx) (f : RForm) (s : State) (g : Gust) (entry : DWord) : Nat :=
  if freeSlot (s.slotsUsed (coreOf s.cur) 0) g.twin.isSome = none then 1
  else if s.bankCovers (coreOf s.cur) 0 g.alloc g.gbud g.twin.isSome = false
      ∨ g.gbud < ((List.range 8).filter fun j => (g.reg (f.sa.toNat + j)).wide).length then 2
  else if 65535 < (s.frontOf g).spawn then 3
  else if entry.toNat % 4 ≠ 0 then 4
  else if (List.range 4).any fun k => selectsJoin p k && !(openMember s g k) then 5
  else 0

/-- The entry of a SPAWN: the pair SB in the lowest lane of Active() (R120). -/
def spawnEntry (p : Pfx) (f : RForm) (s : State) (g : Gust) : DWord :=
  pairLane64 g f.sb (lowestOf (active (.spawn p f) s g))

/-- The gust that a SPAWN creates (R129, R11). -/
def IsSpawned (p : Pfx) (f : RForm) (s : State) (g n : Gust) : Prop :=
  n.gustId = (s.frontOf g).spawn ∧ n.front = g.front ∧ n.alloc = g.alloc ∧ n.gbud = g.gbud ∧ n.lmask = 0xFFFFFFFF
    ∧ n.a.pc = (spawnEntry p f s g).truncate 56 ∧ n.a.mask = 0xFFFFFFFF ∧ n.a.join = 0 ∧ n.b.mask = 0 ∧ n.dsp = 0 ∧ n.wb = 0
    ∧ (∀ j, j < 8 → n.reg j = g.reg (f.sa.toNat + j)) ∧ (∀ j, 8 ≤ j → n.reg j = .u 0) ∧ n.capTags = [] ∧ n.handler = 0
    ∧ ∀ k, k < 4 → n.memberOf k = if selectsJoin p k then g.memberOf k else none

/-- The descriptor of a REGROUP (R130). -/
def regroupDesc (p : Pfx) (f : RForm) (s : State) (g : Gust) : Nat :=
  (operand s g f.sa (lowestOf (active (.regroup p f) s g))).toNat

/-- The gust's earlier accesses have been performed at a scope (R180, R267): its loads are done; at die scope its stores have
left its core's buffer, and at a wider one their homes have acknowledged them. -/
abbrev performedAt (s : State) (g : Gust) (scope : Nat) : Prop :=
  g.loadsDone = true ∧ (scope = 2 → s.bufferedOps s.cur = []) ∧ (3 ≤ scope → ∀ q ∈ g.posted, q.lines = [])

/-- The barrier units have applied every operation of the gust (R135, R136). -/
abbrev UnitReady (s : State) (g : Gust) : Prop := g.unitOps = [] ∧ s.heldAt s.cur = []

/-- An arrival or departure of the gust can be applied at once (R135, R136). -/
abbrev AppliedAtOnce (s : State) (g : Gust) : Prop := performedAt s g 2 ∧ UnitReady s g

/-- No operation that waits at a barrier unit can be applied (R135). -/
abbrev UnitsIdle (s : State) : Prop := s.nextUnitOp = none

/-- No operation at a barrier unit waits for the posted operations of an entry (R136). -/
abbrev NoUnitWaits (s : State) (e : WcEntry) : Prop :=
  (∀ x ∈ s.gusts, ∀ o ∈ x.2.unitOps, ∀ q ∈ e.posters, q.2.1 ∉ o.stores)
    ∧ ∀ x ∈ s.fronts, ∀ o ∈ x.2.unitOps, ∀ q ∈ e.posters, q.2.1 ∉ o.2.stores

/-- Whether the flag of a REGROUP needs a register more of the budget (R130): a partial write into a register that is
neither G nor D nor of the trap bank. -/
abbrev flagNeedsRoom (s : State) (g : Gust) (f : RForm) : Prop :=
  f.w ≠ 1 ∧ (g.slot s.curB).mask ≠ g.lmask ∧ (g.reg f.d.toNat).wide = false ∧ g.inTrapBank f.d.toNat = false

/-- The gusts's slot waits for a phase or what its wait names, and goes on at the next group then. -/
def Arrives (i : Instr) (s : State) (g h : Gust) (w : Wait) : Prop :=
  h.slot s.curB = { g.slot s.curB with wait := some w, waitNext := nextPc i s g } ∧ h.slot (!s.curB) = g.slot (!s.curB)

/-! ## Memory -/

/-- The lanes that a memory instruction runs (R22, R149, R193): Active(), less the lanes of XDONE in a replay. -/
def runLanes (i : Instr) (s : State) (g : Gust) : Word :=
  match g.replayOf s.curB with
  | some d => active i s g &&& ~~~d
  | none => active i s g

/-- The effective address of a lane (R151): the pair plus the sign-extended index, or the 36-bit immediate of a PFX.I, whose
low 11 bits are 0. -/
def eaOf (p : Pfx) (s : State) (g : Gust) (sa sb : BitVec 7) (l : Nat) : DWord :=
  pairLane64 g sa l + match p.i with
    | some h => BitVec.ofInt 64 (h ++ (0 : BitVec 11) : BitVec 36).toInt
    | none => if sb = 127 then 0 else (operand s g sb l).signExtend 64

/-- The effective address of a lane of an atomic (R151). -/
def eaOfAtomic (p : Pfx) (g : Gust) (sa : BitVec 7) (l : Nat) : DWord :=
  pairLane64 g sa l + match p.i with
    | some h => BitVec.ofInt 64 (h ++ (0 : BitVec 11) : BitVec 36).toInt
    | none => 0

/-- The checks of an access find its pages and no fault (R163, R193), and every lane's address lies in the own package: k
holds the translations, and k.dom the physical address of an address. -/
structure Near (i : Instr) (s : State) (g : Gust) (a : Access) (size : Nat) (ls : List Nat) (ea : Nat → DWord)
    (sp : Xlat → Nat → List (Nat × Nat)) (k : Checked) : Prop where
  checked : k = checkLanes (mkCtx i g s.curB) s a size ls ea (fun _ => 0) sp
  clean : k.faults = []
  there : k.pages.absent = []
  near : ∀ l ∈ ls, peerOf (k.dom (ea l)) = s.self

/-- Word j of a value loaded with size code K (R87, R157): bytes are little-endian, codes 0 and 2 are signed. -/
def loadedWord (k : Nat) (bs : List Byte) (j : Nat) : Word :=
  let n := natOfBytes bs
  if k = 0 then BitVec.ofInt 32 (if n < 2 ^ 7 then (n : Int) else n - 2 ^ 8)
  else if k = 2 then BitVec.ofInt 32 (if n < 2 ^ 15 then (n : Int) else n - 2 ^ 16)
  else BitVec.ofNat 32 (n / 2 ^ (32 * j))

/-- The registers of an access from d up. -/
def runOf (d : BitVec 7) (n : Nat) : List Nat := (List.range n).map (d.toNat + ·)

/-- LD and LDRAW: their access, prefix, size code, acquire bit and fields. -/
def plainLoad : Instr → Option (Access × Pfx × Nat × Bool × BitVec 7 × BitVec 7 × BitVec 7)
  | .ld p f => some (.load, p, f.k.toNat, f.o == 1, f.sa, f.sb, f.d)
  | .ldraw p f => some (.raw, p, f.k.toNat, f.acq == 1, f.sa, f.sb, f.d)
  | _ => none

/-- LD.DF and LDU.DF: whether it is uniform, prefix, size code and fields. -/
def driftLoad : Instr → Option (Bool × Pfx × Nat × BitVec 7 × BitVec 7 × BitVec 7)
  | .ldDf p f => some (false, p, f.k.toNat, f.sa, f.sb, f.d)
  | .lduDf p f => some (true, p, f.k.toNat, f.sa, f.sb, f.d)
  | _ => none

/-- The index of an LDX (R162): SB, or the low 32 bits of the immediate. -/
def elemIndexOf (p : Pfx) (s : State) (g : Gust) (sb : BitVec 7) (l : Nat) : Nat :=
  match p.i with
  | some h => ((h ++ (0 : BitVec 11) : BitVec 36).truncate 32 : Word).toNat
  | none => if sb = 127 then 0 else (operand s g sb l).toNat

/-- The value of a drift record of kind 0 to 3 over a loaded word x (R27, R32). -/
def driftValue (r : Drift) (y : Sym) (x : Word) : Word :=
  match r.kind with
  | 0 => x
  | 1 => r.a * x + r.b.truncate 32
  | 2 => (fpFma .rne r.a x (r.b.truncate 32)).1
  | _ => (r.b + r.a.signExtend 64 * (if y.signed then x.signExtend 64 else x.zeroExtend 64)).truncate 32

/-- The tracking field of a group: AUX[3:1], 0 untracked, else counter c plus one (R82). -/
def trackOf (p : Pfx) : Nat := p.eff.aux.toNat / 2 % 8

/-- A group has its effect as a release at once: the gust's earlier accesses have been performed at its scope, which is within
the package, and it has not waited (R180, R181). -/
abbrev ReleasesAtOnce (p : Pfx) (s : State) (g : Gust) : Prop :=
  performedAt s g p.eff.scope.toNat ∧ p.eff.scope ≠ 4 ∧ (g.slot s.curB).wait = none

/-- A group has its effect as an acquire at once: no earlier load is outstanding, and no line is buffered that its scope covers
(R178, R181). -/
abbrev AcquiresAtOnce (p : Pfx) (s : State) (g : Gust) : Prop :=
  g.loadsDone = true ∧ (p.eff.scope = 4 → (s.core (coreOf s.cur)).wcb = [])

/-- A posted access of the group has what it needs at once: room in its counter, and what a release asks for (R35, R180). -/
abbrev PostsAtOnce (p : Pfx) (s : State) (g : Gust) (rel : Bool) : Prop :=
  (trackOf p ≠ 0 → g.counter (trackOf p - 1) < 63) ∧ (rel = true → ReleasesAtOnce p s g)

/-- An HFLUSH looks at its range: its counter has room, and it has not waited for writes already (R183). -/
abbrev FlushIssues (p : Pfx) (s : State) (g : Gust) : Prop :=
  (trackOf p ≠ 0 → g.counter (trackOf p - 1) < 63) ∧ ∀ ids, (g.slot s.curB).wait ≠ some (.flush ids)

/-- The posted operations of a gust after a posted access of the own package (R35, R176). -/
def postedAfter (p : Pfx) (s : State) (g : Gust) : List Posted :=
  if trackOf p = 0 then g.posted else g.posted ++ [⟨s.nextPosted, some (trackOf p - 1), groupPc s g, []⟩]

/-- The bytes that lane l of an ST stores (R159): the low bytes of its registers. -/
def storedBytes (g : Gust) (d : BitVec 7) (k l : Nat) : List Byte :=
  ((List.range (regsOf k)).flatMap fun j => bytesOf 4 (g.lane (g.reg (d.toNat + j)) l).toNat).take (Machine.sizeOf k)

/-- Posted atomics: prefix, operation, size, O and fields (R171, R172). -/
def postedAtomic : Instr → Option (Pfx × Nat × Nat × Nat × BitVec 7 × BitVec 7 × BitVec 7)
  | .atom p f => some (p, f.k.toNat, 4, f.o.toNat, f.sa, f.sb, f.d)
  | .atomXchg p f => some (p, 8, 4, f.o.toNat, f.sa, f.sb, f.d)
  | .atomCas p f => some (p, 9, 4, f.o.toNat, f.sa, f.sb, f.d)
  | .atomAdd64 p f => some (p, 0, 8, f.o.toNat, f.sa, f.sb, f.d)
  | _ => none

/-- Returning atomics. -/
def returningAtomic : Instr → Option (Pfx × Nat × Nat × Nat × BitVec 7 × BitVec 7 × BitVec 7)
  | .atomr p f => some (p, f.k.toNat, 4, f.o.toNat, f.sa, f.sb, f.d)
  | .atomrXchg p f => some (p, 8, 4, f.o.toNat, f.sa, f.sb, f.d)
  | .atomrCas p f => some (p, 9, 4, f.o.toNat, f.sa, f.sb, f.d)
  | .atomrAdd64 p f => some (p, 0, 8, f.o.toNat, f.sa, f.sb, f.d)
  | .atomrXchg64 p f => some (p, 8, 8, f.o.toNat, f.sa, f.sb, f.d)
  | .atomrCas64 p f => some (p, 9, 8, f.o.toNat, f.sa, f.sb, f.d)
  | _ => none

/-- The number that n bytes of two's complement hold. -/
def signedOf (n x : Nat) : Int := if 2 * x < 2 ^ (8 * n) then x else (x : Int) - 2 ^ (8 * n)

/-- The new value of an atomic (R172): w the location, b the operand, c the comparand. -/
def atomicResult (op n w b c : Nat) : Nat :=
  [(w + b) % 2 ^ (8 * n), if signedOf n w ≤ signedOf n b then w else b, if signedOf n w ≤ signedOf n b then b else w,
   min w b, max w b, w &&& b, w ||| b, w ^^^ b, b, if w = c then b else w].getD op 0

/-- An operand of an atomic in lane l (R171). -/
def atomicOperand (s : State) (g : Gust) (f : BitVec 7) (n l : Nat) : Nat :=
  if n = 8 then (pairLane64 g f l).toNat else (operand s g f l).toNat

/-- Memory after the lanes of a list have performed their atomics in order (R154). -/
def afterAtomics (s : State) (op n : Nat) (dom b c : Nat → Nat) (ls : List Nat) : State :=
  ls.foldl (fun t l => t.storeBytes (dom l) (bytesOf n (atomicResult op n (t.readNat (dom l) n) (b l) (c l)))) s

/-! ## Scratchpad -/

/-- The address of a lane in the scratchpad of the core (R166, R322): SA plus the index or the low 32 bits of the immediate,
modulo 2^32, from the front's base. -/
def spOf (p : Pfx) (s : State) (g : Gust) (sa sb : BitVec 7) (l : Nat) : Nat :=
  (operand s g sa l + match p.i with
    | some h => ((h ++ (0 : BitVec 11) : BitVec 36).truncate 32 : Word)
    | none => if sb = 127 then 0 else operand s g sb l).toNat

/-- The base of the front's scratchpad on the core of the gust. -/
def spBaseOf (s : State) (g : Gust) : Nat := (s.frontOf g).spBase (coreOf s.cur)

/-- Every lane that runs is aligned and within the front's scratchpad, and no entry of the range scoreboard is in the way
(R166, R168). -/
abbrev SpReady (i : Instr) (p : Pfx) (s : State) (g : Gust) (sa sb : BitVec 7) (n : Nat) : Prop :=
  ∀ l ∈ lanesOf (runLanes i s g), spOf p s g sa sb l % n = 0 ∧ spOf p s g sa sb l + n ≤ (s.frontOf g).scratch
    ∧ (s.core (coreOf s.cur)).overlaps (spBaseOf s g + spOf p s g sa sb l) (spBaseOf s g + spOf p s g sa sb l + n) = []

/-- Only gusts and the core of the gust have changed; of the core, at most its scratchpad and its locks. -/
def OnlyCore (s t : State) : Prop :=
  t = { s with gusts := t.gusts, cores := t.cores } ∧ (∀ k, k ≠ s.cur → t.gust? k = s.gust? k)
    ∧ (∀ c, c ≠ coreOf s.cur → t.core c = s.core c)
    ∧ t.core (coreOf s.cur) = { s.core (coreOf s.cur) with scratch := (t.core (coreOf s.cur)).scratch,
                                                           locks := (t.core (coreOf s.cur)).locks }

/-- A byte of the scratchpad of the gust's core. -/
def spByte (s : State) (a : Nat) : Byte := memGet (s.core (coreOf s.cur)).scratch a

/-- The scratchpad word at an address. -/
def spWord (s : State) (a : Nat) : Word := BitVec.ofNat 32 (memNat (s.core (coreOf s.cur)).scratch a 4)

/-- The result of SPA (R170): ADD, MIN, MAX, OR, INC. -/
def spaResult (k : Nat) (w v : Word) : Word :=
  [w + v, if w.toInt ≤ v.toInt then w else v, if w.toInt ≤ v.toInt then v else w, w ||| v, w + 1].getD k 0

/-- No other gust holds the lock of a scratchpad word (R169). -/
abbrev lockFree (s : State) (a : Nat) : Prop := (s.core (coreOf s.cur)).lockOk s.cur (lockOf a) = true

/-! ## Capabilities -/

/-- The quad of a field in lane l, 128 bits (R189). -/
def quadOf (g : Gust) (f : BitVec 7) (l : Nat) : Nat :=
  (g.lane (g.reg f.toNat) l).toNat + 2 ^ 32 * (g.lane (g.reg (f.toNat + 1)) l).toNat
    + 2 ^ 64 * (g.lane (g.reg (f.toNat + 2)) l).toNat + 2 ^ 96 * (g.lane (g.reg (f.toNat + 3)) l).toNat

/-- A group of a capability instruction with room for a quad, not under an empty mask. -/
structure ReadyQuad (i : Instr) (s : State) (g : Gust) (d : BitVec 7) : Prop where
  issues : Issues i s g
  plain : NoDrift i s g
  apart : StaysApart s g (nextPc i s g)
  room : Room g (runOf d 4)
  some : active i s g ≠ 0

/-- The quad of d becomes x in the lanes of Active(), with its tag set exactly when those are all of LMASK (R192). -/
def WritesQuad (i : Instr) (s : State) (g : Gust) (d : BitVec 7) (x : Nat) : Prop :=
  ∃ t h, Completes i s g (nextPc i s g) t h ∧ OnlyGust s t ∧ Shifted s g h ∧ GustKept i s g h
    ∧ (∀ n, n ∉ runOf d 4 → h.reg n = g.reg n)
    ∧ (∀ l, inMask g.lmask l → quadOf h d l = if inMask (active i s g) l then x else quadOf g d l)
    ∧ h.capTag d.toNat = decide (active i s g = g.lmask)

/-! ## Engines, contexts, queues -/

/-- The PUSH forms: prefix, fields and the scope of the release: 0 none, 1 core, 2 die, 3 package (R197). -/
def pushOf : Instr → Option (Pfx × EForm × Nat)
  | .push p f => some (p, f, 0)
  | .pushCore p f => some (p, f, 1)
  | .pushDie p f => some (p, f, 2)
  | .pushPkg p f => some (p, f, 3)
  | _ => none

/-- The command that a PUSH hands over (R197): 16 registers of the lowest lane. -/
def pushedCmd (i : Instr) (s : State) (g : Gust) (sa : BitVec 7) (num : Nat) : Cmd :=
  { num := num
    bytes := (List.range 16).flatMap fun k => bytesOf 4 (g.lane (g.reg (sa.toNat + k)) (lowestOf (active i s g))).toNat
    core := coreOf s.cur, supervisor := g.handler == 2 }

/-- A group that is plain, not under an empty mask and does not come to its join. -/
structure Runs (i : Instr) (s : State) (g : Gust) : Prop where
  issues : Issues i s g
  plain : NoDrift i s g
  apart : StaysApart s g (nextPc i s g)
  some : active i s g ≠ 0

/-- The capability of an attention form opens its context (R218, R221): u the state after the descriptor is read, x the
capability, e the descriptor. -/
def Opens (i : Instr) (s : State) (g : Gust) (f : BitVec 7) (u : State) (x : Cap) (e : Desc) : Prop :=
  (mkCtx i g s.curB).openContext s f = .ok (u, x, e)

/-- The odd register of the control pair (R220), in the lowest lane. -/
def ctlOf (i : Instr) (s : State) (g : Gust) (sb : BitVec 7) : Nat :=
  (g.lane (g.reg (sb.toNat + 1)) (lowestOf (active i s g))).toNat

/-- The even register of the control pair, in the lowest lane. -/
def posOf (i : Instr) (s : State) (g : Gust) (sb : BitVec 7) : Nat := (regLane g sb (lowestOf (active i s g))).toNat

/-- The status of KVRES (R222): 1 above the capacity, 2 outside the capability, 0 reserved. -/
def reserveStatus (pos n nb lo hi : Nat) : Nat :=
  if 2 ^ 32 < pos + n ∨ 64 * nb < pos + n then 1
  else if n ≠ 0 ∧ ¬ (lo ≤ pos ∧ pos + n ≤ hi + 1) then 2 else 0

/-- The words of bytes of memory that a program may store to. -/
abbrev Storable (d n : Nat) : Prop := ∀ j, j < n → hubOnly (localPa (d + j)) = false ∧ popWord? (localPa (d + j)) = none

/-- Positions p to p + n − 1 that lie in block b, as the bits of a word (R219). -/
def positionBits (p n b : Nat) : Nat := ((List.range 64).filter fun j => decide (p ≤ 64 * b + j ∧ 64 * b + j < p + n)).foldl (fun m j => m + 2 ^ j) 0

/-- A memory change from u to t in the bytes from d up to d + n alone. -/
def MemOnly (u t : State) (d n : Nat) : Prop := ∀ a, a < d ∨ d + n ≤ a → memGet t.mem a = memGet u.mem a

/-- Every line of byte ranges lies in the own package, so that no request leaves it (R341). -/
abbrev OwnLines (s : State) (spans : List (Nat × Nat)) : Prop := ∀ n ∈ spanLines spans, peerOf n = s.self

/-- The list that HEAPRD writes (R235). -/
def heapList (h : Heap) (report : Nat) : List Byte :=
  bytesOf 4 h.pairs.length ++ bytesOf 4 report ++ bytesOf 4 h.m.toNat ++ bytesOf 4 h.s.toNat
    ++ h.pairs.flatMap fun p => bytesOf 4 p.1.toNat ++ bytesOf 4 p.2

/-! ## System registers -/

/-- The accepted set of features (R392): what FEATACC holds, ANDed with FEATAVAIL, which is published when bring-up is done, and
bit 0; once it is locked, what the write that locked it has fixed. -/
def acceptedSet (s : State) : BitVec 128 :=
  (if s.sec.featLock then s.sec.featSet else s.sec.featAcc &&& (if s.sec.bootStat = 1 then Config.featAvail &&& 0xFFF else 0)) ||| 1

/-- Word l of a 32-bit system register (R39, Table 9). -/
def sysWord (s : State) (g : Gust) (off l : Nat) : Option Word :=
  (([ (0x000, BitVec.ofNat 32 l), (0x001, BitVec.ofNat 32 g.gustId), (0x002, (s.frontOf g).frontId),
     (0x003, BitVec.ofNat 32 g.wb), (0x004, BitVec.ofNat 32 g.alloc),
     (0x005, BitVec.ofNat 32 (g.gbud + if g.gbudRefused then 2 ^ 31 else 0)), (0x006, BitVec.ofNat 32 g.gcnt), (0x007, g.lmask),
     (0x008, BitVec.ofNat 32 ([g.fNX, g.fUF, g.fOF, g.fDZ, g.fNV].foldr (fun m n => (if m.getLsbD l then 1 else 0) + 2 * n) 0)),
     (0x009, g.ten.zeroExtend 32), (0x00C, (acceptedSet s).extractLsb' 0 32),
     (0x00D, (acceptedSet s).extractLsb' 32 32), (0x00E, (acceptedSet s).extractLsb' 64 32),
     (0x00F, (acceptedSet s).extractLsb' 96 32), (0x013, g.xmask), (0x014, g.xother), (0x015, g.xdone),
     (0x016, g.xcause), (0x017, g.xdest),
     (0x019, BitVec.ofNat 32 ((if s.curB then 1 else 0) + (if g.a.mask ≠ 0 then 2 else 0) + (if g.b.mask ≠ 0 then 4 else 0)
       + 256 * g.dsp))] : List (Nat × Word)).find? fun e => e.1 == off).map Prod.snd

/-- Lane l of a 64-bit system register but NOW (R39). -/
def sysDWord (g : Gust) (off l : Nat) : Option DWord :=
  (([(0x010, g.xpc), (0x011, g.xfpc), (0x012, g.xaddr.getD l 0), (0x018, g.frame.zeroExtend 64)] : List (Nat × DWord)).find?
    fun e => e.1 == off).map Prod.snd

/-- What MTS makes of a gust for the registers that take one value (R39, R144): w the word of the lowest lane, x its pair. -/
def mtsRows (w : Word) (x : DWord) : List (Nat × (Gust → Gust)) :=
  [ (0x009, fun g => { g with ten := w.truncate 5 }), (0x010, fun g => { g with xpc := x }), (0x011, fun g => { g with xfpc := x }),
    (0x013, fun g => { g with xmask := w }), (0x014, fun g => { g with xother := w }), (0x015, fun g => { g with xdone := w }),
    (0x016, fun g => { g with xcause := w }), (0x017, fun g => { g with xdest := w &&& 0x3FF }) ]

/-! ## Traps -/

/-- The vector of a handler kind: 1 user, 2 supervisor (R362). -/
def vectorOf (s : State) (g : Gust) (kind : Nat) : BitVec 56 := if kind = 1 then (s.frontOf g).uvec else (s.frontOf g).svec

/-- The codes that the supervisor handles (R357). -/
def supervisorCodes : List Nat := [0x04, 0x08, 0x09, 0x0A, 0x0B, 0x12, 0x13]

/-- The handler of a fault code (R357): 1 user, 2 supervisor. -/
def kindOf (code : Nat) : Nat := if code ∈ supervisorCodes then 2 else 1

/-- The wait of a slot at a barrier, which a trap keeps (R150). -/
def barrierWait (x : Slot) : Option KeptWait :=
  match x.wait with
  | some (.barrier d n k) => some ⟨some (.barrier d n k), x.waitNext⟩
  | some (.drain d n k) => some ⟨some (.drain d n k), x.waitNext⟩
  | _ => none

/-- What the X registers hold after steps 1 to 3 of a trap entry of slot b (R362), with the barrier wait of the slot (R150). -/
def Recorded (g h : Gust) (b : Bool) (r : TrapReq) : Prop :=
  h.xpc = (g.slot b).pc.zeroExtend 64 ∧ h.xcause = BitVec.ofNat 32 (r.code * 65536 + r.cause) ∧ h.xmask = r.xmask
    ∧ h.xother = r.xother ∧ h.xdone = r.xdone ∧ (∀ a, r.xaddr = some a → h.xaddr = a)
    ∧ h.trapRet = some ⟨b, (g.slot b).pc, (g.slot b).mask, (g.slot b).join, kindOf r.code, barrierWait (g.slot b)⟩ ∧ h.regs = g.regs
    ∧ h.trapBank = g.trapBank ∧ h.masks = g.masks ∧ h.dsp = g.dsp ∧ h.wb = g.wb
    ∧ (h.fNX, h.fUF, h.fOF, h.fDZ, h.fNV) = (g.fNX, g.fUF, g.fOF, g.fDZ, g.fNV)

/-- Slot b runs its handler after steps 4 to 6 (R362). -/
def InHandler (s : State) (g h : Gust) (b : Bool) (r : TrapReq) : Prop :=
  h.handler = kindOf r.code ∧ h.pending = 0 ∧ (h.slot b).pc = vectorOf s g (kindOf r.code)
    ∧ (h.slot b).mask = (r.xmask ||| r.xother) ∧ (h.slot b).join = 0 ∧ (h.slot b).wait = none
    ∧ (h.slot (!b)).mask = (g.slot (!b)).mask ∧ (h.slot (!b)).pc = (g.slot (!b)).pc
    ∧ ∀ c n, 1 ≤ n → n ≤ 8 → (h.slot c).latch n = .empty 1

/-! ## Drift records -/

/-- The coefficients of a record (R29): a kind-0 one counts as a = 1, b = 0. -/
def coefs (one : Word) (r : Drift) : Word × Word := if r.kind = 0 then (one, 0) else (r.a, r.b.truncate 32)

/-- A transform that gives one record of a kind. -/
def oneRecord (one : Word) (kinds : List Nat) (kind : Nat) (d : BitVec 7) (r : Drift) (new : Word × Word → Word × Word) :
    Option (Drift × List (Nat × Drift)) :=
  if r.kind ∈ kinds then
    some (r, [(d.toNat, ⟨r.sym, kind, (new (coefs one r)).1, (new (coefs one r)).2.zeroExtend 64⟩)])
  else none

/-- A transform that gives a pair of records of kinds 3 and 4, of the coefficients a and b and the pair x. -/
def pairRecords (d : BitVec 7) (r : Drift) (new : Word × Word → Word × Word) (x : DWord) : Option (Drift × List (Nat × Drift)) :=
  if r.kind ∈ [0, 1] then
    some (r, [(d.toNat, ⟨r.sym, 3, (new (coefs 1 r)).1, (new (coefs 1 r)).2.signExtend 64 + x⟩), (d.toNat + 1, ⟨r.sym, 4, 0, 0⟩)])
  else none

/-- The FP32 transforms have the drift-permit modifier and round to nearest even (R29, R82). -/
abbrev permits (p : Pfx) : Prop := p.eff.aux.getLsbD 0 = true ∧ p.eff.rnd = 0

/-- spec/01 Table 8: the record that an instruction transforms, and the records that its destination takes. -/
def tableEight (i : Instr) (s : State) (g : Gust) : Option (Drift × List (Nat × Drift)) :=
  match i with
  | .iadd _ f =>
    match g.src s.curB f.sa.toNat, g.src s.curB f.sb.toNat with
    | .d r _, .u c | .u c, .d r _ => oneRecord 1 [0, 1] 1 f.d r fun k => (k.1, k.2 + c)
    | _, _ => none
  | .iaddi p f =>
    match g.src s.curB f.sa.toNat with
    | .d r _ => oneRecord 1 [0, 1] 1 f.d r fun k => (k.1, k.2 + BitVec.ofInt 32 (groupImm p f.imm))
    | _ => none
  | .isub _ f =>
    match g.src s.curB f.sa.toNat, g.src s.curB f.sb.toNat with
    | .d r _, .u c => oneRecord 1 [0, 1] 1 f.d r fun k => (k.1, k.2 - c)
    | .u c, .d r _ => oneRecord 1 [0, 1] 1 f.d r fun k => (-k.1, c - k.2)
    | _, _ => none
  | .imul _ f =>
    match g.src s.curB f.sa.toNat, g.src s.curB f.sb.toNat with
    | .d r _, .u c | .u c, .d r _ => oneRecord 1 [0, 1] 1 f.d r fun k => (k.1 * c, k.2 * c)
    | _, _ => none
  | .fadd p f =>
    match g.src s.curB f.sa.toNat, g.src s.curB f.sb.toNat with
    | .d r _, .u c => if permits p then oneRecord 0x3F800000 [0, 2] 2 f.d r fun k => (k.1, (fpAdd .rne k.2 c).1) else none
    | _, _ => none
  | .fsub p f =>
    match g.src s.curB f.sa.toNat, g.src s.curB f.sb.toNat with
    | .d r _, .u c =>
      if permits p then oneRecord 0x3F800000 [0, 2] 2 f.d r fun k => (k.1, (fpAdd .rne k.2 (c ^^^ 0x80000000)).1) else none
    | _, _ => none
  | .fmul p f =>
    match g.src s.curB f.sa.toNat, g.src s.curB f.sb.toNat with
    | .d r _, .u c =>
      if permits p then oneRecord 0x3F800000 [0, 2] 2 f.d r fun k => ((fpMul .rne k.1 c).1, (fpMul .rne k.2 c).1) else none
    | _, _ => none
  | .add64 _ f =>
    match g.reg f.sb.toNat, g.reg f.sa.toNat, g.reg (f.sa.toNat + 1) with
    | .d r _, .u lo, .u hi => pairRecords f.d r id (DWord.mk hi lo)
    | _, _, _ => none
  | .add64i p f =>
    match g.reg f.sa.toNat with
    | .d r _ => pairRecords f.d r id (BitVec.ofInt 64 (groupImm p f.imm))
    | _ => none
  | .mad64 _ f =>
    match g.src s.curB f.sa.toNat, g.src s.curB f.sb.toNat, g.reg f.d.toNat, g.reg (f.d.toNat + 1) with
    | .d r _, .u c, .u lo, .u hi => pairRecords f.d r (fun k => (k.1 * c, k.2 * c)) (DWord.mk hi lo)
    | _, _, _, _ => none
  | _ => none

/-- The instructions that use every operand as a plain value (R30); a memory instruction does when it has a lane to run, and
SPA INC does not read D. -/
def usesPlain (i : Instr) (s : State) (g : Gust) : Bool :=
  match i with
  | .iadd .. | .isub .. | .imul .. | .imulh .. | .imulhn .. | .imad .. | .imin .. | .imax .. | .iminn .. | .imaxn .. | .iabs ..
  | .and .. | .or .. | .xor .. | .andn .. | .shl .. | .shr .. | .sar .. | .rotl .. | .popc .. | .clz .. | .ctz .. | .brev ..
  | .sel .. | .bfx .. | .bfxs .. | .bfi .. | .iaddi .. | .andi .. | .ori .. | .xori .. | .ldi .. | .shli .. | .shri .. | .sari ..
  | .add64 .. | .sub64 .. | .mad64 .. | .add64i .. | .icmp .. | .cmp64 .. | .fcmp .. | .fadd .. | .fsub .. | .fmul .. | .ffma ..
  | .fmin .. | .fmax .. | .fclass .. | .fabs .. | .fneg .. | .frnd .. | .fscale .. | .frcp .. | .frsq .. | .fsqrt .. | .fexp2 ..
  | .flog2 .. | .ftanh .. | .fsigm .. | .cvtfi .. | .cvtfiN .. | .cvtif .. | .cvtifN .. | .cvtbf .. | .cvtfb .. | .cvte4 ..
  | .cvte4f .. | .cvti4 .. | .shflIdx .. | .shflUp .. | .shflDown .. | .shflXor .. | .radd .. | .raddF .. | .rmax .. | .rmaxN ..
  | .rmaxF .. | .rmin .. | .rminN .. | .rminF .. | .scana .. | .scanaF .. | .bcast .. | .mkl .. | .mkg .. | .qplane .. | .hadx ..
  | .dqx .. | .rand .. | .voteAny .. | .voteAll .. | .voteCount .. | .voteRank .. | .mpopc .. | .ret .. | .jmpr ..
  | .capnar .. | .capchk .. | .captag .. | .capmk .. | .spld .. | .spst .. | .ldlk .. | .stul .. => true
  | .ld .. | .ldu .. | .ldraw .. | .ldx .. | .ldDf .. | .lduDf .. | .st .. | .atom .. | .atomXchg .. | .atomCas .. | .atomAdd64 ..
  | .atomr .. | .atomrXchg .. | .atomrCas .. | .atomrAdd64 .. | .atomrXchg64 .. | .atomrCas64 .. | .capld .. | .capst .. =>
    runLanes i s g != 0
  | .spa _ f => f.k != 4
  | _ => false

/-! ## Faulting lanes -/

/-- A row of spec/06 Table 7: priority, fault code, cause. -/
abbrev Cause := Nat × Nat × Nat

/-- spec/06 Table 7 for a lane of a global access: the first condition that holds. x? is the translation of its address, idx
the element index of LDX, spans the bytes that it reads, s the state after the translations. Poison of another package comes
with the reply (R345). -/
def tableSeven (s : State) (a : Access) (size : Nat) (ea : DWord) (idx : Nat) (x? : Option Xlat) (spans : List (Nat × Nat)) :
    Option Cause :=
  let on := fun (p : Xlat → Bool) => decide (ea.toNat < 2 ^ 56) && match x? with | some x => p x | none => false
  let stores := decide (a ∈ [Access.store, .capStore])
  let atomic := decide (a ∈ [Access.atomic, .atomicR])
  (([ (a != .ldx && ea.toNat % size != 0, (1, 0x06, 1)),
      (on fun x => a == .ldx && x.fmt == 1 && !slotStart x ea.toNat, (1, 0x06, 2)),
      (on fun x => a == .ldx && x.fmt == 1 && decide (1024 ≤ idx), (1, 0x06, 3)),
      (on fun x => (a == .capLoad || a == .capStore) && !x.cap, (2, 0x07, 7)),
      (decide (2 ^ 56 ≤ ea.toNat), (3, 0x08, 1)),
      (x?.isNone, (3, 0x08, 2)),
      (on fun x => x.mig == 2 || (x.mig == 1 && (stores || atomic)), (3, 0x08, 3)),
      (on fun x => (stores || atomic) && x.tier == 1, (4, 0x0A, 1)),
      (on fun x => !(stores || atomic) && !x.r, (5, 0x09, 1)),
      (on fun x => stores && !x.w, (5, 0x09, 2)),
      (on fun x => atomic && !x.a, (5, 0x09, 3)),
      (on fun x => a == .load && x.fmt != 0, (5, 0x09, 4)),
      (on fun x => a == .ldx && x.fmt == 0, (5, 0x09, 5)),
      (on fun x => atomic && decide (regionOf (localPa (x.domain ea.toNat)) = .host), (5, 0x09, 7)),
      (!stores && a != .atomic && spans.any (fun r => peerOf r.1 == s.self && s.poisoned r.1 r.2), (6, 0x0B, 1)) ]
      : List (Bool × Cause)).find?
    fun r => r.1).map Prod.snd

/-- spec/06 Table 7 for a lane of a scratchpad access of n bytes (R166). -/
def spCause (s : State) (g : Gust) (n a : Nat) : Option Cause :=
  if a % n ≠ 0 then some (1, 0x06, 1) else if (s.frontOf g).scratch < a + n then some (5, 0x09, 6) else none

/-- The causes of the lanes of a global access, with the pages that its checks have found. -/
def causes (k : Checked) (a : Access) (size : Nat) (ea : Nat → DWord) (idx : Nat → Nat) (sp : Xlat → Nat → List (Nat × Nat))
    (l : Nat) : Option Cause :=
  tableSeven k.s a size (ea l) (idx l) (k.pages.find (ea l).toNat)
    (match k.pages.find (ea l).toNat with | some x => sp x l | none => [])

/-- The record of faulting lanes (R193): the primary cause has the highest priority, then the lowest cause code; XMASK holds
the lanes with it, XOTHER the other faulting ones, XADDR the address of each. -/
def LanesFault (ls : List Nat) (cs : Nat → Option Cause) (ea : Nat → DWord) (done : Word) (r : TrapReq) : Prop :=
  ∃ p xs, (∃ l ∈ ls, cs l = some p) ∧ (∀ l ∈ ls, ∀ q, cs l = some q → p.1 < q.1 ∨ (p.1 = q.1 ∧ p.2.2 ≤ q.2.2))
    ∧ r.code = p.2.1 ∧ r.cause = p.2.2 ∧ r.xdone = done ∧ r.xaddr = some xs
    ∧ ∀ l, l < 32 → inMask r.xmask l = decide (l ∈ ls ∧ cs l = some p)
      ∧ inMask r.xother l = decide (l ∈ ls ∧ (cs l).isSome = true ∧ cs l ≠ some p)
      ∧ xs.getD l 0 = if l ∈ ls ∧ (cs l).isSome = true then ea l else 0

/-- The record of an access that performs no lane when its one access faults (R158, R191, R193): every lane of m, one
address. -/
def WholeFault (m : Word) (c : Cause) (ea : DWord) (done : Word) (r : TrapReq) : Prop :=
  r = { code := c.2.1, cause := c.2.2, xmask := m, xdone := done, xaddr := some (lanes.map fun l => if inMask m l then ea else 0) }

/-- The lanes of XDONE that a replay has left out (R193): none on a fresh execution. -/
def doneBefore (s : State) (g : Gust) : Word := (g.replayOf s.curB).getD 0

/-- The lanes without a cause. -/
def soundLanes (ls : List Nat) (cs : Nat → Option Cause) : List Nat := ls.filter fun l => (cs l).isNone

/-- The translations of addresses meet no malformed entry, of which a record would be written (R293). -/
abbrev TablesSound (s : State) (g : Gust) (vas : List Nat) : Prop :=
  ∀ va ∈ vas, ∀ pa n, s.walk (s.frontOf g).part (s.frontOf g).asid va ≠ .malformed pa n

/-- Some lane has a cause, no page has a value that needs a feature which is not accepted (R393), no entry of the tables is
malformed, and the lanes without a cause have their addresses in the own package: k holds what the checks of an access find. -/
structure SomeFault (i : Instr) (s : State) (g : Gust) (a : Access) (size : Nat) (ls : List Nat) (ea : Nat → DWord)
    (idx : Nat → Nat) (sp : Xlat → Nat → List (Nat × Nat)) (k : Checked) : Prop where
  checked : k = checkLanes (mkCtx i g s.curB) s a size ls ea idx sp
  accepted : k.pages.found.all (fun x => !k.s.lacksFeature x) = true
  tables : TablesSound s g (ls.map fun l => (ea l).toNat)
  faulty : ∃ l ∈ ls, (causes k a size ea idx sp l).isSome = true
  near : ∀ l ∈ soundLanes ls (causes k a size ea idx sp), peerOf (k.dom (ea l)) = s.self

/-- The registers of ds that a write makes count towards GCNT (R25): they are neither G nor D, nor of the trap bank, nor
reserved. -/
def newlyWide (g : Gust) (ds : List Nat) : Nat := (ds.filter fun n => !(g.reg n).wide && countsByTag g n).length

/-- A write of ds with tag G would raise GCNT above GBUD (R25). -/
abbrev NoRoom (g : Gust) (ds : List Nat) : Prop := newlyWide g ds ≠ 0 ∧ g.gbud < g.gcnt + newlyWide g ds

/-- The instructions with one register result, by field form; each group writes D alone. -/
def writersR : List (Pfx → RForm → Instr) :=
  arithRows.map Prod.fst ++ logicRows.map Prod.fst ++ bitRows.map Prod.fst ++ fieldRows.map Prod.fst
    ++ floatRows1.map Prod.fst ++ floatRows2.map Prod.fst
    ++ [.iabs, .imad, .sel, .bfi, .ffma, .fmin, .fmax, .fclass, .shflIdx, .shflUp, .shflDown, .shflXor, .radd, .raddF, .rmax, .rmaxN,
        .rmaxF, .rmin, .rminN, .rminF, .scana, .scanaF, .bcast, .mkl, .mkg, .qplane, .dqx, .rand, .voteAny, .voteAll, .voteCount,
        .voteRank, .mpopc, .capchk, .captag, .rsbq, .awrd]
def writersI : List (Pfx → IForm → Instr) := [.iaddi, .andi, .ori, .xori, .ldi]
def writersPair : List (Pfx → RForm → Instr) := [.add64, .sub64, .mad64]

/-- The slots of a gust are as they were; a group that faults may have noted what it has found and done for its access. -/
def SamePaths (g h : Gust) : Prop := ∀ b, h.slot b = { g.slot b with pages := (h.slot b).pages }

/-- The gust after a load that has performed the lanes of m and faults in others: only registers and sticky flags change. -/
def PartLoaded (g h : Gust) (m : Word) (d : BitVec 7) (n : Nat) (val : Nat → Nat → Word) : Prop :=
  h = { g with a := h.a, b := h.b, regs := h.regs, trapBank := h.trapBank, capTags := h.capTags, trapCapTags := h.trapCapTags,
               fNX := h.fNX, fUF := h.fUF, fOF := h.fOF, fDZ := h.fDZ, fNV := h.fNV, xfpc := h.xfpc, xdest := h.xdest }
    ∧ SamePaths g h ∧ RegsKept g h (runOf d n) ∧ TagsFollow g h m 0 (runOf d n)
    ∧ ∀ j l, j < n → inMask g.lmask l → h.lane (h.reg (d.toNat + j)) l
        = if inMask m l then val j l else g.lane (g.reg (d.toNat + j)) l

/-- A vector load with n result registers from d up, some of whose lanes fault (R193, R360): the others are performed, and
XDONE records them; without room for their result none is, and XDONE keeps its value. -/
def LoadFaults (i : Instr) (s : State) (g : Gust) (ls : List Nat) (cs : Nat → Option Cause) (ea : Nat → DWord) (d : BitVec 7)
    (n : Nat) (val : Nat → Nat → Word) (fl : Nat → Fl) (frame : State → Prop) : Prop :=
  ((soundLanes ls cs = [] ∨ Room g (runOf d n)) →
    ∃ t h r, Traps i s t r ∧ LanesFault ls cs ea (doneBefore s g ||| maskOf fun l => (soundLanes ls cs).contains l) r
      ∧ frame t ∧ t.gust? s.cur = some h ∧ PartLoaded g h (maskOf fun l => (soundLanes ls cs).contains l) d n val
      ∧ FlagsRaised i s g h (destOf g d.toNat) fl)
  ∧ (soundLanes ls cs ≠ [] → NoRoom g (runOf d n) →
    ∃ t h r, Traps i s t r ∧ LanesFault ls cs ea g.xdone r ∧ OnlyLooked s t ∧ t.gust? s.cur = some h
      ∧ h = { g with a := h.a, b := h.b } ∧ SamePaths g h)

/-- The element that lane l of an LDX of size code K names, and whether its block sets NV (R57, R58, R162). -/
def elementAt (s : State) (kc : Nat) (k : Checked) (ea : Nat → DWord) (idx : Nat → Nat) (l : Nat) : Word × Bool :=
  match k.pages.find (ea l).toNat with
  | some x =>
    elementValue (s.tileHeader (x.domain (ea l).toNat) (idx l) x.blockLen) (planesRead kc x) x.outl
      (s.planeBit (x.domain (ea l).toNat) (idx l))
  | none => (0, false)

/-- The instructions that perform no lane when any lane faults and have one access (R158, R164, R191): their access, prefix,
size, address fields, and whether they acquire. -/
def oneAccess : Instr → Option (Access × Pfx × Nat × BitVec 7 × BitVec 7 × Bool)
  | .ldu p f => some (.load, p, Machine.sizeOf f.k.toNat, f.sa, f.sb, f.o == 1)
  | .lduDf p f => some (.load, p, Machine.sizeOf f.k.toNat, f.sa, f.sb, false)
  | .capld p f => some (.capLoad, p, 16, f.sa, f.sb, f.o == 1)
  | .capst p f => some (.capStore, p, 16, f.sa, f.sb, false)
  | _ => none

/-- The bytes that the checks of such an access look at for poison: those of a blocking load. -/
def oneSpan (i : Instr) (size : Nat) (ea : Nat → DWord) : Xlat → Nat → List (Nat × Nat) :=
  match i with
  | .ldu .. | .capld .. => plainSpan size ea
  | _ => fun _ _ => []

/-- Scratchpad loads: prefix, size code and fields (R167, R169). -/
def spLoad : Instr → Option (Pfx × Nat × BitVec 7 × BitVec 7 × BitVec 7)
  | .spld p f => some (p, f.k.toNat, f.sa, f.sb, f.d)
  | .ldlk p f => some (p, 4, f.sa, f.sb, f.d)
  | _ => none

/-- Scratchpad stores. -/
def spStore : Instr → Option (Pfx × Nat × BitVec 7 × BitVec 7 × BitVec 7)
  | .spst p f => some (p, f.k.toNat, f.sa, f.sb, f.d)
  | .stul p f => some (p, 4, f.sa, f.sb, f.d)
  | _ => none

/-- The lanes of a scratchpad access without a fault find no scoreboard entry in the way and their locks free (R168 to R170). -/
abbrev SpFree (s : State) (g : Gust) (n : Nat) (ea : Nat → Nat) (ok : List Nat) : Prop :=
  ∀ l ∈ ok, (s.core (coreOf s.cur)).overlaps (spBaseOf s g + ea l) (spBaseOf s g + ea l + n) = [] ∧ lockFree s (spBaseOf s g + ea l)

/-- A symbol as its reply brings it (R32): its lanes in other packages take the words of their homes, as they stand, or as they
stood when a later request came to their line (R335). -/
def arrivedSym (s : State) (y : Sym) : Sym :=
  { y with raw := lanes.map fun l =>
      if inMask y.mask l = true ∧ peerOf (y.doms.getD l 0) ≠ s.self then
        BitVec.ofNat 32 ((s.seeing y.seen).readNat (y.doms.getD l 0) (2 ^ y.size))
      else laneGet y.raw l }

/-! ## Traps -/

/-- The groups whose own effect is a trap: its code and cause, and the addresses that it reports (R90, R148, R358). -/
def softTrap : Instr → Option (Nat × Nat × Option (List DWord))
  | .trap _ f => some (0x11, f.sa.toNat, none)
  | .svc _ f => some (0x12, f.sa.toNat, none)
  | .illz p => some (0x01, if p = {} then 8 else 4, none)
  | .ill p => some (0x01, if p = {} then 9 else 4, none)
  | .fetchFault code cause va => some (code, cause, if code = 0x01 then none else some (List.replicate 32 va))
  | _ => none

/-- Nothing holds the entry of a trap of a slot (R366), and it has a vector. -/
structure EntersNow (s : State) (g : Gust) (k : Nat) (b : Bool) (code : Nat) : Prop where
  live : (g.slot b).live = true
  outside : g.handler = 0
  none' : g.pending = 0
  runs : g.halted = false
  uncut : s.cut = false
  here : inActive k = true
  vector : vectorOf s g (kindOf code) ≠ 0

/-- The group writes the registers ds and nothing else. -/
def writesAlone (i : Instr) (ds : List Nat) : Prop :=
  (∃ c ∈ writersR, ∃ p f, i = c p f ∧ f.w ≠ 1 ∧ ds = [f.d.toNat])
    ∨ (∃ c ∈ writersI, ∃ p f, i = c p f ∧ f.w ≠ 1 ∧ ds = [f.d.toNat])
    ∨ ∃ c ∈ writersPair, ∃ p f, i = c p f ∧ ds = [f.d.toNat, f.d.toNat + 1]

/-- The OR of FLAGS AND TEN over the lanes of a mask (R146). -/
def enabledSet (g : Gust) (m : Word) : Nat :=
  (List.range 5).foldl (fun c n =>
    if g.ten.getLsbD n && lanes.any (fun l => inMask m l && inMask ([g.fNX, g.fUF, g.fOF, g.fDZ, g.fNV].getD n 0) l) then c + 2 ^ n
    else c) 0

/-! ## Replies -/

/-- The homes serve a blocking access whose reply arrives next (R335): no earlier request of its lines is out, and no lane of it
meets poison; t1 is the state and v the access with its values after that. -/
structure ServedNext (s : State) (r : Reply) (t1 : State) (r1 v : Reply) : Prop where
  first : ∀ l ∈ r.lines, s.outOn l.2 r.num = []
  sound : (s.seeing r.seen).poisonLanes r = 0
  served : s.seeAll (r.only (~~~0)) = (t1, r1)
  valued : v = r1.valued (t1.seeing r1.seen) r1.olds

/-! ## Commands at work -/

/-- Command c is at the head of an engine context, and the context may start it (R195, R327): it is not faulted, an ordered
command waits for every earlier one, a copy context runs at most four. -/
structure Heads (s : State) (key : Nat) (e : Eng) (fr : Front) (c : Cmd) (q : List Cmd) : Prop where
  ctx : s.eng? key = some e
  front : s.front? e.front = some fr
  queue : e.queue = c :: q
  rest : ∀ x ∈ q, x.num ≠ c.num
  sound : e.faulted = false
  ord : cmdField c.bytes 1 1 % 2 = 1 → e.started = []
  few : e.cls = 1 → e.started.length < 4

/-- The head command starts: it leaves the queue and stands among the started ones; no other context changes. -/
def Begins (s t : State) (key : Nat) (e : Eng) (c : Cmd) (q : List Cmd) : Prop :=
  t.eng? key = some { e with queue := q, started := e.started ++ [{ cmd := c }] } ∧ ∀ k, k ≠ key → t.eng? k = s.eng? k

/-- The leave request of a job (R328). -/
def requestOf (j : Job) (cost : Nat) : LeaveReq :=
  { part := j.fr.part, eng := j.key, num := j.cmd.num, core := j.cmd.core, cost := cost }

/-- Only the leave requests of one die change, to rs. -/
def LeaveBecomes (s t : State) (die : Nat) (rs : List LeaveReq) : Prop :=
  t = { s with dies := t.dies } ∧ (t.die die) = { s.die die with leave := rs } ∧ ∀ d, d ≠ die → t.die d = s.die d

/-- A started command of a type whose effect has still to happen. -/
def Working (s : State) (key num type : Nat) (j : Job) : Prop :=
  ∃ e st, s.eng? key = some e ∧ e.run? num = some st ∧ s.job? key st.cmd = some j ∧ st.done = false ∧ j.type = type

/-- The contexts after the effect of command num of a context: it stands as done, nothing else of the contexts changes. -/
def MarkedDone (s t : State) (key num : Nat) : Prop :=
  (∀ e, s.eng? key = some e → t.eng? key =
      some { e with started := e.started.map fun x => if x.cmd.num == num then { x with done := true } else x })
    ∧ ∀ k, k ≠ key → t.eng? k = s.eng? k

/-- A command has had its effect on memory and scratchpads: beside TLBs, free choices and its own mark nothing else has
changed, and memory only in the bytes that p admits, scratchpads only in the bytes that q admits. -/
def CommandDone (s t : State) (key num : Nat) (p : Nat → Prop) (q : Nat → Nat → Prop) : Prop :=
  t = { s with engs := t.engs, cores := t.cores, dies := t.dies, free := t.free, mem := t.mem, memTags := t.memTags,
               sec := { s.sec with ranges := t.sec.ranges } }
    ∧ (∀ c, t.core c = { s.core c with scratch := (t.core c).scratch }) ∧ (∀ d, t.die d = { s.die d with tlb := (t.die d).tlb, copyLast := (t.die d).copyLast })
    ∧ MarkedDone s t key num ∧ (∀ a, ¬ p a → memGet t.mem a = memGet s.mem a)
    ∧ ∀ c a, ¬ q c a → memGet (t.core c).scratch a = memGet (s.core c).scratch a

/-- Whether a place holds byte i of memory, or of a scratchpad. -/
def inMem (x : EPlace) (n a : Nat) : Prop := ∃ d, x = .mem d ∧ d ≤ a ∧ a < d + n
def inSpad (x : EPlace) (n c a : Nat) : Prop := ∃ b, x = .scratch c b ∧ b ≤ a ∧ a < b + n

/-- A place in memory or in a scratchpad, which a command may write. -/
abbrev Plain (x : EPlace) (n : Nat) : Prop := (∃ d, x = .mem d ∧ Storable d n) ∨ ∃ c a, x = .scratch c a

/-- A run of n bytes at an address that one piece of at most 4 KiB within 64 KiB holds (R327). -/
abbrev OnePiece (a n : Nat) : Prop := 0 < n ∧ n ≤ 4096 ∧ a % 0x10000 + n ≤ 0x10000

/-- As OnePiece, for bytes that are written: none but its ends lies inside 8 aligned bytes (R265). -/
abbrev OneWrite (a n : Nat) : Prop := OnePiece a n ∧ a % 8 + n ≤ 4096

/-- The record of a command fault (R200, R375): 64 bytes in the partition's queue, recovery action 10. -/
def FaultRecord (s t : State) (j : Job) (cls code : Nat) : Prop :=
  ∀ ctl prod, ctl = s.own (partArea j.fr.part + 0x2000) → prod = memNat s.mem ctl 4 → j.fr.part < 16 →
    (prod + 2 ^ 32 - memNat s.mem (ctl + 4) 4) % 2 ^ 32 < 1024 → s.self < 64 →
    memNat t.mem ctl 4 = (prod + 1) % 2 ^ 32
      ∧ memNat t.mem (s.own (partArea j.fr.part + 0x4000 + 64 * (prod % 1024))) 1 = cls
      ∧ memNat t.mem (s.own (partArea j.fr.part + 0x4000 + 64 * (prod % 1024)) + 2) 2 = code
      ∧ memNat t.mem (s.own (partArea j.fr.part + 0x4000 + 64 * (prod % 1024)) + 4) 1 = 10

/-- The types of the copy family with a run of their own (R213 to R216). -/
def copyInstr (key num : Nat) : List (Nat × Instr) :=
  [(0x10, .cpy key num), (0x11, .cpy2d key num), (0x12, .gather key num), (0x13, .scatter key num), (0x14, .fill key num),
   (0x16, .xpose key num), (0x17, .hostfl key num), (0x18, .ringx key num)]

/-- The field checks of CPY, CPY2D, FILL, GATHER and SCATTER, HOSTFL, XPOSE, RINGX, LQFWD find no fault (R200, R213). -/
abbrev InOrder (j : Job) (gaps : List (Nat × Nat)) (addrs : List Nat) (oks : List (Nat × Bool)) : Prop :=
  firstFault (j.common gaps ++ addrs.map j.addrOk ++ oks.map fun x => fieldOk x.1 x.2) = none

/-- A command has faulted: its context is faulted, and what had not started is discarded (R200). -/
def Faulted (s t : State) (key : Nat) : Prop :=
  ∃ e x, s.eng? key = some e ∧ t.eng? key = some x ∧ x.faulted = true ∧ x.queue = [] ∧ x.timeline = e.timeline
    ∧ x.completed = e.completed ∧ ∀ k, k ≠ key → t.eng? k = s.eng? k

/-- The scratchpad byte of the pushing core at an offset of the front's allocation. -/
def frontSp (s : State) (j : Job) (a n : Nat) : List Byte := memGetBytes (s.core j.cmd.core).scratch (j.fr.spBase j.cmd.core + a) n

/-- An offset field names the scratchpad, and n bytes from a up lie in the allocation. -/
abbrev InSpad (j : Job) (off a n : Nat) : Prop := j.space off = 1 ∧ a + n ≤ j.fr.scratch

/-- The tile that XPOSE makes of 32 rows of 32 elements (R215). -/
def xposeTile (s : State) (j : Job) (a : Nat) (stride : Nat) : List Byte :=
  tileSlot (j.f 0x29 1) (blenOf (j.f 0x2A 1)) ((List.range 32).flatMap fun r => (List.range 32).map fun e =>
    xposeValue (j.f 0x28 1) (frontSp s j (a + r * stride + e * xposeSize (j.f 0x28 1)) (xposeSize (j.f 0x28 1))))

/-! ## Swaps of pages -/

/-- As Working, with the started command itself. -/
def WorkingAt (s : State) (key num type : Nat) (j : Job) (st : Started) : Prop :=
  ∃ e, s.eng? key = some e ∧ e.run? num = some st ∧ s.job? key st.cmd = some j ∧ st.done = false ∧ j.type = type

/-- The contexts after a step of a command that goes on: its mark is st, nothing else of the contexts changes. -/
def GoesOnAs (s t : State) (key num : Nat) (f : Started → Started) : Prop :=
  (∀ e, s.eng? key = some e → t.eng? key =
      some { e with started := e.started.map fun x => if x.cmd.num == num then f x else x })
    ∧ ∀ k, k ≠ key → t.eng? k = s.eng? k

/-- The first turn of a copy command, or a later one, at its engine (R327). -/
structure TurnOf (s : State) (key num type : Nat) (j : Job) (left : Option (Bool × List Nat)) : Prop where
  has : ∃ st, WorkingAt s key num type j st ∧ st.left = left
  turn : s.copyTurn key = true

/-- The effect of a copy command has ended in state t: beside its mark, and which context its engine has served, nothing
changes any more. -/
def EndsFrom (t u : State) (key num : Nat) : Prop :=
  MarkedDone t u key num ∧ u = { t with engs := u.engs, dies := u.dies }
    ∧ ∀ d, u.die d = { t.die d with copyLast := (u.die d).copyLast }

/-- A step of a swap command has led from u to t: nothing but the mark of the command and, for a copy context, what its engine
has served is new. -/
def StepFrom (u t : State) (type : Nat) : Prop :=
  t = { u with engs := t.engs, dies := t.dies } ∧ (∀ d, t.die d = { u.die d with copyLast := (t.die d).copyLast })
    ∧ (type = 0x20 → t.dies = u.dies)

/-- The two swap commands: type, instruction, format of the new page, BUMP. -/
def swapInstr (key num : Nat) (j : Job) : List (Nat × Instr × Option TileFmt × Bool) :=
  [(0x20, .migrate key num, none, j.f 0x15 1 % 2 == 1),
   (0x15, .reqnt key num, some { planes := j.f 0x15 1, blen := j.f 0x16 1 }, j.f 0x17 1 % 2 == 1)]

/-- The field checks of a swap command pass (R213, R215). -/
abbrev SwapInOrder (j : Job) (type : Nat) : Prop :=
  if type = 0x20 then
    InOrder j [(0x16, 42)] [] [(0x08, j.f 0x08 8 % 0x10000 == 0 && decide (j.f 0x08 8 < 2 ^ 56)), (0x10, decide (j.f 0x10 4 ≤ 2 ^ 20)),
      (0x14, decide (j.f 0x14 1 < 2)), (0x15, decide (j.f 0x15 1 < 2))]
  else
    InOrder j [(0x18, 40)] [] [(0x08, j.f 0x08 8 % 0x10000 == 0 && decide (j.f 0x08 8 < 2 ^ 56)), (0x10, decide (j.f 0x10 4 ≤ 2 ^ 20)),
      (0x14, j.f 0x14 1 == 1), (0x15, decide (2 ≤ j.f 0x15 1) && decide (j.f 0x15 1 ≤ 8)),
      (0x16, decide (1 ≤ j.f 0x16 1) && decide (j.f 0x16 1 ≤ 3)), (0x17, decide (j.f 0x17 1 < 2))]

/-- The leaf x at entry e of the page at an address of the job's space, with the entry's two words. -/
def PageAtVa (s : State) (j : Job) (va : Nat) (p : PageAt) : Prop :=
  ∃ level, s.walk j.fr.part j.fr.asid va = .leaf p.x p.entry level ∧ p.w0 = memNat s.mem (s.own p.entry) 8
    ∧ p.w1 = memNat s.mem (s.own (p.entry + 8)) 8

/-- The page of a swap may be swapped (R297): stable, of the own package, its address aligned to its size; REQNT takes plane
tiles alone. -/
abbrev MaySwap (s : State) (va : Nat) (p : PageAt) (f : Option TileFmt) : Prop :=
  p.x.mig = 0 ∧ p.x.peer = s.self ∧ va % pageBytes p.x.size = 0 ∧ (f.isSome = true → p.x.fmt = 1) ∧ s.lacksFeature p.x = false

/-- A page of memory at pa, apart from the entry of 16 bytes and from what only the hub writes. -/
abbrev ApartFrom (pa n entry : Nat) : Prop :=
  pa + n ≤ 0x80000000000 ∧ entry + 16 ≤ 2 ^ 44 ∧ (entry + 16 ≤ pa ∨ pa + n ≤ entry)

/-! ## Fronts and the schedule -/

/-- Gust i of a front has been launched in state t (R11, R322): at the entry, with its mask, on a core of the front's die that
its partition owns. -/
def Launched (s t : State) (f : Nat) (fr : Front) (i : Nat) : Prop :=
  ∃ k g, s.gust? k = none ∧ t.gust? k = some g ∧ g.front = f ∧ g.gustId = i ∧ g.a.pc = fr.entry
    ∧ g.a.mask = (if i + 1 = fr.gusts ∧ fr.lastLanes ≠ 0 then lowMask fr.lastLanes else 0xFFFFFFFF) ∧ g.lmask = g.a.mask
    ∧ g.b.mask = 0 ∧ g.dsp = 0 ∧ g.wb = 0 ∧ g.alloc = fr.alloc ∧ g.gbud = fr.gbud ∧ g.regs = [] ∧ g.frame.toNat % 1024 = 0
    ∧ resident k = true ∧ fr.die = some (dieOf (coreOf k)) ∧ coreOf k ∈ s.coresOf fr.part
    ∧ ∀ j, j ≠ k → t.gust? j = s.gust? j

/-- The entry of a schedule after its start at tick n (R314): the next due start, or no longer valid. -/
def AfterStart (x : Sched) (n : Nat) : Sched :=
  if x.period = 0 then { x with valid := false }
  else { x with next := BitVec.ofNat 64 (x.next.toNat + ((n - x.next.toNat) / x.period.toNat + 1) * x.period.toNat) }

/-- A tick passes (R312): NOW is at tick n, and the watchdogs have counted. -/
def Ticked (s t : State) (n : Nat) : Prop :=
  t.hub.now.toNat = 1000 * n ∧ t.gusts = s.gusts ∧ t.engs = s.engs ∧ t.fronts = s.fronts
    ∧ ∀ q, q < s.parts.length → t.part q = { s.part q with
        wdLeft := if (s.part q).wdLeft = 0 then 0 else (s.part q).wdLeft - 1 }

/-! ## The fabric -/

/-- A remap has begun or, with no other peer in the domain, is already over (R336): every peer is asked for its count on the
plane that has failed, if one has. -/
def RemapStarted (s t : State) (failed : Option Nat) (next : BitVec 24) : Prop :=
  (s.peers = [] → t.hub.remap = next ∧ t.hub.remapping = none)
    ∧ (s.peers ≠ [] → t.hub.remap = s.hub.remap
      ∧ t.hub.remapping = some { failed := failed.toList, next := next, began := s.hub.now.toNat, asked := s.hub.now.toNat,
                                 waiting := s.peers.map fun p => (p, failed.getD 8), counts := [] })

/-- A remap that runs goes on with one more failed plane, or with a new REMAP (R336). -/
def RemapGoesOn (s t : State) (r : Remap) (failed : Option Nat) (next : BitVec 24) : Prop :=
  s.peers ≠ [] → t.hub.remap = s.hub.remap
    ∧ t.hub.remapping = some { r with failed := r.failed ++ failed.toList, next := next, asked := s.hub.now.toNat, waiting :=
        (r.waiting.filter fun w => w.2 != failed.getD 8) ++ s.peers.map fun p => (p, failed.getD 8) }

/-- A time of sending once a remap that began at a time has ended: the remap's time is not counted (R346). -/
def afterRemap (s : State) (began t : Nat) : Nat := t + (s.hub.now.toNat - max began t)

/-- Nothing more of a posted operation is out on a request's line. -/
abbrev OnlyOnLine (s : State) (r : Request) : Prop :=
  (∀ x ∈ s.hub.requests, x.id ≠ r.id → x.line ≠ r.line) ∧ ∀ c ∈ s.cores, c.2.wcb = []

/-- The plane of a line under a REMAP (R334). -/
def planeUnder (remap : BitVec 24) (line : Nat) : Nat :=
  remap.toNat / 8 ^ (line * 128 / 2 ^ 7 % 8 ^^^ line * 128 / 2 ^ 18 % 8) % 8

/-- A packet that this package takes (R336, R342). -/
abbrev PacketTaken (s : State) (p : Packet) : Prop :=
  s.input.pkt = p ∧ s.hub.domMask.getLsbD p.peer = true ∧ p.peer ≠ s.self ∧ p.part < 16 ∧ p.plane < 8

/-- The posted operation id of a gust no longer waits for a line. -/
def withoutLine (g : Gust) (id line : Nat) : Gust :=
  { g with posted := g.posted.map fun x => if x.id == id then { x with lines := x.lines.filter fun l => l.2.1 != line } else x }

/-! ## Resets, errors, the host -/

/-- Vector 0 of a function has been raised less than 10 µs ago (R350). -/
abbrev ToldLately (s : State) (fn : Nat) : Prop := ∃ m, tabGet? s.hub.msixLast fn = some m ∧ s.hub.now.toNat < m + 10000

/-- A record is written to the package queue (R353, R374): class, code and recovery action, if the ring has room; its vector
becomes pending, or is held until 10 µs after the last (R350). -/
def PackageRecord (s t : State) (cls code action : Nat) : Prop :=
  ∀ ctl prod, ctl = s.own (winBase + 0x10000) → prod = memNat s.mem ctl 4 →
    (prod + 2 ^ 32 - memNat s.mem (ctl + 4) 4) % 2 ^ 32 < 1024 →
    memNat t.mem ctl 4 = (prod + 1) % 2 ^ 32
      ∧ memNat t.mem (s.own (winBase + 0x11000 + 64 * (prod % 1024))) 1 = cls
      ∧ memNat t.mem (s.own (winBase + 0x11000 + 64 * (prod % 1024)) + 2) 2 = code
      ∧ memNat t.mem (s.own (winBase + 0x11000 + 64 * (prod % 1024)) + 4) 1 = action
      ∧ (ToldLately s 0 → 0 ∈ t.hub.msixHeld) ∧ (¬ ToldLately s 0 → 0 ∈ t.hub.msix)

/-- No started command has still to have its effect. -/
abbrev NothingStarted (s : State) : Prop := ∀ e ∈ s.engs, ∀ x ∈ e.2.started, x.done = true

/-- A reset of partition q drains a gust (R371): it is resident, of a front that is not pre-emptible. -/
def Drains (s : State) (q : Nat) (e : Nat × Gust) : Prop :=
  resident e.1 = true ∧ ∃ f ∈ s.fronts, f.1 = e.2.front ∧ f.2.part = q ∧ f.2.preempt = false

/-- The bytes of the save area that a drain writes for a gust (R41, R371). -/
def areaBytes (s : State) (g : Gust) : List Byte := g.saveBytes (s.frontIdOf g) []

/-- The gusts that a reset of partition q drains have no work open, their save areas carry no poison, and none is twinned: the
drain writes their save areas and nothing else. -/
structure QuietDrain (s : State) (q : Nat) : Prop where
  keyed : keysFrom 0 s.gusts = true
  single : s.twins = []
  landed : ∀ e ∈ s.gusts, Drains s q e → e.2.a.awaits = false ∧ e.2.b.awaits = false ∧ (∀ y ∈ e.2.syms, y.state ≠ 1)
    ∧ e.2.posted = [] ∧ ∀ n, s.poisoned (s.own e.2.saveArea) n = false

/-- Byte a lies in a save area that a reset of partition q writes. -/
def drainedByte (s : State) (q a : Nat) : Prop :=
  ∃ e ∈ s.gusts, Drains s q e ∧ s.own e.2.saveArea ≤ a ∧ a < s.own e.2.saveArea + (areaBytes s e.2).length

/-- The save areas of the drained gusts are written (R371), each that no other overlaps with its gust's context. -/
def AreasWritten (s t : State) (q : Nat) : Prop :=
  (∀ a, ¬ drainedByte s q a → memGet t.mem a = memGet s.mem a)
    ∧ ∀ e ∈ s.gusts, Drains s q e → (∀ x ∈ s.gusts, Drains s q x → x ≠ e →
        s.own x.2.saveArea + (areaBytes s x.2).length ≤ s.own e.2.saveArea
          ∨ s.own e.2.saveArea + (areaBytes s e.2).length ≤ s.own x.2.saveArea) →
      memGetBytes t.mem (s.own e.2.saveArea) (areaBytes s e.2).length = areaBytes s e.2

/-- A partition has been reset with a cause (R380): its fronts, instances, requests and schedule entries are gone; with no
command of its own under way and nothing open to land, so are its gusts, the other partitions keep what they hold, and its
incarnation has risen. -/
def PartReset (s t : State) (q cause : Nat) : Prop :=
  (∀ e ∈ t.fronts, e.2.part ≠ q) ∧ (∀ e ∈ t.insts, e.2.part ≠ q) ∧ (∀ r ∈ t.hub.requests, r.part ≠ q)
    ∧ (∀ e ∈ t.sched, e.2.part.toNat = q → e.2.valid = false)
    ∧ (NothingStarted s → QuietDrain s q → (∀ e ∈ s.fronts, e.2.part ≠ q → e ∈ t.fronts)
      ∧ (∀ e ∈ t.gusts, ∀ f ∈ s.fronts, f.2.part = q → e.2.front ≠ f.1)
      ∧ (∀ e ∈ s.gusts, (∀ f ∈ s.fronts, f.2.part = q → e.2.front ≠ f.1) → e ∈ t.gusts)
      ∧ t.hub.inc.getD q 0 = s.hub.inc.getD q 0 + 1 ∧ (∀ r, r ≠ q → t.hub.inc.getD r 0 = s.hub.inc.getD r 0)
      ∧ (t.part q).prstCause = BitVec.ofNat 8 cause ∧ (t.part q).running = true ∧ (t.part q).resetting = false
      ∧ (t.part q).wdLeft = (s.part q).wdog ∧ (t.part q).pools = (s.part q).pools ∧ ∀ r, r ≠ q → t.part r = s.part r)

/-- After a package reset (R380 to R382): nothing runs, and the cause is set. -/
def PackageReset (t : State) (code : Nat) : Prop :=
  t.gusts = [] ∧ t.fronts = [] ∧ t.insts = [] ∧ t.engs = [] ∧ t.sched = [] ∧ t.dbg = {} ∧ t.hub.requests = [] ∧ t.hub.lq = []
    ∧ t.hub.rstCause = BitVec.ofNat 8 code ∧ t.hub.trip = 0 ∧ t.sec.featLock = false ∧ t.sec.featAcc = 0 ∧ t.sec.ranges = []
    ∧ ∀ q, q < 16 → (t.part q).prstCause = BitVec.ofNat 8 code ∧ (t.part q).pools = List.replicate 6 []

/-- The clock, the own index and RSTCOUNT after a package reset (R382). -/
def HubKept (s t : State) (count : Word) : Prop :=
  t.hub.now = s.hub.now ∧ t.hub.peerId = s.hub.peerId ∧ t.hub.domMask = BitVec.ofNat 64 (2 ^ s.hub.peerId.toNat)
    ∧ t.hub.rstCount = count

/-- The incarnations have risen by one (R382). -/
def IncRisen (s t : State) : Prop := s.hub.inc.length = 16 → ∀ q, q < 16 → t.hub.inc.getD q 0 = s.hub.inc.getD q 0 + 1

/-- The words of the hub's queues that a package reset clears (R381): the FILL words of the pools, and the index words of the
partitions' queues and of the package queue. -/
def queueWord (s : State) (a : Nat) : Prop :=
  (∃ q i, q < 16 ∧ i < 6 ∧ s.own (poolFillPa q i) ≤ a ∧ a < s.own (poolFillPa q i) + 8)
    ∨ (∃ q, q < 16 ∧ s.own (partArea q + 0x2000) ≤ a ∧ a < s.own (partArea q + 0x2000) + 20)
    ∨ (s.own (winBase + 0x10000) ≤ a ∧ a < s.own (winBase + 0x10000) + 20)

/-- No command and no gust has open work, in any partition. -/
abbrev Quiet (s : State) : Prop := NothingStarted s ∧ ∀ q, q < 16 → QuietDrain s q

/-- A reset that keeps memory, as code 3 (R381): the queue words become 0, and all other memory and the scratchpads are
kept, but for the save areas that the drain writes (R371). -/
def KeptReset (s t : State) (code : Nat) : Prop :=
  PackageReset t code ∧ t.inReset = false ∧ t.sec.bootStat = 1 ∧ (∀ q, q < 16 → (t.part q).running = true)
    ∧ (Quiet s → HubKept s t (s.hub.rstCount + 1) ∧ t.hub.remap = s.hub.remap
      ∧ (∀ c, (t.core c).scratch = (s.core c).scratch ∧ (t.core c).accum = (s.core c).accum
          ∧ (t.core c).retired = (s.core c).retired)
      ∧ IncRisen s t ∧ (∀ a, queueWord s a → memGet t.mem a = 0)
      ∧ ∀ a, ¬ queueWord s a → (∀ q, q < 16 → ¬ drainedByte s q a) → memGet t.mem a = memGet s.mem a)

/-- The record of a package reset's cause is the first of the package queue (R353, R374, R377; log 60). -/
def FirstRecord (s t : State) (cls code : Nat) : Prop :=
  memNat t.mem (s.own (winBase + 0x10000)) 4 = 1 ∧ memNat t.mem (s.own (winBase + 0x11000)) 1 = cls
    ∧ memNat t.mem (s.own (winBase + 0x11002)) 2 = code ∧ memNat t.mem (s.own (winBase + 0x11004)) 1 = 8 ∧ 0 ∈ t.hub.msix

/-- A reset after a trip: as KeptReset, but the compute dies have lost what they held (R377, R381). -/
def TripReset (s t : State) (code : Nat) : Prop :=
  PackageReset t code ∧ t.inReset = false ∧ t.sec.bootStat = 1 ∧ (∀ q, q < 16 → (t.part q).running = true)
    ∧ (Quiet s → HubKept s t (s.hub.rstCount + 1) ∧ t.hub.remap = s.hub.remap ∧ IncRisen s t)

/-- Whether bring-up finds its firmware images accepted (R389). -/
def ImagesAccepted (s : State) : Bool := (verifyImages s.sec.rollback s.input.boot.images [0, 1, 2] clearM).2

/-- A reset with full bring-up: HBM and the cores are cleared, HBF and host memory are kept, and bring-up ends with its status
(R381, R388). -/
def FullReset (s t : State) (code : Nat) (count : Word) : Prop :=
  PackageReset t code ∧ t.cores = [] ∧ t.hub.remap = 0xFAC688 ∧ t.hub.planeStat = 0xFF
    ∧ (NothingStarted s → HubKept s t count
      ∧ (∀ a, regionOf (localPa a) = .hbm → peerOf a = s.self → memGet t.mem a = 0)
      ∧ (∀ a, regionOf (localPa a) = .hbf ∨ regionOf (localPa a) = .host → memGet t.mem a = memGet s.mem a)
      ∧ (ImagesAccepted s = false → t.sec.bootStat = 2 ∧ t.inReset = true)
      ∧ (ImagesAccepted s = true → s.input.boot.trained = false → t.sec.bootStat = 3 ∧ t.inReset = true)
      ∧ (ImagesAccepted s = true → s.input.boot.trained = true → t.sec.bootStat = 1 ∧ t.inReset = false
          ∧ (code = 1 → ∀ q, q < 16 → t.hub.inc.getD q 0 = Config.flashIncarnation (s.sec.bootNo + 1) q)
          ∧ (code ≠ 1 → IncRisen s t)))

/-- MSI-X vector 3 is raised for every function when PTPSTAT has changed (R350). -/
def PtpTold (s t : State) : Prop :=
  t.hub.ptpStat ≠ s.hub.ptpStat → ∀ fn, fn ≤ s.hub.config.vfs → fn * 16 + 3 ∈ t.hub.msix

/-! ## The debug port -/

/-- A debug command is refused with a reason of spec/13 Table 14. -/
def DebugRefuses (i : Instr) (s : State) (r : BitVec 4) : Prop :=
  exec i s = .next { s with dbg := { s.dbg with st := 3, reason := r, cmd := 0 } }

/-- A debug command is done; besides DBGSTAT only gusts and fronts have changed, and the save areas of gusts that are swapped
out, which follow them (R367); a range that such an area lies in is no longer installed (R390). -/
def DebugDone (i : Instr) (s t : State) : Prop :=
  exec i s = .next t
    ∧ t = { s with gusts := t.gusts, fronts := t.fronts, mem := t.mem, sec := { s.sec with ranges := t.sec.ranges }
                   dbg := { s.dbg with st := 2, reason := 0, cmd := 0 } }
    ∧ (∀ r ∈ t.sec.ranges, r ∈ s.sec.ranges)
    ∧ ((∀ e ∈ s.gusts, resident e.1 = true) → t.mem = s.mem ∧ t.sec = s.sec)

/-- DBGWADDR names offset o of a core of the target partition. -/
abbrev DebugNames (s : State) (core o : Nat) : Prop :=
  s.dbg.wAddr.toNat = 0xD0000000000 + core * 0x1000000 + o ∧ core < 320 ∧ o < 0x1000000 ∧ s.ownerOf core = s.dbg.part.toNat

/-- An installation ends with a status in place of success and the record 0x0B/0x0001 (R390); a range that the record's bytes
lie in is no longer installed. -/
def NotInstalled (s t : State) (st : BitVec 3) : Prop :=
  t.sec = { s.sec with instStat := st, ranges := t.sec.ranges } ∧ (∀ r ∈ t.sec.ranges, r ∈ s.sec.ranges)
    ∧ PackageRecord s t 0x0B 0x0001 0

/-! ## Steps and encodings -/

/-- The state in which a chosen position issues, before its fetch (R71, R323); cut says that a halt or a slot end falls due at
the boundary that ends its group (R366). -/
def chosen (s : State) (k : Nat) (b cut : Bool) (g : Gust) (rest : List Turn) : State :=
  { s with agenda := rest, cut := cut }.issuing k b g

/-- The next turn is that position k of the agenda issues, its quadrant chooses it, and no gust is twinned. -/
structure IssuesNext (s : State) (k : Nat) (b cut : Bool) (g : Gust) (rest : List Turn) : Prop where
  first : s.agenda = .issue k b cut :: rest
  here : s.gust? k = some g
  plain : g.entryDue k = false
  chosen : { s with agenda := rest, cut := cut }.chosen k b = true
  single : s.twins = []

/-- An outcome with the twins that gusts launched by it have from now on: copies with save areas of their own (R372). -/
def withTwins (r : Machine.Outcome) : Machine.Outcome :=
  match r with
  | .next u =>
    .next { u with twins := (u.gusts.filter fun e => e.2.twin.isSome).map fun e =>
        (e.1, { e.2 with saveArea := e.2.saveArea + 0x10000 }) }
  | r => r

/-- The worked encodings of spec/03 Table 8: a row's words, and the instruction with its fields. -/
def workedEncodings : List (List Word × Instr) :=
  [ ([0x041E0284], .iadd {} ⟨0, 120, 5, 4⟩),
    ([0x10014082], .iaddi {} ⟨0, 5, 1, 2⟩),
    ([0xF602468A, 0x259E0008], .ldi { i := some 0x2468A } ⟨0, 0x678, 0, 8⟩),
    ([0xF4410000, 0x3063058A], .ffma { m := some ⟨1, 0, 0, 1, 0⟩ } ⟨0, 12, 11, 10⟩),
    ([0x0C424403], .icmp {} 2 ⟨0, 9, 8, 3⟩),
    ([0x9A40CA08], .ldDf {} ⟨4, 3, 20, 8⟩),
    ([0xF4100000, 0xA63FCA06], .st { m := some ⟨0, 0, 4, 0, 0⟩ } ⟨4, 1, 127, 20, 6⟩),
    ([0xF400000C, 0x80200005], .brd { m := some ⟨0, 0, 0, 0, 12⟩ } ⟨0, 2, 5⟩),
    ([0xC4504FFD], .braw {} ⟨5, 4, 0xFFD⟩),
    ([0xED024380], .mts {} ⟨0x009, 7, 0⟩),
    ([0xD888D005], .pushDie {} ⟨0x23, 32, 5⟩) ]
end Sys2Proof.Claims

section Statements
open Sys2Proof Sys2Proof.Machine Sys2Proof.Claims

/-! ## Integer instructions -/

/-- spec/04 R96: the results of major 0x01 with two sources, and IABS and IMAD; no flag is set, nothing else changes. -/
def Obligations.IntegerArithmeticWritesTheTableResult : Prop :=
  (∀ e ∈ arithRows, ∀ p f s g, ReadyReg (e.1 p f) s g f.w f.d →
    WritesReg (e.1 p f) s g f.w f.d fun l => e.2 (operand s g f.sa l) (operand s g f.sb l))
  ∧ (∀ p f s g, ReadyReg (.iabs p f) s g f.w f.d →
    WritesReg (.iabs p f) s g f.w f.d fun l => BitVec.ofNat 32 (operand s g f.sa l).toInt.natAbs)
  ∧ ∀ p f s g, ReadyReg (.imad p f) s g f.w f.d →
    WritesReg (.imad p f) s g f.w f.d fun l => operand s g f.sa l * operand s g f.sb l + regLane g f.d l

/-- spec/04 R97, R98: the results of major 0x02, bit fields among them. -/
def Obligations.LogicShiftsAndBitFieldsWriteTheTableResult : Prop :=
  (∀ e ∈ logicRows, ∀ p f s g, ReadyReg (e.1 p f) s g f.w f.d →
    WritesReg (e.1 p f) s g f.w f.d fun l => e.2 (operand s g f.sa l) (operand s g f.sb l))
  ∧ (∀ e ∈ bitRows, ∀ p f s g, ReadyReg (e.1 p f) s g f.w f.d →
    WritesReg (e.1 p f) s g f.w f.d fun l => e.2 (operand s g f.sa l))
  ∧ (∀ p f s g, ReadyReg (.sel p f) s g f.w f.d →
    WritesReg (.sel p f) s g f.w f.d fun l => if regLane g f.d l ≠ 0 then operand s g f.sa l else operand s g f.sb l)
  ∧ (∀ e ∈ fieldRows, ∀ p f s g, ReadyReg (e.1 p f) s g f.w f.d →
    WritesReg (e.1 p f) s g f.w f.d fun l => e.2 (operand s g f.sa l) (operand s g f.sb l))
  ∧ ∀ p f s g, ReadyReg (.bfi p f) s g f.w f.d →
    WritesReg (.bfi p f) s g f.w f.d fun l => insertField (operand s g f.sa l) (operand s g f.sb l) (regLane g f.d l)

/-- spec/04 R100 to R102, R83: the immediate forms. -/
def Obligations.ImmediateFormsUseTheGroupImmediate : Prop :=
  (∀ p f s g, ReadyReg (.iaddi p f) s g f.w f.d →
    WritesReg (.iaddi p f) s g f.w f.d fun l => operand s g f.sa l + BitVec.ofInt 32 (groupImm p f.imm))
  ∧ (∀ p f s g, ReadyReg (.andi p f) s g f.w f.d →
    WritesReg (.andi p f) s g f.w f.d fun l => operand s g f.sa l &&& BitVec.ofInt 32 (groupImm p f.imm))
  ∧ (∀ p f s g, ReadyReg (.ori p f) s g f.w f.d →
    WritesReg (.ori p f) s g f.w f.d fun l => operand s g f.sa l ||| BitVec.ofInt 32 (groupImm p f.imm))
  ∧ (∀ p f s g, ReadyReg (.xori p f) s g f.w f.d →
    WritesReg (.xori p f) s g f.w f.d fun l => operand s g f.sa l ^^^ BitVec.ofInt 32 (groupImm p f.imm))
  ∧ (∀ p f s g, ReadyReg (.ldi p f) s g f.w f.d →
    WritesReg (.ldi p f) s g f.w f.d fun _ => BitVec.ofInt 32 (groupImm p f.imm))
  ∧ (∀ p f s g, ReadyReg (.shli p f) s g f.w f.d →
    WritesReg (.shli p f) s g f.w f.d fun l => operand s g f.sa l <<< f.cnt.toNat)
  ∧ (∀ p f s g, ReadyReg (.shri p f) s g f.w f.d →
    WritesReg (.shri p f) s g f.w f.d fun l => operand s g f.sa l >>> f.cnt.toNat)
  ∧ ∀ p f s g, ReadyReg (.sari p f) s g f.w f.d →
    WritesReg (.sari p f) s g f.w f.d fun l => (operand s g f.sa l).sshiftRight f.cnt.toNat

/-- spec/04 R103: the 64-bit instructions that write a pair. -/
def Obligations.PairArithmeticWritesSixtyFourBits : Prop :=
  (∀ p f s g, ReadyPair (.add64 p f) s g f.d →
    WritesPair (.add64 p f) s g f.d fun l => pairLane64 g f.sa l + pairLane64 g f.sb l)
  ∧ (∀ p f s g, ReadyPair (.sub64 p f) s g f.d →
    WritesPair (.sub64 p f) s g f.d fun l => pairLane64 g f.sa l - pairLane64 g f.sb l)
  ∧ (∀ p f s g, ReadyPair (.mad64 p f) s g f.d →
    WritesPair (.mad64 p f) s g f.d fun l =>
      pairLane64 g f.d l + (operand s g f.sa l * operand s g f.sb l).signExtend 64)
  ∧ ∀ p f s g, ReadyPair (.add64i p f) s g f.d →
    WritesPair (.add64i p f) s g f.d fun l => pairLane64 g f.sa l + BitVec.ofInt 64 (groupImm p f.imm)

/-- spec/04 R99, R86: ICMP and CMP64 write a mask register; GCNT and every register are unchanged. -/
def Obligations.IntegerComparisonsWriteAMask : Prop :=
  (∀ p n f s g, ReadyMask (.icmp p n f) s g →
    WritesMask (.icmp p n f) s g f.d fun l =>
      condHolds n.toNat (operand s g f.sa l).toNat (operand s g f.sb l).toNat (operand s g f.sa l).toInt
        (operand s g f.sb l).toInt)
  ∧ ∀ p n f s g, ReadyMask (.cmp64 p n f) s g →
    WritesMask (.cmp64 p n f) s g f.d fun l =>
      condHolds n.toNat (pairLane64 g f.sa l).toNat (pairLane64 g f.sb l).toNat (pairLane64 g f.sa l).toInt
        (pairLane64 g f.sb l).toInt

/-! ## Floating point -/

/-- spec/04 R105, R109 to R111, R46, R36: the FP32 instructions and conversions complete with their lane function's result and
flags, in the effective rounding mode. -/
def Obligations.FloatInstructionsWriteResultAndFlags : Prop :=
  (∀ e ∈ floatRows1, ∀ p f s g, ReadyReg (e.1 p f) s g f.w f.d →
    WritesRegFlags (e.1 p f) s g f.w f.d (fun l => (e.2 (roundingOf p) (operand s g f.sa l)).1)
      fun l => (e.2 (roundingOf p) (operand s g f.sa l)).2)
  ∧ (∀ e ∈ floatRows2, ∀ p f s g, ReadyReg (e.1 p f) s g f.w f.d →
    WritesRegFlags (e.1 p f) s g f.w f.d (fun l => (e.2 (roundingOf p) (operand s g f.sa l) (operand s g f.sb l)).1)
      fun l => (e.2 (roundingOf p) (operand s g f.sa l) (operand s g f.sb l)).2)
  ∧ ∀ p f s g, ReadyReg (.ffma p f) s g f.w f.d →
    WritesRegFlags (.ffma p f) s g f.w f.d
      (fun l => (fpFma (roundingOf p) (operand s g f.sa l) (operand s g f.sb l) (regLane g f.d l)).1)
      fun l => (fpFma (roundingOf p) (operand s g f.sa l) (operand s g f.sb l) (regLane g f.d l)).2

/-- spec/04 R106, R107: FMIN and FMAX, and FCLASS, which returns a mask with exactly the bit of the operand's class set. -/
def Obligations.MinimumMaximumAndClass : Prop :=
  (∀ p f s g, ReadyReg (.fmin p f) s g f.w f.d →
    WritesRegFlags (.fmin p f) s g f.w f.d (fun l => minMax32 false (operand s g f.sa l) (operand s g f.sb l))
      fun l => { nv := snan32 (operand s g f.sa l) || snan32 (operand s g f.sb l) })
  ∧ (∀ p f s g, ReadyReg (.fmax p f) s g f.w f.d →
    WritesRegFlags (.fmax p f) s g f.w f.d (fun l => minMax32 true (operand s g f.sa l) (operand s g f.sb l))
      fun l => { nv := snan32 (operand s g f.sa l) || snan32 (operand s g f.sb l) })
  ∧ ∀ p f s g, ReadyReg (.fclass p f) s g f.w f.d →
    WritesRegFlags (.fclass p f) s g f.w f.d (fun l => BitVec.ofNat 32 (2 ^ classBit (operand s g f.sa l))) quiet

/-- spec/04 R108, R99, R86: FCMP writes a mask; LT, LE, GT and GE set NV for any NaN, the other conditions for a signalling
one, and +0 equals −0. -/
def Obligations.FloatComparisonWritesAMaskAndInvalid : Prop :=
  ∀ p n f s g, ReadyMask (.fcmp p n f) s g →
    WritesMaskFlags (.fcmp p n f) s g f.d
      (fun l =>
        let a := operand s g f.sa l
        let b := operand s g f.sb l
        let un := nan32 a || nan32 b
        let eq := a == b || (a &&& 0x7FFFFFFF == 0 && b &&& 0x7FFFFFFF == 0)
        let lt := below32 a b && !eq
        [!un && eq, un || !eq, !un && lt, !un && (lt || eq), !un && !(lt || eq), !un && !lt, un, !un].getD n.toNat false)
      fun l =>
        let a := operand s g f.sa l
        let b := operand s g f.sb l
        { nv := if 2 ≤ n.toNat ∧ n.toNat ≤ 5 then nan32 a || nan32 b else snan32 a || snan32 b }

/-! ## Lanes -/

/-- spec/04 R113: lane exchange. -/
def Obligations.ShufflesTakeTheNamedActiveLane : Prop :=
  ∀ e ∈ shuffleRows, ∀ p f s g, ReadyReg (e.1 p f) s g f.w f.d →
    WritesReg (e.1 p f) s g f.w f.d (shuffled (e.1 p f) s g f e.2)

/-- spec/04 R114, spec/02 R62: reductions and scans. The L tag of SCANA is for a LMASK of the low lanes, as every launch and
every REGROUP leaves it. -/
def Obligations.ReductionsAndScansCombineTheActiveLanes : Prop :=
  (∀ e ∈ reduceRows, ∀ p f s g, ReadyReg (e.1 p f) s g f.w f.d →
    WritesReg (e.1 p f) s g f.w f.d fun _ => reduceAll (e.1 p f) s g f.sa e.2.1 e.2.2)
  ∧ (∀ e ∈ reduceRowsF, ∀ p f s g, ReadyReg (e.1 p f) s g f.w f.d →
    WritesRegFlags (e.1 p f) s g f.w f.d (fun _ => (reduceTree (e.1 p f) s g f.sa e.2.1 e.2.2).1)
      fun _ => (reduceTree (e.1 p f) s g f.sa e.2.1 e.2.2).2)
  ∧ (∀ p f s g, ReadyReg (.scana p f) s g f.w f.d → (∃ n, n ≤ 32 ∧ g.lmask = lowMask n) →
    WritesReg (.scana p f) s g f.w f.d fun l =>
      (lanes.take (l + 1)).foldl (fun x k => x + redInput (.scana p f) s g f.sa 0 k) 0)
  ∧ ∀ p f s g, ReadyReg (.scanaF p f) s g f.w f.d →
    WritesRegFlags (.scanaF p f) s g f.w f.d (fun l => ((scanSteps (.scanaF p f) s g f.sa).getD l (0, {})).1)
      fun l => ((scanSteps (.scanaF p f) s g f.sa).getD l (0, {})).2

/-- spec/04 R115: BCAST, MKL, MKG and TAG: the values of the lanes of Active(), and the value that a write of all of LMASK
stores: Uniform, Linear with its base and stride, General, and Uniform. A write of fewer lanes is General (R23). TAG does not
wait for a drift record in its source. -/
def Obligations.TagControlWritesUniformLinearAndGeneral : Prop :=
  (∀ p f s g, ReadyReg (.bcast p f) s g f.w f.d →
    WritesReg (.bcast p f) s g f.w f.d (fun _ => operand s g f.sa (lowestOf (active (.bcast p f) s g)))
    ∧ (active (.bcast p f) s g = g.lmask → g.lmask ≠ 0 →
        StoresVal (.bcast p f) s f.w f.d (.u (operand s g f.sa (lowestOf (active (.bcast p f) s g))))))
  ∧ (∀ p f s g, ReadyReg (.mkl p f) s g f.w f.d →
    WritesReg (.mkl p f) s g f.w f.d (fun l =>
      operand s g f.sa (lowestOf (active (.mkl p f) s g))
        + BitVec.ofNat 32 l * operand s g f.sb (lowestOf (active (.mkl p f) s g)))
    ∧ (active (.mkl p f) s g = g.lmask → g.lmask ≠ 0 →
        StoresVal (.mkl p f) s f.w f.d (.l (operand s g f.sa (lowestOf (active (.mkl p f) s g)))
          (operand s g f.sb (lowestOf (active (.mkl p f) s g))))))
  ∧ (∀ p f s g, ReadyReg (.mkg p f) s g f.w f.d →
    WritesReg (.mkg p f) s g f.w f.d (fun l => operand s g f.sa l)
    ∧ (active (.mkg p f) s g = g.lmask → g.lmask ≠ 0 →
        ∃ v, StoresVal (.mkg p f) s f.w f.d v ∧ v.tag = 0 ∧ ∀ l, inMask g.lmask l → v.lane l = operand s g f.sa l))
  ∧ ∀ p f s g, Issues (.tag p f) s g → StaysApart s g (nextPc (.tag p f) s g) → (f.w = 1 ∨ Room g [f.d.toNat]) →
    (g.reg f.d.toNat).tag ≠ 3 →
    WritesReg (.tag p f) s g f.w f.d (fun _ => BitVec.ofNat 32 (g.src s.curB f.sa.toNat).tag)
    ∧ (active (.tag p f) s g = g.lmask → g.lmask ≠ 0 →
        StoresVal (.tag p f) s f.w f.d (.u (BitVec.ofNat 32 (g.src s.curB f.sa.toNat).tag)))

/-- spec/04 R116 to R119: QPLANE, HADX, DQX and RAND.
A lane's flags of HADX are those of every operation that its results depend on (the model's reading, log 16). -/
def Obligations.QuantiseRotateDecodeAndDraw : Prop :=
  (∀ p f s g, ReadyReg (.qplane p f) s g f.w f.d →
    WritesRegFlags (.qplane p f) s g f.w f.d
      (fun r => if r < 8 then maskOf fun l => (BitVec.ofInt 8 (planeQuant (.qplane p f) s g f l).1).getLsbD (7 - r) else 0)
      fun l => (planeQuant (.qplane p f) s g f l).2)
  ∧ (∀ p f s g, Issues (.hadx p f) s g → NoDrift (.hadx p f) s g → StaysApart s g (nextPc (.hadx p f) s g) →
    Room g ((List.range (hadBlock f.sb.toNat)).map (f.d.toNat + ·)) →
    WritesRun (.hadx p f) s g f.d (hadBlock f.sb.toNat)
      (fun j l => ((hadamardFl (hadVector g f)).getD (32 * j + l) (0, {})).1)
      fun l => (List.range (hadBlock f.sb.toNat)).foldl
        (fun x j => x.or ((hadamardFl (hadVector g f)).getD (32 * j + l) (0, {})).2) {})
  ∧ (∀ p f s g, ReadyReg (.dqx p f) s g f.w f.d →
    WritesRegFlags (.dqx p f) s g f.w f.d (fun l => (decodedRow (.dqx p f) s g f l).1)
      fun l => { nv := (decodedRow (.dqx p f) s g f l).2 })
  ∧ ∀ p f s g, ReadyReg (.rand p f) s g f.w f.d →
    WritesReg (.rand p f) s g f.w f.d fun l =>
      randFp (pairLane64 g f.sa l) (pairLane64 g f.sb l * 32 + BitVec.ofNat 64 l)

/-! ## Votes and masks -/

/-- spec/05 R133: votes with a register result. -/
def Obligations.VotesCountTheActiveLanes : Prop :=
  (∀ p f s g, ReadyReg (.voteAny p f) s g f.w f.d →
    WritesReg (.voteAny p f) s g f.w f.d fun _ => if votesOf (.voteAny p f) s g f ≠ 0 then 1 else 0)
  ∧ (∀ p f s g, ReadyReg (.voteAll p f) s g f.w f.d →
    WritesReg (.voteAll p f) s g f.w f.d fun _ =>
      if votesOf (.voteAll p f) s g f = active (.voteAll p f) s g then 1 else 0)
  ∧ (∀ p f s g, ReadyReg (.voteCount p f) s g f.w f.d →
    WritesReg (.voteCount p f) s g f.w f.d fun _ => BitVec.ofNat 32 (lanesBelow (votesOf (.voteCount p f) s g f) 32))
  ∧ (∀ p f s g, ReadyReg (.voteRank p f) s g f.w f.d →
    WritesReg (.voteRank p f) s g f.w f.d fun l => BitVec.ofNat 32 (lanesBelow (votesOf (.voteRank p f) s g f) l))
  ∧ ∀ p f s g, ReadyReg (.mpopc p f) s g f.w f.d →
    WritesReg (.mpopc p f) s g f.w f.d fun _ => BitVec.ofNat 32 (lanesBelow (g.maskReg f.sa.toNat) 32)

/-- spec/05 R133: the mask instructions; BALLOT and ELECT write the whole mask, the others only the lanes of Active(). -/
def Obligations.MaskInstructionsWriteMasks : Prop :=
  (∀ p f s g, ReadyMask (.mand p f) s g → WritesMask (.mand p f) s g f.d fun l =>
      inMask (g.maskReg f.sa.toNat) l && inMask (g.maskReg f.sb.toNat) l)
  ∧ (∀ p f s g, ReadyMask (.mor p f) s g → WritesMask (.mor p f) s g f.d fun l =>
      inMask (g.maskReg f.sa.toNat) l || inMask (g.maskReg f.sb.toNat) l)
  ∧ (∀ p f s g, ReadyMask (.mxor p f) s g → WritesMask (.mxor p f) s g f.d fun l =>
      inMask (g.maskReg f.sa.toNat) l ^^ inMask (g.maskReg f.sb.toNat) l)
  ∧ (∀ p f s g, ReadyMask (.mnot p f) s g → WritesMask (.mnot p f) s g f.d fun l => !inMask (g.maskReg f.sa.toNat) l)
  ∧ (∀ p f s g, ReadyMask (.mmov p f) s g → WritesMask (.mmov p f) s g f.d fun l => inMask (g.maskReg f.sa.toNat) l)
  ∧ (∀ p f s g, ReadyMask (.voteBallot p f) s g → WritesWholeMask (.voteBallot p f) s g f.d fun l =>
      inMask (active (.voteBallot p f) s g) l && operand s g f.sa l != 0)
  ∧ ∀ p f s g, ReadyMask (.elect p f) s g → WritesWholeMask (.elect p f) s g f.d fun l =>
      inMask (active (.elect p f) s g) l && l == lowestOf (active (.elect p f) s g)

/-! ## Control flow -/

/-- spec/05 R122, R123, R126, spec/03 R77, R86: BRA and BRC set the PC of the slot, empty its latches and change nothing else;
CALL saves the address of the next group in v118 and v119; RET and JMPR go to their pair, which must be aligned; one that does not
fit an address takes the fetch fault of its target (the model's reading, log 17); RECON only empties the latches. -/
def Obligations.BranchesCallsAndJumps : Prop :=
  (∀ p f s g, Issues (.bra p f) s g → StaysApart s g (branchTarget s g f.off) →
    Transfers (.bra p f) s g (branchTarget s g f.off))
  ∧ (∀ p f s g pc, Issues (.brc p f) s g →
    pc = (if brcHolds f.c.toNat (g.maskReg f.mr.toNat) (g.slot s.curB).mask then branchTarget s g f.off
      else nextPc (.brc p f) s g) →
    StaysApart s g pc → Transfers (.brc p f) s g pc)
  ∧ (∀ p f s g, Issues (.call p f) s g → (g.windowOk 118 = true ∧ g.windowOk 119 = true) →
    ((g.reg 118).sym? = none ∧ (g.reg 119).sym? = none) → Room g [118, 119] → StaysApart s g (branchTarget s g f.off) →
    ∃ t h, Completes (.call p f) s g (branchTarget s g f.off) t h ∧ OnlyGust s t ∧ NoLatches s h ∧ GustKept (.call p f) s g h
      ∧ RegsKept g h [118, 119] ∧ TagsFollow g h (active (.call p f) s g) 1 [118, 119]
      ∧ ∀ l, inMask g.lmask l → pairLane64 h 118 l
          = if inMask (active (.call p f) s g) l then (nextPc (.call p f) s g).zeroExtend 64 else pairLane64 g 118 l)
  ∧ (∀ p f s g, Issues (.call p f) s g → (g.windowOk 118 = false ∨ g.windowOk 119 = false) →
    Traps (.call p f) s s (plainTrap s g 0x02 1))
  ∧ (∀ i sa s g t, ((∃ p f, i = .ret p f ∧ sa = f.sa) ∨ ∃ p f, i = .jmpr p f ∧ sa = f.sa) → Issues i s g → NoDrift i s g →
    t = pairLane64 g sa (lowestOf (active i s g)) →
    (t.toNat % 4 = 0 → t.toNat < 2 ^ 56 → StaysApart s g (t.truncate 56) → Transfers i s g (t.truncate 56))
    ∧ (t.toNat % 4 ≠ 0 → Traps i s s { plainTrap s g 0x06 4 with
        xaddr := some (lanes.map fun l => if inMask (g.slot s.curB).mask l then t else 0) })
    ∧ (t.toNat % 4 = 0 → 2 ^ 56 ≤ t.toNat →
      Traps i s (s.setGust s.cur (g.setSlot s.curB { (g.slot s.curB).noLatches with pc := t.truncate 56 }))
        { plainTrap s g 0x08 1 with xaddr := some (lanes.map fun _ => t) }))
  ∧ ∀ p f s g, Issues (.recon p f) s g → StaysApart s g (nextPc (.recon p f) s g) →
    Transfers (.recon p f) s g (nextPc (.recon p f) s g)

/-- spec/05 R124, spec/01 R40, R10: BRD goes on undivided, splits into a free slot, pushes the other slot's path first, or
takes FLT.DIVSTK when the stack is full. -/
def Obligations.DivergentBranchesSplitTheSlot : Prop :=
  ∀ p f s g, Issues (.brd p f) s g →
    (brdTaken s g f = 0 → StaysApart s g (nextPc (.brd p f) s g) → Transfers (.brd p f) s g (nextPc (.brd p f) s g))
    ∧ (brdTaken s g f ≠ 0 → brdRest s g f = 0 → StaysApart s g (branchTarget s g f.off) →
      Transfers (.brd p f) s g (branchTarget s g f.off))
    ∧ (brdTaken s g f ≠ 0 → brdRest s g f ≠ 0 →
      (nextPc (.brd p f) s g ≠ brdJoin p s g ∨ branchTarget s g f.off ≠ brdJoin p s g) →
      ((g.slot (!s.curB)).mask = 0 →
        ∃ t h, exec (.brd p f) s = .next t ∧ t.gust? s.cur = some h ∧ OnlyGust s t ∧ Split p f s g h
          ∧ SlotsOnly (.brd p f) s g h)
      ∧ ((g.slot (!s.curB)).mask ≠ 0 → 64 ≤ g.dsp → Traps (.brd p f) s s (plainTrap s g 0x05 0))
      ∧ ∀ s1 x, (g.slot (!s.curB)).mask ≠ 0 → (g.slot (!s.curB)).wait = none → g.dsp < 64 →
        s.translate (coreOf s.cur) (s.frontOf g).part (s.frontOf g).asid (g.frame.toNat + 16 * g.dsp) = (s1, some x) →
        laneFault s1 .store 16 (g.frame.toNat + 16 * g.dsp) 0 (some x) [] = none →
        (∀ j, j < 16 → hubOnly (localPa (x.domain (g.frame.toNat + 16 * g.dsp) + j)) = false) →
        ∃ t h, exec (.brd p f) s = .next t ∧ t.gust? s.cur = some h ∧ Split p f s g h ∧ h.dsp = g.dsp + 1
          ∧ h = { g with a := h.a, b := h.b, dsp := h.dsp, frozen := false, replay := []
                         stackReplay := g.stackReplay ++ (g.replayOf (!s.curB)).toList.map fun d => (g.dsp, d) }
          ∧ memGetBytes t.mem (x.domain (g.frame.toNat + 16 * g.dsp)) 16 = pushedRecord (g.slot (!s.curB))
          ∧ OnlyStored s t fun a => x.domain (g.frame.toNat + 16 * g.dsp) ≤ a
              ∧ a < x.domain (g.frame.toNat + 16 * g.dsp) + 16)

/-- spec/05 R125: one turn of Settle merges two slots at one join, with the join of the stack's top; pops the top when it is the
join that the one live slot stands at, or when no slot is live; gives a slot at its join the join of the top (0 for an empty
stack) otherwise; and marks a gust with no path left for retirement. A merge and a pop empty the latches of both slots. -/
def Obligations.SettleMergesPopsAndRetires : Prop :=
  (∀ (s : State) k g, s.gust? k = some g → g.a.atJoin = true → g.b.atJoin = true → g.a.join = g.b.join → g.dsp = 0 →
    ∃ h, s.settleOnce k = (s.setGust k h, true) ∧ h.a.pc = g.a.join ∧ h.a.mask = (g.a.mask ||| g.b.mask) ∧ h.a.join = 0
      ∧ h.b.mask = 0 ∧ h = { g with a := h.a, b := h.b, replay := joinedReplay g }
      ∧ ∀ b n, 1 ≤ n → n ≤ 8 → (h.slot b).latch n = .empty 1)
  ∧ (∀ (s : State) k g s1 pc m j, s.gust? k = some g → g.a.atJoin = true → g.b.atJoin = true → g.a.join = g.b.join → 0 < g.dsp →
    s.readEntry k g (g.dsp - 1) = (s1, .ok (pc, m, j)) →
    ∃ h, s.settleOnce k = (s1.setGust k h, true) ∧ h.a.pc = g.a.join ∧ h.a.mask = (g.a.mask ||| g.b.mask) ∧ h.a.join = j
      ∧ h.b.mask = 0 ∧ h = { g with a := h.a, b := h.b, replay := joinedReplay g }
      ∧ ∀ b n, 1 ≤ n → n ≤ 8 → (h.slot b).latch n = .empty 1)
  ∧ (∀ (s : State) k g s1 pc m j, s.gust? k = some g → g.a.mask = 0 → g.b.mask = 0 → 0 < g.dsp →
    s.readEntry k g (g.dsp - 1) = (s1, .ok (pc, m, j)) →
    ∃ h, s.settleOnce k = (s1.setGust k h, true) ∧ h.a.pc = pc ∧ h.a.mask = m ∧ h.a.join = j ∧ h.b.mask = 0
      ∧ h.dsp = g.dsp - 1 ∧ PoppedTo g h false ∧ ∀ b n, 1 ≤ n → n ≤ 8 → (h.slot b).latch n = .empty 1)
  ∧ (∀ (s : State) k g b s1 s2 pc m, s.gust? k = some g → (g.slot b).atJoin = true → (g.slot (!b)).mask = 0 → 0 < g.dsp →
    s.readEntry k g (g.dsp - 1) = (s1, .ok (pc, m, (g.slot b).join)) →
    s1.readEntry k g (g.dsp - 1) = (s2, .ok (pc, m, (g.slot b).join)) →
    ∃ h, s.settleOnce k = (s2.setGust k h, true) ∧ h.dsp = g.dsp - 1
      ∧ (h.slot (!b)).pc = pc ∧ (h.slot (!b)).mask = m ∧ (h.slot (!b)).join = (g.slot b).join
      ∧ (h.slot b).pc = (g.slot b).pc ∧ (h.slot b).mask = (g.slot b).mask ∧ (h.slot b).join = (g.slot b).join
      ∧ PoppedTo g h (!b) ∧ ∀ c n, 1 ≤ n → n ≤ 8 → (h.slot c).latch n = .empty 1)
  ∧ (∀ (s : State) k g b s1 pc m j, s.gust? k = some g → (g.slot b).atJoin = true → (g.slot (!b)).mask = 0 → 0 < g.dsp →
    s.readEntry k g (g.dsp - 1) = (s1, .ok (pc, m, j)) → j ≠ (g.slot b).join →
    s.settleOnce k = (s1.setGust k (g.setSlot b { g.slot b with join := j }), true))
  ∧ (∀ (s : State) k g b, s.gust? k = some g → (g.slot b).atJoin = true → (g.slot (!b)).mask = 0 → g.dsp = 0 →
    s.settleOnce k = (s.setGust k (g.setSlot b { g.slot b with join := 0 }), true))
  ∧ ∀ (s : State) k g, s.gust? k = some g → g.a.mask = 0 → g.b.mask = 0 → g.dsp = 0 →
    s.settleOnce k = (s.setGust k { g with retiring := true }, false)

/-- spec/05 R127, R128: EXIT empties the slot; the last path of a gust retires it, once its drift loads have arrived, and
then its slot is free. What the barrier units have of the gust stays theirs under another name. -/
def Obligations.ExitAndRetirement : Prop :=
  (∀ p f s g, Issues (.exit p f) s g → (g.slot (!s.curB)).mask ≠ 0 → (g.slot (!s.curB)).atJoin = false →
    ∃ t h, exec (.exit p f) s = .next t ∧ t.gust? s.cur = some h ∧ OnlyGust s t ∧ (h.slot s.curB).mask = 0
      ∧ h.slot (!s.curB) = g.slot (!s.curB) ∧ NoLatches s h ∧ SlotsOnly (.exit p f) s g h)
  ∧ (∀ p f s g, Issues (.exit p f) s g → (g.slot (!s.curB)).mask = 0 → g.dsp = 0 →
    ∃ t h, exec (.exit p f) s = .next t ∧ t.gust? s.cur = some h ∧ OnlyGust s t ∧ h.a.mask = 0 ∧ h.b.mask = 0
      ∧ h = { g with a := h.a, b := h.b, replay := replayAfter s g, retiring := true })
  ∧ ∀ s k g fr, s.gust? k = some g → g.retiring = true → (∀ y ∈ g.syms, y.state = 0) → (∀ j, j < 4 → g.memberOf j = none) →
    g.unitOps = [] → s.front? g.front = some fr → (s.core (coreOf k)).locks.all (fun e => e.2 != k) = true →
    ∃ t, exec (.gustRetire k) s = .next t
      ∧ t = { s with gusts := tabDel s.gusts k, dies := t.dies
                     fronts := tabSet s.fronts g.front { fr with retired := fr.retired + 1, posted := fr.posted ++ g.posted } }
      ∧ ∀ d, t.die d = { s.die d with counters := (t.die d).counters }
        ∧ ∀ n, (t.counter? d n).isSome = (s.counter? d n).isSome ∧ ∀ x, s.counter? d n = some x →
          ∃ y, t.counter? d n = some y ∧ y = { x with held := y.held, arrived := y.arrived }
            ∧ (k ∉ x.arrived → y.arrived = x.arrived) ∧ ((∀ w ∈ x.held, w.1 ≠ k) → y.held = x.held)

/-- spec/05 R129, spec/01 R11: SPAWN creates a gust under status 0 and nothing otherwise; D takes the status.
The model's choice (log 45): the new PC is the low 56 bits of the entry pair, whatever its bits 63 to 56 are. -/
def Obligations.SpawnCreatesAGustOrReportsWhyNot : Prop :=
  (∀ p f s g, ReadyReg (.spawn p f) s g f.w f.d → spawnCode p f s g (spawnEntry p f s g) ≠ 0 →
    YieldsReg (.spawn p f) s g f.w f.d fun _ => BitVec.ofNat 32 (spawnCode p f s g (spawnEntry p f s g)))
  ∧ ∀ p f s g slot tw fr, ReadyReg (.spawn p f) s g f.w f.d → spawnCode p f s g (spawnEntry p f s g) = 0 →
    freeSlot (s.slotsUsed (coreOf s.cur) 0) g.twin.isSome = some (slot, tw) → s.front? g.front = some fr →
    ∃ t h n, Completes (.spawn p f) s g (nextPc (.spawn p f) s g) t h ∧ NoLatches s h ∧ GustKept (.spawn p f) s g h
      ∧ RegsKept g h (if f.w = 1 then [] else [f.d.toNat])
      ∧ TagsFollow g h (active (.spawn p f) s g) 1 (if f.w = 1 then [] else [f.d.toNat])
      ∧ (f.w ≠ 1 → ∀ l, inMask g.lmask l → inMask (active (.spawn p f) s g) l → regLane h f.d l = 0)
      ∧ t.gust? (coreOf s.cur * 128 + slot) = some n ∧ IsSpawned p f s g n ∧ n.twin = tw
      ∧ t.front? g.front = some { fr with spawn := fr.spawn + 1 }
      ∧ (∀ k, k ≠ s.cur → k ≠ coreOf s.cur * 128 + slot → t.gust? k = s.gust? k)
      ∧ t = { s with gusts := t.gusts, fronts := t.fronts, dies := t.dies, free := t.free }
      ∧ ((∀ k, k < 4 → selectsJoin p k = false) → t.dies = s.dies)
      ∧ ∀ k die m x, k < 4 → (∀ j, j < 4 → (selectsJoin p j = true ↔ j = k)) → counterOf s g k = some (die, m, x) →
          x.held = [] → t.counter? die m = some { x with e := x.e + 1 }

/-- spec/05 R130, R134, R136: a REGROUP without room for its flag traps, one without a valid slot yields flag 2, one with
loads or tracked operations outstanding, or stores that have not left the core, waits, and one that arrives counts at its
cohort's counter. -/
def Obligations.RegroupArrivesOrYieldsFlagTwo : Prop :=
  ∀ p f s g, Issues (.regroup p f) s g → g.flagReserved = [] →
    (flagNeedsRoom s g f → g.gbud < g.gcnt + 1 → Traps (.regroup p f) s s (plainTrap s g 0x04 0))
    ∧ ((f.w = 1 ∨ Room g [f.d.toNat]) → NoDrift (.regroup p f) s g →
      (StaysApart s g (nextPc (.regroup p f) s g) → g.memberOf (regroupDesc p f s g % 4) = none → g.regroup = [] →
        YieldsReg (.regroup p f) s g f.w f.d fun _ => 2)
      ∧ ∀ die n x, counterOf s g (regroupDesc p f s g % 4) = some (die, n, x) →
        ((g.noDrift = false ∨ g.posted.any (fun q => q.counter.isSome) = true) →
          ∃ t h, exec (.regroup p f) s = .next t ∧ t.gust? s.cur = some h ∧ OnlyGust s t
            ∧ Arrives (.regroup p f) s g h .quiet ∧ h = { g with a := h.a, b := h.b, flagReserved := h.flagReserved })
        ∧ (g.noDrift = true → g.posted.all (fun q => q.counter.isNone) = true → ¬ performedAt s g 2 →
          ∃ t h, exec (.regroup p f) s = .next t ∧ t.gust? s.cur = some h ∧ OnlyGust s t
            ∧ Arrives (.regroup p f) s g h (.fence 2 []) ∧ h = { g with a := h.a, b := h.b, flagReserved := h.flagReserved })
        ∧ (AppliedAtOnce s g → g.posted.all (fun q => q.counter.isNone) = true → x.drain = false → x.held = [] →
          s.cur ∉ x.arrived → x.a + 1 < x.e →
          ∃ t h, exec (.regroup p f) s = .next t ∧ t.gust? s.cur = some h ∧ OnlyCounter s t die n
            ∧ Arrives (.regroup p f) s g h (.barrier die n 2)
            ∧ h = { g with a := h.a, b := h.b, flagReserved := h.flagReserved, regroup := h.regroup }
            ∧ (∃ r, h.regroup = (g.regroup.filter fun r => r.slotB != s.curB) ++ [r] ∧ r.slotB = s.curB
              ∧ r.mask = (g.slot s.curB).mask ∧ r.window = { wb := g.wb, trap := g.handler != 0 }
              ∧ r.dest = if f.w = 1 then none else some f.d.toNat)
            ∧ t.counter? die n = some { x with a := x.a + 1, arrived := setAdd x.arrived s.cur
                                               waiters := x.waiters ++ [(s.cur, s.curB, 2)] }
            ∧ ∀ k, k ≠ s.cur → t.gust? k = s.gust? k))

/-- spec/05 R134 to R136: what BAR, BARARR and BARWT do at their counter: an arrival counts once for each gust and phase; one
that completes the phase releases the waiting gusts; one that does not waits, or goes on if it is split; one in DRAIN is held;
without a valid slot there is no effect; BAR waits for the gust's earlier accesses to be performed at die scope, BARARR lets
the unit wait for them, and BARWT waits behind an arrival of its own that the unit holds. -/
def Obligations.BarriersCountArrivalsAndRelease : Prop :=
  (∀ p f s g, Issues (.bar p f) s g →
    (g.memberOf f.sa.toNat = none → StaysApart s g (nextPc (.bar p f) s g) →
      Transfers (.bar p f) s g (nextPc (.bar p f) s g))
    ∧ ∀ die n x, counterOf s g f.sa.toNat = some (die, n, x) →
      (¬ performedAt s g 2 → WaitsFor (.bar p f) s g (.fence 2 []))
      ∧ (AppliedAtOnce s g → x.drain = false → x.held = [] → s.cur ∉ x.arrived → x.a + 1 < x.e →
        ∃ t h, exec (.bar p f) s = .next t ∧ t.gust? s.cur = some h ∧ OnlyCounter s t die n
          ∧ Arrives (.bar p f) s g h (.barrier die n 0) ∧ h = { g with a := h.a, b := h.b }
          ∧ t.counter? die n = some { x with a := x.a + 1, arrived := setAdd x.arrived s.cur
                                             waiters := x.waiters ++ [(s.cur, s.curB, 0)] }
          ∧ ∀ k, k ≠ s.cur → t.gust? k = s.gust? k)
      ∧ (AppliedAtOnce s g → x.drain = false → x.held = [] → s.cur ∈ x.arrived → x.a < x.e →
        ∃ t h, exec (.bar p f) s = .next t ∧ t.gust? s.cur = some h ∧ OnlyCounter s t die n
          ∧ Arrives (.bar p f) s g h (.barrier die n 0) ∧ h = { g with a := h.a, b := h.b }
          ∧ t.counter? die n = some { x with waiters := x.waiters ++ [(s.cur, s.curB, 0)] })
      ∧ (AppliedAtOnce s g → resident s.cur = true → x.drain = false → x.held = [] → s.cur ∉ x.arrived → x.e ≤ x.a + 1 →
        x.s = 0 → x.waiters = [] → StaysApart s g (nextPc (.bar p f) s g) →
        ∃ t h, Completes (.bar p f) s g (nextPc (.bar p f) s g) t h ∧ OnlyCounter s t die n ∧ NoLatches s h
          ∧ h = { g with a := h.a, b := h.b, replay := replayAfter s g }
          ∧ t.counter? die n = some { x with a := 0, e := x.e - x.dp, dp := 0, p := x.p + 1, waiters := [], arrived := [] })
      ∧ (∀ k b g2, AppliedAtOnce s g → resident s.cur = true → resident k = true → x.drain = false → x.held = [] →
        s.cur ∉ x.arrived → x.e ≤ x.a + 1 → x.s = 0 → x.waiters = [(k, b, 0)] → k ≠ s.cur → s.gust? k = some g2 →
        (g2.slot b).wait = some (.barrier die n 0) → StaysApart s g (nextPc (.bar p f) s g) → (g2.slot b).mask ≠ 0 →
        ((g2.slot b).join = 0 ∨ (g2.slot b).waitNext ≠ (g2.slot b).join) →
        ∃ t h h2, Completes (.bar p f) s g (nextPc (.bar p f) s g) t h ∧ t.gust? k = some h2 ∧ OnlyCounter s t die n
          ∧ (h2.slot b).pc = (g2.slot b).waitNext ∧ (h2.slot b).wait = none
          ∧ h2 = { g2 with a := h2.a, b := h2.b, replay := g2.replay.filter fun e => e.1 != b }
          ∧ t.counter? die n = some { x with a := 0, e := x.e - x.dp, dp := 0, p := x.p + 1, waiters := [], arrived := [] })
      ∧ (AppliedAtOnce s g → UnitsIdle s → x.drain = true → x.held = [] →
        ∃ t h, exec (.bar p f) s = .next t ∧ t.gust? s.cur = some h ∧ OnlyCounter s t die n
          ∧ Arrives (.bar p f) s g h (.drain die n 0) ∧ h = { g with a := h.a, b := h.b }
          ∧ t.counter? die n = some { x with held := [(s.cur, s.curB, 0)] }))
  ∧ (∀ p f s g, Issues (.bararr p f) s g → StaysApart s g (nextPc (.bararr p f) s g) →
    (g.memberOf f.sa.toNat = none → Passes (.bararr p f) s g)
    ∧ ∀ die n x, counterOf s g f.sa.toNat = some (die, n, x) →
      (AppliedAtOnce s g → x.held = [] → ((x.drain = true ∧ UnitsIdle s) ∨ (x.drain = false ∧ x.a + 1 < x.e)) →
        ∃ t h, Completes (.bararr p f) s g (nextPc (.bararr p f) s g) t h ∧ OnlyCounter s t die n ∧ Shifted s g h
          ∧ SlotsOnly (.bararr p f) s g h
          ∧ (x.drain = true → t.counter? die n = some { x with held := [(s.cur, s.curB, 1)] })
          ∧ (x.drain = false → s.cur ∉ x.arrived →
              t.counter? die n = some { x with a := x.a + 1, arrived := setAdd x.arrived s.cur, s := x.s + 1 })
          ∧ (x.drain = false → s.cur ∈ x.arrived → t.counter? die n = some { x with s := x.s + 1 }))
      ∧ (((∃ y, y < 8 ∧ (g.syms.getD y {}).state = 1) ∨ (∃ b, (g.slot b).awaits = true) ∨ s.bufferedOps s.cur ≠ [] ∨ g.unitOps ≠ []) →
        ∃ t h, Completes (.bararr p f) s g (nextPc (.bararr p f) s g) t h ∧ OnlyGust s t ∧ Shifted s g h
          ∧ h = { g with a := h.a, b := h.b, replay := replayAfter s g, unitOps := h.unitOps }
          ∧ ∃ o, h.unitOps = g.unitOps ++ [o] ∧ o.die = die ∧ o.counter = n ∧ o.kind = 1 ∧ o.slotB = s.curB
            ∧ (∀ y, y ∈ o.syms ↔ y < 8 ∧ (g.syms.getD y {}).state = 1) ∧ (∀ b, b ∈ o.slots ↔ (g.slot b).awaits = true)
            ∧ o.stores = s.bufferedOps s.cur))
  ∧ ∀ p f s g, Issues (.barwt p f) s g →
    (StaysApart s g (nextPc (.barwt p f) s g) →
      (g.memberOf f.sa.toNat = none → Transfers (.barwt p f) s g (nextPc (.barwt p f) s g))
      ∧ ∀ die n x, counterOf s g f.sa.toNat = some (die, n, x) → x.held = [] → UnitReady s g →
        (x.drain = false → x.s = 0 → Transfers (.barwt p f) s g (nextPc (.barwt p f) s g))
        ∧ (x.drain = true → 0 < x.s →
          ∃ t h, Completes (.barwt p f) s g (nextPc (.barwt p f) s g) t h ∧ OnlyCounter s t die n ∧ NoLatches s h
            ∧ SlotsOnly (.barwt p f) s g h
            ∧ t.counter? die n = some { x with s := x.s - 1, drain := decide (1 < x.s) }))
    ∧ ∀ die n x, counterOf s g f.sa.toNat = some (die, n, x) →
      (UnitReady s g → x.drain = false → 0 < x.s →
        ∃ t h, exec (.barwt p f) s = .next t ∧ t.gust? s.cur = some h ∧ OnlyCounter s t die n
          ∧ Arrives (.barwt p f) s g h (.barrier die n 1)
          ∧ t.counter? die n = some { x with waiters := x.waiters ++ [(s.cur, s.curB, 1)] })
      ∧ (¬ UnitReady s g → WaitsFor (.barwt p f) s g (.held die n))

/-- spec/05 R138 to R140: CJOIN takes the lowest free slot and raises E, or reports why not; CLEAVE departs and clears the
valid bit, and does nothing for a closed cohort or an invalid slot. -/
def Obligations.CohortsAreJoinedAndLeft : Prop :=
  (∀ p f s g c, ReadyReg (.cjoin p f) s g f.w f.d →
    c = (operand s g f.sa (lowestOf (active (.cjoin p f) s g))).toNat % 256 → c < (s.frontOf g).cohorts.length →
    (s.frontOf g).isOpen c = true → (∀ k, k < 4 → g.memberOf k ≠ some c) →
    ∀ k die n x, k < 4 → g.memberOf k = none → (∀ j, j < k → (g.memberOf j).isSome = true) → g.members.length = 4 →
    s.cohortCounter g c = some (die, n) → s.counter? die n = some x → UnitReady s g →
    ∃ t h, Completes (.cjoin p f) s g (nextPc (.cjoin p f) s g) t h ∧ OnlyCounter s t die n ∧ Shifted s g h
      ∧ RegsKept g h (if f.w = 1 then [] else [f.d.toNat])
      ∧ TagsFollow g h (active (.cjoin p f) s g) 1 (if f.w = 1 then [] else [f.d.toNat])
      ∧ (f.w ≠ 1 → ∀ l, inMask g.lmask l → inMask (active (.cjoin p f) s g) l → regLane h f.d l = BitVec.ofNat 32 k)
      ∧ h.memberOf k = some c ∧ (∀ j, j ≠ k → h.memberOf j = g.memberOf j)
      ∧ t.counter? die n = some { x with e := x.e + 1 })
  ∧ (∀ p f s g c st, ReadyReg (.cjoin p f) s g f.w f.d →
    c = (operand s g f.sa (lowestOf (active (.cjoin p f) s g))).toNat % 256 →
    ((st = 7 ∧ (s.frontOf g).cohorts.length ≤ c)
      ∨ (c < (s.frontOf g).cohorts.length ∧ ((st = 5 ∧ (s.frontOf g).isOpen c = false)
        ∨ ((s.frontOf g).isOpen c = true ∧ ((st = 6 ∧ ∃ k, k < 4 ∧ g.memberOf k = some c)
          ∨ (st = 4 ∧ ∀ k, k < 4 → ∃ m, g.memberOf k = some m ∧ m ≠ c)))))) →
    WritesReg (.cjoin p f) s g f.w f.d fun _ => BitVec.ofNat 32 st)
  ∧ ∀ p f s g, Issues (.cleave p f) s g → StaysApart s g (nextPc (.cleave p f) s g) →
    ((g.memberOf f.sa.toNat = none ∨ ∃ c, g.memberOf f.sa.toNat = some c ∧ (s.frontOf g).isOpen c = false) →
      Passes (.cleave p f) s g)
    ∧ ∀ c die n x, g.memberOf f.sa.toNat = some c → (s.frontOf g).isOpen c = true →
      counterOf s g f.sa.toNat = some (die, n, x) → x.held = [] → AppliedAtOnce s g →
      s.cur ∉ x.arrived → (x.drain = true ∨ x.a + 1 < x.e) →
      ∃ t h, Completes (.cleave p f) s g (nextPc (.cleave p f) s g) t h ∧ OnlyCounter s t die n ∧ Shifted s g h
        ∧ h.memberOf f.sa.toNat = none ∧ (∀ j, j ≠ f.sa.toNat → h.memberOf j = g.memberOf j)
        ∧ ∃ y, t.counter? die n = some y
          ∧ y = (if x.drain then { x with e := x.e - 1 } else { x with a := x.a + 1, dp := x.dp + 1, arrived := y.arrived })

/-! ## Memory -/

/-- spec/06 R157, R161, R151, R152: LD and LDRAW write, in every lane that runs, the bytes of memory at its address, and
change no byte of memory; with no lane to run they have no effect. -/
def Obligations.LoadsReturnTheBytesOfMemory : Prop :=
  ∀ i a p kc acq sa sb d s g, plainLoad i = some (a, p, kc, acq, sa, sb, d) → Issues i s g →
    StaysApart s g (nextPc i s g) →
    (runLanes i s g = 0 → Transfers i s g (nextPc i s g))
    ∧ ∀ k, NoDrift i s g → runLanes i s g ≠ 0 → (acq = true → AcquiresAtOnce p s g) →
      Near i s g a (Machine.sizeOf kc) (lanesOf (runLanes i s g)) (eaOf p s g sa sb) (plainSpan (Machine.sizeOf kc) (eaOf p s g sa sb)) k →
      Room g (runOf d (regsOf kc)) →
      ∃ t h, Completes i s g (nextPc i s g) t h ∧ OnlyLooked s t ∧ NoLatches s h ∧ GustKept i s g h
        ∧ RegsKept g h (runOf d (regsOf kc)) ∧ TagsFollow g h (runLanes i s g) 0 (runOf d (regsOf kc))
        ∧ ∀ j l, j < regsOf kc → inMask g.lmask l → h.lane (h.reg (d.toNat + j)) l
            = if inMask (runLanes i s g) l then loadedWord kc (s.readBytes (k.dom (eaOf p s g sa sb l)) (Machine.sizeOf kc)) j
              else g.lane (g.reg (d.toNat + j)) l

/-- spec/06 R193 with Table 7, R158, R162, R164, R166, R169, R191, R360: faulting lanes. Each lane has the first cause of
Table 7; XMASK, XOTHER and XADDR name the faulting lanes, and the lanes without a cause are performed and recorded in XDONE, in
a replay OR-ed to what it left out; LDU, drift loads, CAPLD, CAPST and the ranges of major 0x2E perform no lane. A misaligned
load is one case of it.
The model's readings: STUL keeps its lock set when it faults, ISYNC.RANGE and HFLUSH raise FLT.XLATE 1 to 3 alone, with the
first page that has the lowest cause in XADDR, and XADDR of a scratchpad fault is the address before the front's base (log 19);
LDX takes FLT.ALIGN 2 and 3 before FLT.XLATE 3 on a migrating page (log 49). -/
def Obligations.MisalignedLoadsTrapWithTheirAddresses : Prop :=
  (∀ i a p kc acq sa sb d s g k ea sp cs, plainLoad i = some (a, p, kc, acq, sa, sb, d) → Issues i s g → NoDrift i s g →
    runLanes i s g ≠ 0 → (acq = true → g.loadsDone = true) →
    ea = eaOf p s g sa sb → sp = plainSpan (Machine.sizeOf kc) ea → cs = causes k a (Machine.sizeOf kc) ea (fun _ => 0) sp →
    SomeFault i s g a (Machine.sizeOf kc) (lanesOf (runLanes i s g)) ea (fun _ => 0) sp k →
    LoadFaults i s g (lanesOf (runLanes i s g)) cs ea d (regsOf kc)
      (fun j l => loadedWord kc (s.readBytes (k.dom (ea l)) (Machine.sizeOf kc)) j) quiet (OnlyLooked s))
  ∧ (∀ p f s g k ea idx sp cs, Issues (.ldx p f) s g → NoDrift (.ldx p f) s g → runLanes (.ldx p f) s g ≠ 0 →
    (f.acq = 1 → g.loadsDone = true) → ea = pairLane64 g f.sa → idx = elemIndexOf p s g f.sb →
    sp = ldxSpans f.k.toNat ea idx s → cs = causes k .ldx 1 ea idx sp →
    SomeFault (.ldx p f) s g .ldx 1 (lanesOf (runLanes (.ldx p f) s g)) ea idx sp k →
    (∀ l x, l ∈ soundLanes (lanesOf (runLanes (.ldx p f) s g)) cs → k.pages.find (ea l).toNat = some x →
      ∀ r ∈ sp x l, peerOf r.1 = s.self) →
    LoadFaults (.ldx p f) s g (lanesOf (runLanes (.ldx p f) s g)) cs ea f.d 1 (fun _ l => (elementAt s f.k.toNat k ea idx l).1)
      (fun l => if l ∈ soundLanes (lanesOf (runLanes (.ldx p f) s g)) cs then { nv := (elementAt s f.k.toNat k ea idx l).2 } else {})
      (OnlyLooked s))
  ∧ (∀ i p op n o sa sb d s g k ea cs, returningAtomic i = some (p, op, n, o, sa, sb, d) → Issues i s g → NoDrift i s g →
    runLanes i s g ≠ 0 → (o = 1 → ReleasesAtOnce p s g) → ea = eaOfAtomic p g sa →
    cs = causes k .atomicR n ea (fun _ => 0) (plainSpan n ea) →
    SomeFault i s g .atomicR n (lanesOf (runLanes i s g)) ea (fun _ => 0) (plainSpan n ea) k →
    (∀ l ∈ soundLanes (lanesOf (runLanes i s g)) cs, popWord? (localPa (k.dom (ea l))) = none) →
    LoadFaults i s g (lanesOf (runLanes i s g)) cs ea d (n / 4)
      (fun j l => BitVec.ofNat 32 ((afterAtomics s op n (fun m => k.dom (ea m)) (atomicOperand s g sb n)
        (fun m => if op = 9 then atomicOperand s g d n m else 0)
        ((soundLanes (lanesOf (runLanes i s g)) cs).filter (· < l))).readNat (k.dom (ea l)) n / 2 ^ (32 * j))) quiet
      fun t => OnlyStored s t (fun b => ∃ l ∈ soundLanes (lanesOf (runLanes i s g)) cs, k.dom (ea l) ≤ b ∧ b < k.dom (ea l) + n)
        ∧ t.mem = (afterAtomics s op n (fun l => k.dom (ea l)) (atomicOperand s g sb n)
          (fun l => if op = 9 then atomicOperand s g d n l else 0) (soundLanes (lanesOf (runLanes i s g)) cs)).mem)
  ∧ (∀ p f s g k ea ok cs, Issues (.st p f) s g → NoDrift (.st p f) s g → runLanes (.st p f) s g ≠ 0 →
    PostsAtOnce p s g (f.o == 1) → ea = eaOf p s g f.sa f.sb →
    cs = causes k .store (Machine.sizeOf f.k.toNat) ea (fun _ => 0) (fun _ _ => []) →
    SomeFault (.st p f) s g .store (Machine.sizeOf f.k.toNat) (lanesOf (runLanes (.st p f) s g)) ea (fun _ => 0) (fun _ _ => []) k →
    ok = soundLanes (lanesOf (runLanes (.st p f) s g)) cs →
    (∀ l ∈ ok, s.poisoned (k.dom (ea l)) (Machine.sizeOf f.k.toNat) = false) →
    ∃ t r, Traps (.st p f) s t r
      ∧ LanesFault (lanesOf (runLanes (.st p f) s g)) cs ea (doneBefore s g ||| maskOf fun l => ok.contains l) r
      ∧ OnlyStored s t (fun b => ∃ l ∈ ok, k.dom (ea l) ≤ b ∧ b < k.dom (ea l) + Machine.sizeOf f.k.toNat)
      ∧ t.mem = (ok.foldl (fun u l => u.storeBytes (k.dom (ea l)) (storedBytes g f.d f.k.toNat l)) s).mem
      ∧ ∃ h, t.gust? s.cur = some h ∧ SamePaths g h
        ∧ h = { g with a := h.a, b := h.b, posted := if ok = [] then g.posted else postedAfter p s g })
  ∧ (∀ i p op n o sa sb d s g k ea ok cs, postedAtomic i = some (p, op, n, o, sa, sb, d) → Issues i s g → NoDrift i s g →
    runLanes i s g ≠ 0 → PostsAtOnce p s g (o == 1) → ea = eaOfAtomic p g sa →
    cs = causes k .atomic n ea (fun _ => 0) (fun _ _ => []) →
    SomeFault i s g .atomic n (lanesOf (runLanes i s g)) ea (fun _ => 0) (fun _ _ => []) k →
    ok = soundLanes (lanesOf (runLanes i s g)) cs → (∀ l ∈ ok, s.poisoned (k.dom (ea l)) n = false) →
    ∃ t r, Traps i s t r
      ∧ LanesFault (lanesOf (runLanes i s g)) cs ea (doneBefore s g ||| maskOf fun l => ok.contains l) r
      ∧ OnlyStored s t (fun b => ∃ l ∈ ok, k.dom (ea l) ≤ b ∧ b < k.dom (ea l) + n)
      ∧ t.mem = (afterAtomics s op n (fun l => k.dom (ea l)) (atomicOperand s g sb n)
          (fun l => if op = 9 then atomicOperand s g d n l else 0) ok).mem
      ∧ ∃ h, t.gust? s.cur = some h ∧ SamePaths g h
        ∧ h = { g with a := h.a, b := h.b, posted := if ok = [] then g.posted else postedAfter p s g })
  ∧ (∀ i a p n sa sb acq s g k l c, oneAccess i = some (a, p, n, sa, sb, acq) → Issues i s g → NoDrift i s g →
    runLanes i s g ≠ 0 → (acq = true → g.loadsDone = true) →
    ((∃ q f, i = .lduDf q f) → g.freeSym.isSome = true ∧ g.driftRegs < 16) → l = lowestOf (runLanes i s g) →
    k = checkLanes (mkCtx i g s.curB) s a n [l] (eaOf p s g sa sb) (fun _ => 0) (oneSpan i n (eaOf p s g sa sb)) →
    k.pages.found.all (fun x => !k.s.lacksFeature x) = true → TablesSound s g [(eaOf p s g sa sb l).toNat] →
    causes k a n (eaOf p s g sa sb) (fun _ => 0) (oneSpan i n (eaOf p s g sa sb)) l = some c →
    ∃ r, Traps i s k.s r ∧ WholeFault (runLanes i s g) c (eaOf p s g sa sb l) (doneBefore s g) r ∧ OnlyLooked s k.s)
  ∧ (∀ p f s g k ea cs, Issues (.ldDf p f) s g → NoDrift (.ldDf p f) s g → runLanes (.ldDf p f) s g ≠ 0 →
    g.freeSym.isSome = true → g.driftRegs < 16 → ea = eaOf p s g f.sa f.sb →
    cs = causes k .load (Machine.sizeOf f.k.toNat) ea (fun _ => 0) (fun _ _ => []) →
    SomeFault (.ldDf p f) s g .load (Machine.sizeOf f.k.toNat) (lanesOf (runLanes (.ldDf p f) s g)) ea (fun _ => 0) (fun _ _ => []) k →
    ∃ r, Traps (.ldDf p f) s k.s r ∧ LanesFault (lanesOf (runLanes (.ldDf p f) s g)) cs ea (doneBefore s g) r ∧ OnlyLooked s k.s)
  ∧ (∀ i p kc sa sb d s g ea cs, spLoad i = some (p, kc, sa, sb, d) → Issues i s g → NoDrift i s g → ea = spOf p s g sa sb →
    cs = (fun l => spCause s g (Machine.sizeOf kc) (ea l)) → (∃ l ∈ lanesOf (runLanes i s g), (cs l).isSome = true) →
    SpFree s g (Machine.sizeOf kc) ea (soundLanes (lanesOf (runLanes i s g)) cs) →
    LoadFaults i s g (lanesOf (runLanes i s g)) cs (fun l => BitVec.ofNat 64 (ea l)) d (regsOf kc)
      (fun j l => loadedWord kc (memGetBytes (s.core (coreOf s.cur)).scratch (spBaseOf s g + ea l) (Machine.sizeOf kc)) j) quiet
      fun t => OnlyCore s t ∧ (t.core (coreOf s.cur)).scratch = (s.core (coreOf s.cur)).scratch)
  ∧ (∀ i p kc sa sb d s g ea ok cs, spStore i = some (p, kc, sa, sb, d) → Issues i s g → NoDrift i s g → ea = spOf p s g sa sb →
    cs = (fun l => spCause s g (Machine.sizeOf kc) (ea l)) → (∃ l ∈ lanesOf (runLanes i s g), (cs l).isSome = true) →
    ok = soundLanes (lanesOf (runLanes i s g)) cs → SpFree s g (Machine.sizeOf kc) ea ok →
    ∃ t r, Traps i s t r
      ∧ LanesFault (lanesOf (runLanes i s g)) cs (fun l => BitVec.ofNat 64 (ea l)) (doneBefore s g ||| maskOf fun l => ok.contains l) r
      ∧ OnlyCore s t ∧ t.gust? s.cur = some g ∧ (t.core (coreOf s.cur)).locks = (s.core (coreOf s.cur)).locks
      ∧ (t.core (coreOf s.cur)).scratch
          = ok.foldl (fun m l => memSetBytes m (spBaseOf s g + ea l) (storedBytes g d kc l)) (s.core (coreOf s.cur)).scratch)
  ∧ (∀ p f s g ea ok cs, Issues (.spa p f) s g → NoDrift (.spa p f) s g → ea = spOf p s g f.sa f.sb →
    cs = (fun l => spCause s g 4 (ea l)) → (∃ l ∈ lanesOf (runLanes (.spa p f) s g), (cs l).isSome = true) →
    ok = soundLanes (lanesOf (runLanes (.spa p f) s g)) cs → SpFree s g 4 ea ok →
    ∃ t r, Traps (.spa p f) s t r
      ∧ LanesFault (lanesOf (runLanes (.spa p f) s g)) cs (fun l => BitVec.ofNat 64 (ea l))
          (doneBefore s g ||| maskOf fun l => ok.contains l) r
      ∧ OnlyCore s t ∧ t.gust? s.cur = some g ∧ (t.core (coreOf s.cur)).locks = (s.core (coreOf s.cur)).locks
      ∧ (t.core (coreOf s.cur)).scratch
          = ok.foldl (fun m l => memSetBytes m (spBaseOf s g + ea l)
              (bytesOf 4 (spaResult f.k.toNat (BitVec.ofNat 32 (memNat m (spBaseOf s g + ea l) 4)) (operand s g f.d l)).toNat))
            (s.core (coreOf s.cur)).scratch)
  ∧ ∀ i p f s g start len s1 pages n, (i = .isyncRange p f ∨ (i = .hflush p f ∧ FlushIssues p s g)) →
    Issues i s g → NoDrift i s g → runLanes i s g ≠ 0 → start = (pairLane64 g f.sa (lowestOf (runLanes i s g))).toNat →
    len = (operand s g f.sb (lowestOf (runLanes i s g))).toNat →
    s.pagesOf (coreOf s.cur) (s.frontOf g).part (s.frontOf g).asid (rangePages start len) {} = (s1, pages) →
    pages.found.all (fun x => !s1.lacksFeature x) = true → TablesSound s g (rangePages start len) →
    (∃ va ∈ rangePages start len, rangeFault pages va = some n) →
    (∀ va ∈ rangePages start len, ∀ m, rangeFault pages va = some m → n ≤ m) →
    ∃ va r, va ∈ rangePages start len ∧ rangeFault pages va = some n
      ∧ Traps i s s1 r ∧ WholeFault (runLanes i s g) (3, 0x08, n) (BitVec.ofNat 64 va) (doneBefore s g) r ∧ OnlyLooked s s1

/-- spec/06 R158, R162: LDU loads once, at the address of the lowest lane, for all; LDX decodes the element of a tile that
each lane names, and sets NV where the spec's decoding says so. -/
def Obligations.UniformAndPlaneTileLoads : Prop :=
  (∀ p f s g k, Issues (.ldu p f) s g → NoDrift (.ldu p f) s g → StaysApart s g (nextPc (.ldu p f) s g) →
    runLanes (.ldu p f) s g ≠ 0 → (f.o = 1 → AcquiresAtOnce p s g) →
    Near (.ldu p f) s g .load (Machine.sizeOf f.k.toNat) [lowestOf (runLanes (.ldu p f) s g)] (eaOf p s g f.sa f.sb)
      (plainSpan (Machine.sizeOf f.k.toNat) (eaOf p s g f.sa f.sb)) k →
    Room g (runOf f.d (regsOf f.k.toNat)) →
    ∃ t h, Completes (.ldu p f) s g (nextPc (.ldu p f) s g) t h ∧ OnlyLooked s t ∧ NoLatches s h ∧ GustKept (.ldu p f) s g h
      ∧ RegsKept g h (runOf f.d (regsOf f.k.toNat)) ∧ TagsFollow g h (runLanes (.ldu p f) s g) 1 (runOf f.d (regsOf f.k.toNat))
      ∧ ∀ j l, j < regsOf f.k.toNat → inMask g.lmask l → h.lane (h.reg (f.d.toNat + j)) l
          = if inMask (runLanes (.ldu p f) s g) l then
              loadedWord f.k.toNat (s.readBytes (k.dom (eaOf p s g f.sa f.sb (lowestOf (runLanes (.ldu p f) s g))))
                (Machine.sizeOf f.k.toNat)) j
            else g.lane (g.reg (f.d.toNat + j)) l)
  ∧ ∀ p f s g k, Issues (.ldx p f) s g → NoDrift (.ldx p f) s g → StaysApart s g (nextPc (.ldx p f) s g) →
    runLanes (.ldx p f) s g ≠ 0 → (f.acq = 1 → AcquiresAtOnce p s g) → Room g [f.d.toNat] →
    k = checkLanes (mkCtx (.ldx p f) g s.curB) s .ldx 1 (lanesOf (runLanes (.ldx p f) s g)) (pairLane64 g f.sa)
      (elemIndexOf p s g f.sb) (ldxSpans f.k.toNat (pairLane64 g f.sa) (elemIndexOf p s g f.sb) s) →
    k.faults = [] → k.pages.absent = [] →
    (∀ l x, inMask (runLanes (.ldx p f) s g) l → k.pages.find (pairLane64 g f.sa l).toNat = some x →
      ∀ r ∈ ldxSpans f.k.toNat (pairLane64 g f.sa) (elemIndexOf p s g f.sb) s x l, peerOf r.1 = s.self) →
    ∃ t h fl, Completes (.ldx p f) s g (nextPc (.ldx p f) s g) t h ∧ OnlyLooked s t ∧ NoLatches s h ∧ GustKeptButFlags (.ldx p f) s g h
      ∧ RegsKept g h [f.d.toNat] ∧ TagsFollow g h (runLanes (.ldx p f) s g) 0 [f.d.toNat]
      ∧ FlagsRaised (.ldx p f) s g h (destOf g f.d.toNat) fl
      ∧ ∀ l, inMask g.lmask l →
        (inMask (runLanes (.ldx p f) s g) l = false → regLane h f.d l = regLane g f.d l ∧ fl l = {})
        ∧ (inMask (runLanes (.ldx p f) s g) l = true → ∃ x, k.pages.find (pairLane64 g f.sa l).toNat = some x
            ∧ ∃ nv, fl l = { nv := nv } ∧ (regLane h f.d l, nv)
              = elementValue (s.tileHeader (x.domain (pairLane64 g f.sa l).toNat) (elemIndexOf p s g f.sb l) x.blockLen)
                (planesRead f.k.toNat x) x.outl
                (s.planeBit (x.domain (pairLane64 g f.sa l).toNat) (elemIndexOf p s g f.sb l)))

/-- spec/06 R164, spec/01 R27 to R30 with Table 8: a drift load gives its register a record of kind 0 over the lowest free
symbol and goes on; the symbol holds the loaded lanes. An instruction of Table 8 with a U operand beside a record, under the
write mask that the symbol captured, gives its destination the new record and goes on; a destination that holds a record of
another symbol waits for it; any other use of a record waits.
The model's reading (log 16): a transform into a further register does not wait for room among the 16 drift registers. -/
def Obligations.DriftLoadsLeaveARecordAndGoOn : Prop :=
  (∀ i u p kc sa sb d s g k y, driftLoad i = some (u, p, kc, sa, sb, d) → Issues i s g → NoDrift i s g →
    StaysApart s g (nextPc i s g) → runLanes i s g ≠ 0 →
    Near i s g .load (Machine.sizeOf kc) (if u then [lowestOf (runLanes i s g)] else lanesOf (runLanes i s g)) (eaOf p s g sa sb)
      (fun _ _ => []) k →
    Room g [d.toNat] → y < 8 → g.symFree y = true → (∀ n, n < y → g.symFree n = false) → g.driftRegs < 16 →
    g.syms.length = 8 →
    ∃ t h, Completes i s g (nextPc i s g) t h ∧ OnlyLooked s t ∧ NoLatches s h ∧ RegsKept g h [d.toNat] ∧ GcntFollows g h [d.toNat]
      ∧ (∃ under, h.reg d.toNat = .d ⟨y, 0, 1, 0⟩ under ∧ ∀ l, inMask g.lmask l → laneGet under l = regLane g d l)
      ∧ (∀ n, n ≠ y → h.syms.getD n {} = g.syms.getD n {})
      ∧ (h.syms.getD y {}).state = 1 ∧ (h.syms.getD y {}).mask = runLanes i s g
      ∧ (∀ l, inMask (runLanes i s g) l → l < 32 →
          (s.poisoned (k.dom (eaOf p s g sa sb (if u then lowestOf (runLanes i s g) else l))) (Machine.sizeOf kc) = false →
          (h.syms.getD y {}).value l
            = loadedWord kc (s.readBytes (k.dom (eaOf p s g sa sb (if u then lowestOf (runLanes i s g) else l))) (Machine.sizeOf kc)) 0))
      ∧ h = { g with a := h.a, b := h.b, regs := h.regs, trapBank := h.trapBank, capTags := h.capTags,
                     trapCapTags := h.trapCapTags, replay := replayAfter s g, xdone := doneAfter i s g, syms := h.syms })
  ∧ (∀ i s g r ws, tableEight i s g = some (r, ws) → Issues i s g →
    active i s g = (g.syms.getD r.sym {}).mask →
    ((∀ e ∈ ws, (g.reg e.1).sym? = none ∨ (g.reg e.1).sym? = some r.sym) → StaysApart s g (nextPc i s g) →
      (i.view.w = 1 ∨ Room g (ws.map Prod.fst)) →
      ∃ t h v under, Completes i s g (nextPc i s g) t h ∧ OnlyGust s t ∧ Shifted s g h ∧ GustKept i s g h
        ∧ ws.head? = some v ∧ (h.slot s.curB).latch 1 = .val (.d v.2 under)
        ∧ RegsKept g h (if i.view.w = 1 then [] else ws.map Prod.fst)
        ∧ GcntFollows g h (if i.view.w = 1 then [] else ws.map Prod.fst)
        ∧ (i.view.w ≠ 1 → ∀ e ∈ ws, ∃ u, h.reg e.1 = .d e.2 u ∧ ∀ l, inMask g.lmask l → laneGet u l = g.lane (g.reg e.1) l))
    ∧ ∀ e y, ws.head? = some e → (g.reg e.1).sym? = some y → y ≠ r.sym → WaitsFor i s g (.drift y))
  ∧ ∀ i s g y, usesPlain i s g = true → Issues i s g → g.driftOf s.curB i = some y →
    (∀ r ws, tableEight i s g = some (r, ws) → active i s g ≠ (g.syms.getD r.sym {}).mask) → WaitsFor i s g (.drift y)

/-- spec/01 R32, R27, spec/12 R335: when the reply of a drift load arrives, every register that holds a record of its symbol
takes the record's value in the captured lanes, and the symbol is free; no request of its lines sent before it is out, and no
reply waits in the gust for a symbol. -/
def Obligations.ArrivalsResolveDriftRecords : Prop :=
  ∀ s k g n y z, s.gust? k = some g → inActive k = true → g.unitOps = [] → g.syms[n]? = some y → y.state = 1 → y.held = false →
    z = arrivedSym s y → y.poison = 0 → (y.lines ≠ [] → Memory.wf s.mem = true) → (∀ l ∈ y.lines, s.outOn l.2 y.num = []) →
    (∀ b r m, (g.slot b).wait ≠ some (.landed r m)) →
    (∀ l, inMask y.mask l → (s.seeing y.seen).poisoned (y.doms.getD l 0) (2 ^ y.size) = false) →
    (y.uniform = true → ∀ l, inMask y.mask l → laneGet z.raw l = laneGet z.raw (lowestOf y.mask)) →
    ∃ t h, exec (.driftArrival k n) s = .next t ∧ t.gust? k = some h ∧ t = { s with gusts := t.gusts, free := t.free }
      ∧ (∀ m, m ≠ k → t.gust? m = s.gust? m) ∧ h.syms.getD n {} = {} ∧ (∀ m, m ≠ n → h.syms.getD m {} = g.syms.getD m {})
      ∧ (∀ v r under, g.reg v = .d r under → r.sym = n → r.kind ≤ 3 → ∀ l, inMask g.lmask l →
          h.lane (h.reg v) l = if inMask y.mask l then driftValue r z (z.value l) else laneGet under l)
      ∧ (∀ v, (∀ r under, g.reg v = .d r under → r.sym ≠ n) → h.reg v = g.reg v)
      ∧ h = { g with a := h.a, b := h.b, regs := h.regs, trapBank := h.trapBank, capTags := h.capTags,
                     trapCapTags := h.trapCapTags, syms := h.syms, fNX := h.fNX, fUF := h.fUF, fOF := h.fOF, fDZ := h.fDZ,
                     fNV := h.fNV }

/-- spec/06 R159, R154, R176: ST writes the bytes of its registers at the address of each lane that runs, the highest lane
last, and no other byte; a tracked store counts as outstanding. -/
def Obligations.StoresWriteTheirBytesAndNoOther : Prop :=
  ∀ p f s g k, Issues (.st p f) s g → NoDrift (.st p f) s g → StaysApart s g (nextPc (.st p f) s g) →
    runLanes (.st p f) s g ≠ 0 → PostsAtOnce p s g (f.o == 1) →
    Near (.st p f) s g .store (Machine.sizeOf f.k.toNat) (lanesOf (runLanes (.st p f) s g)) (eaOf p s g f.sa f.sb) (fun _ _ => []) k →
    (∀ l ∈ lanesOf (runLanes (.st p f) s g), s.poisoned (k.dom (eaOf p s g f.sa f.sb l)) (Machine.sizeOf f.k.toNat) = false) →
    ∃ t h, Completes (.st p f) s g (nextPc (.st p f) s g) t h ∧ NoLatches s h
      ∧ h = { g with a := h.a, b := h.b, replay := replayAfter s g, xdone := doneAfter (.st p f) s g, posted := postedAfter p s g }
      ∧ OnlyStored s t (fun a => ∃ l ∈ lanesOf (runLanes (.st p f) s g),
          k.dom (eaOf p s g f.sa f.sb l) ≤ a ∧ a < k.dom (eaOf p s g f.sa f.sb l) + Machine.sizeOf f.k.toNat)
      ∧ ∀ l j, l ∈ lanesOf (runLanes (.st p f) s g) → j < Machine.sizeOf f.k.toNat →
        hubOnly (localPa (k.dom (eaOf p s g f.sa f.sb l) + j)) = false →
        (∀ m ∈ lanesOf (runLanes (.st p f) s g), l < m →
          k.dom (eaOf p s g f.sa f.sb l) + j < k.dom (eaOf p s g f.sa f.sb m)
            ∨ k.dom (eaOf p s g f.sa f.sb m) + Machine.sizeOf f.k.toNat ≤ k.dom (eaOf p s g f.sa f.sb l) + j) →
        memGet t.mem (k.dom (eaOf p s g f.sa f.sb l) + j) = (storedBytes g f.d f.k.toNat l).getD j 0

/-- spec/06 R171, R172, R154: the lanes of an atomic perform it in ascending order; the posted forms return nothing, the
returning forms write the value that each lane found. -/
def Obligations.AtomicsRunLaneByLane : Prop :=
  (∀ i p op n o sa sb d s g k, postedAtomic i = some (p, op, n, o, sa, sb, d) → Issues i s g → NoDrift i s g →
    StaysApart s g (nextPc i s g) → runLanes i s g ≠ 0 → PostsAtOnce p s g (o == 1) →
    Near i s g .atomic n (lanesOf (runLanes i s g)) (eaOfAtomic p g sa) (fun _ _ => []) k →
    (∀ l ∈ lanesOf (runLanes i s g), s.poisoned (k.dom (eaOfAtomic p g sa l)) n = false) →
    ∃ t h, Completes i s g (nextPc i s g) t h ∧ NoLatches s h
      ∧ h = { g with a := h.a, b := h.b, replay := replayAfter s g, xdone := doneAfter i s g, posted := postedAfter p s g }
      ∧ OnlyStored s t (fun a => ∃ l ∈ lanesOf (runLanes i s g),
          k.dom (eaOfAtomic p g sa l) ≤ a ∧ a < k.dom (eaOfAtomic p g sa l) + n)
      ∧ t.mem = (afterAtomics s op n (fun l => k.dom (eaOfAtomic p g sa l)) (atomicOperand s g sb n)
          (fun l => if op = 9 then atomicOperand s g d n l else 0) (lanesOf (runLanes i s g))).mem)
  ∧ ∀ i p op n o sa sb d s g k, returningAtomic i = some (p, op, n, o, sa, sb, d) → Issues i s g → NoDrift i s g →
    StaysApart s g (nextPc i s g) → runLanes i s g ≠ 0 → (o = 1 → ReleasesAtOnce p s g) →
    Near i s g .atomicR n (lanesOf (runLanes i s g)) (eaOfAtomic p g sa) (plainSpan n (eaOfAtomic p g sa)) k →
    (∀ l ∈ lanesOf (runLanes i s g), popWord? (localPa (k.dom (eaOfAtomic p g sa l))) = none) →
    Room g (runOf d (n / 4)) →
    ∃ t h, Completes i s g (nextPc i s g) t h ∧ NoLatches s h ∧ GustKept i s g h ∧ RegsKept g h (runOf d (n / 4))
      ∧ TagsFollow g h (runLanes i s g) 0 (runOf d (n / 4))
      ∧ OnlyStored s t (fun a => ∃ l ∈ lanesOf (runLanes i s g),
          k.dom (eaOfAtomic p g sa l) ≤ a ∧ a < k.dom (eaOfAtomic p g sa l) + n)
      ∧ t.mem = (afterAtomics s op n (fun l => k.dom (eaOfAtomic p g sa l)) (atomicOperand s g sb n)
          (fun l => if op = 9 then atomicOperand s g d n l else 0) (lanesOf (runLanes i s g))).mem
      ∧ ∀ j l, j < n / 4 → inMask g.lmask l → h.lane (h.reg (d.toNat + j)) l
          = if inMask (runLanes i s g) l then
              BitVec.ofNat 32 ((afterAtomics s op n (fun m => k.dom (eaOfAtomic p g sa m)) (atomicOperand s g sb n)
                (fun m => if op = 9 then atomicOperand s g d n m else 0)
                ((lanesOf (runLanes i s g)).filter (· < l))).readNat (k.dom (eaOfAtomic p g sa l)) n / 2 ^ (32 * j))
            else g.lane (g.reg (d.toNat + j)) l

/-- spec/06 R166 to R170: scratchpad loads, stores, locked loads and unlocking stores, and scratchpad atomics; lanes in
ascending order, no byte elsewhere changed.
The model's choices (log 47): the lock number is that of the front's base plus the address, and STUL with an empty Active() gives
up the gust's lock set. -/
def Obligations.ScratchpadAccessesAndLocks : Prop :=
  (∀ p f s g, Issues (.spld p f) s g → NoDrift (.spld p f) s g → StaysApart s g (nextPc (.spld p f) s g) →
    SpReady (.spld p f) p s g f.sa f.sb (Machine.sizeOf f.k.toNat) → Room g (runOf f.d (regsOf f.k.toNat)) →
    ∃ t h, Completes (.spld p f) s g (nextPc (.spld p f) s g) t h ∧ OnlyGust s t ∧ Shifted s g h ∧ GustKept (.spld p f) s g h
      ∧ RegsKept g h (runOf f.d (regsOf f.k.toNat)) ∧ TagsFollow g h (runLanes (.spld p f) s g) 0 (runOf f.d (regsOf f.k.toNat))
      ∧ ∀ j l, j < regsOf f.k.toNat → inMask g.lmask l → h.lane (h.reg (f.d.toNat + j)) l
          = if inMask (runLanes (.spld p f) s g) l then
              loadedWord f.k.toNat (memGetBytes (s.core (coreOf s.cur)).scratch (spBaseOf s g + spOf p s g f.sa f.sb l)
                (Machine.sizeOf f.k.toNat)) j
            else g.lane (g.reg (f.d.toNat + j)) l)
  ∧ (∀ i p kc sa sb d s g, ((∃ f : KForm, i = .spst p f ∧ kc = f.k.toNat ∧ sa = f.sa ∧ sb = f.sb ∧ d = f.d)
      ∨ ∃ f : XForm, i = .stul p f ∧ kc = 4 ∧ sa = f.sa ∧ sb = f.sb ∧ d = f.d) →
    Issues i s g → NoDrift i s g → StaysApart s g (nextPc i s g) → SpReady i p s g sa sb (Machine.sizeOf kc) →
    ∃ t h, Completes i s g (nextPc i s g) t h ∧ OnlyCore s t ∧ Shifted s g h
      ∧ SlotsOnly i s g h
      ∧ (∀ a, (∀ l ∈ lanesOf (runLanes i s g), a < spBaseOf s g + spOf p s g sa sb l
          ∨ spBaseOf s g + spOf p s g sa sb l + Machine.sizeOf kc ≤ a) → spByte t a = spByte s a)
      ∧ (∀ l j, l ∈ lanesOf (runLanes i s g) → j < Machine.sizeOf kc →
        (∀ m ∈ lanesOf (runLanes i s g), l < m → spOf p s g sa sb l + j < spOf p s g sa sb m
          ∨ spOf p s g sa sb m + Machine.sizeOf kc ≤ spOf p s g sa sb l + j) →
        spByte t (spBaseOf s g + spOf p s g sa sb l + j) = (storedBytes g d kc l).getD j 0)
      ∧ (t.core (coreOf s.cur)).locks
          = match i with
            | .stul .. => (s.core (coreOf s.cur)).locks.filter fun e => e.2 != s.cur
            | _ => (s.core (coreOf s.cur)).locks)
  ∧ (∀ p f s g, Issues (.ldlk p f) s g → NoDrift (.ldlk p f) s g → StaysApart s g (nextPc (.ldlk p f) s g) →
    SpReady (.ldlk p f) p s g f.sa f.sb 4 → Room g [f.d.toNat] →
    ((∀ l ∈ lanesOf (runLanes (.ldlk p f) s g), lockFree s (spBaseOf s g + spOf p s g f.sa f.sb l)) →
      keysFrom 0 (s.core (coreOf s.cur)).locks = true →
      ∃ t h, Completes (.ldlk p f) s g (nextPc (.ldlk p f) s g) t h ∧ OnlyCore s t ∧ Shifted s g h ∧ GustKept (.ldlk p f) s g h
        ∧ RegsKept g h [f.d.toNat] ∧ TagsFollow g h (runLanes (.ldlk p f) s g) 0 [f.d.toNat] ∧ (∀ a, spByte t a = spByte s a)
        ∧ (∀ l ∈ lanesOf (runLanes (.ldlk p f) s g),
            tabGet? (t.core (coreOf s.cur)).locks (lockOf (spBaseOf s g + spOf p s g f.sa f.sb l)) = some s.cur)
        ∧ ∀ l, inMask g.lmask l → regLane h f.d l = if inMask (runLanes (.ldlk p f) s g) l then
            spWord s (spBaseOf s g + spOf p s g f.sa f.sb l) else regLane g f.d l)
    ∧ ∀ l, l ∈ lanesOf (runLanes (.ldlk p f) s g) → ¬ lockFree s (spBaseOf s g + spOf p s g f.sa f.sb l) →
      ∃ t h ns, exec (.ldlk p f) s = .next t ∧ t.gust? s.cur = some h ∧ Arrives (.ldlk p f) s g h (.lock ns)
        ∧ h = { g with a := h.a, b := h.b } ∧ OnlyCore s t ∧ (∀ a, spByte t a = spByte s a)
        ∧ (t.core (coreOf s.cur)).locks = (s.core (coreOf s.cur)).locks.filter fun e => e.2 != s.cur)
  ∧ ∀ p f s g, Issues (.spa p f) s g → NoDrift (.spa p f) s g → StaysApart s g (nextPc (.spa p f) s g) →
    SpReady (.spa p f) p s g f.sa f.sb 4 →
    (∀ l ∈ lanesOf (runLanes (.spa p f) s g), lockFree s (spBaseOf s g + spOf p s g f.sa f.sb l)) →
    ∃ t h, Completes (.spa p f) s g (nextPc (.spa p f) s g) t h ∧ OnlyCore s t ∧ Shifted s g h
      ∧ SlotsOnly (.spa p f) s g h
      ∧ (∀ a, (∀ l ∈ lanesOf (runLanes (.spa p f) s g), a < spBaseOf s g + spOf p s g f.sa f.sb l
          ∨ spBaseOf s g + spOf p s g f.sa f.sb l + 4 ≤ a) → spByte t a = spByte s a)
      ∧ ∀ l, l ∈ lanesOf (runLanes (.spa p f) s g) →
        (∀ m ∈ lanesOf (runLanes (.spa p f) s g), m ≠ l → spOf p s g f.sa f.sb m ≠ spOf p s g f.sa f.sb l) →
        spWord t (spBaseOf s g + spOf p s g f.sa f.sb l)
          = spaResult f.k.toNat (spWord s (spBaseOf s g + spOf p s g f.sa f.sb l)) (operand s g f.d l)

/-! ## Ordering, waits, queries -/

/-- spec/06 R178 to R184, spec/12 R340: fences complete when the accesses that they cover have been performed and wait
otherwise; one of domain scope drains the buffered lines first, and a release waits for their acknowledgements, while an
acquire load drains them when it has its value; ISYNC drops fetched code; HFLUSH waits for its host writes or posts itself, and
PREF completes.
The model's readings: FENCE.ACQ waits for loads alone (log 20). -/
def Obligations.FencesAndSynchronisation : Prop :=
  (∀ p f s g, Issues (.fenceAcq p f) s g → (p.eff.scope = 4 → (s.core (coreOf s.cur)).wcb = []) →
    (g.loadsDone = true → StaysApart s g (nextPc (.fenceAcq p f) s g) → Transfers (.fenceAcq p f) s g (nextPc (.fenceAcq p f) s g))
    ∧ (g.loadsDone = false → WaitsFor (.fenceAcq p f) s g (.fence 1 [])))
  ∧ (∀ i p s g, (∃ f, i = .fenceRel p f ∨ i = .fenceAr p f) → Issues i s g → (g.slot s.curB).wait = none →
    (p.eff.scope = 4 → (s.core (coreOf s.cur)).wcb = []) →
    (performedAt s g p.eff.scope.toNat → StaysApart s g (nextPc i s g) → Transfers i s g (nextPc i s g))
    ∧ (¬ performedAt s g p.eff.scope.toNat → WaitsFor i s g (.fence p.eff.scope.toNat [])))
  ∧ (∀ i a p kc sa sb d s g k e, plainLoad i = some (a, p, kc, true, sa, sb, d) → p.eff.scope = 4 → Issues i s g →
    NoDrift i s g → StaysApart s g (nextPc i s g) → runLanes i s g ≠ 0 → g.loadsDone = true → Room g (runOf d (regsOf kc)) →
    Near i s g a (Machine.sizeOf kc) (lanesOf (runLanes i s g)) (eaOf p s g sa sb) (plainSpan (Machine.sizeOf kc) (eaOf p s g sa sb)) k →
    (s.core (coreOf s.cur)).wcb = [e] → NoUnitWaits s e →
    ∃ t h, Completes i s g (nextPc i s g) t h ∧ (t.core (coreOf s.cur)).wcb = [] ∧ t.hub.nextReq = s.hub.nextReq + 1)
  ∧ (∀ i p s g e, (∃ f, i = .fenceRel p f ∨ i = .fenceAr p f) → p.eff.scope = 4 → Issues i s g → (g.slot s.curB).wait = none →
    (s.core (coreOf s.cur)).wcb = [e] → NoUnitWaits s e → s.outOn e.line s.hub.nextReq = [] →
    ∃ t h, exec i s = .next t ∧ t.gust? s.cur = some h ∧ (t.core (coreOf s.cur)).wcb = []
      ∧ Arrives i s g h (.fence 4 [s.hub.nextReq])
      ∧ (∃ r, t.hub.requests = s.hub.requests ++ [r] ∧ r.id = s.hub.nextReq ∧ r.peer = e.peer ∧ r.part = e.part
        ∧ r.core = coreOf s.cur ∧ r.unit = true ∧ r.posters = e.posters) ∧ t.hub.nextReq = s.hub.nextReq + 1)
  ∧ (∀ i p s g ids, (∃ f, i = .fenceRel p f ∨ i = .fenceAr p f) → p.eff.scope = 4 → Issues i s g →
    (g.slot s.curB).wait = some (.fence 4 ids) →
    ((performedAt s g 4 ∧ ∀ r ∈ s.hub.requests, r.id ∉ ids) → StaysApart s g (nextPc i s g) → Transfers i s g (nextPc i s g))
    ∧ ((¬ performedAt s g 4 ∨ ∃ r ∈ s.hub.requests, r.id ∈ ids) → WaitsFor i s g (.fence 4 ids)))
  ∧ (∀ p f s g, Issues (.isync p f) s g → StaysApart s g (nextPc (.isync p f) s g) →
    ∃ t h, Completes (.isync p f) s g (nextPc (.isync p f) s g) t h ∧ Shifted s g h
      ∧ h = { g with a := h.a, b := h.b, replay := replayAfter s g, prefetch := [] }
      ∧ t = { s with gusts := t.gusts, cores := t.cores }
      ∧ t.core (coreOf s.cur) = { s.core (coreOf s.cur) with icache := [] }
      ∧ ∀ c, c ≠ coreOf s.cur → t.core c = s.core c)
  ∧ (∀ p f s g, Issues (.isyncRange p f) s g → (active (.isyncRange p f) s g = 0 ∨ NoDrift (.isyncRange p f) s g) →
    StaysApart s g (nextPc (.isyncRange p f) s g) → runLanes (.isyncRange p f) s g = 0 → Passes (.isyncRange p f) s g)
  ∧ (∀ p f s g start len s1 pages, Issues (.isyncRange p f) s g → NoDrift (.isyncRange p f) s g →
    StaysApart s g (nextPc (.isyncRange p f) s g) → runLanes (.isyncRange p f) s g ≠ 0 →
    start = (pairLane64 g f.sa (lowestOf (runLanes (.isyncRange p f) s g))).toNat →
    len = (operand s g f.sb (lowestOf (runLanes (.isyncRange p f) s g))).toNat →
    s.pagesOf (coreOf s.cur) (s.frontOf g).part (s.frontOf g).asid (rangePages start len) {} = (s1, pages) →
    pages.absent = [] → pages.found.all (fun x => !s1.lacksFeature x) = true →
    (∀ va ∈ rangePages start len, rangeFault pages va = none) →
    ∃ t h, Completes (.isyncRange p f) s g (nextPc (.isyncRange p f) s g) t h ∧ Shifted s g h
      ∧ h = { g with a := h.a, b := h.b, replay := replayAfter s g, xdone := doneAfter (.isyncRange p f) s g, prefetch := h.prefetch }
      ∧ t.mem = s.mem
      ∧ ∀ blk, tabGet? h.prefetch blk = (if blockIn (rangeSpans pages start len) blk then none else tabGet? g.prefetch blk)
        ∧ tabGet? (t.core (coreOf s.cur)).icache blk
            = if blockIn (rangeSpans pages start len) blk then none else tabGet? (s.core (coreOf s.cur)).icache blk)
  ∧ (∀ p f s g, Issues (.hflush p f) s g → (active (.hflush p f) s g = 0 ∨ NoDrift (.hflush p f) s g) →
    StaysApart s g (nextPc (.hflush p f) s g) → runLanes (.hflush p f) s g = 0 →
    Transfers (.hflush p f) s g (nextPc (.hflush p f) s g))
  ∧ (∀ p f s g start len s1 pages ids, Issues (.hflush p f) s g → NoDrift (.hflush p f) s g → FlushIssues p s g →
    runLanes (.hflush p f) s g ≠ 0 → start = (pairLane64 g f.sa (lowestOf (runLanes (.hflush p f) s g))).toNat →
    len = (operand s g f.sb (lowestOf (runLanes (.hflush p f) s g))).toNat →
    s.pagesOf (coreOf s.cur) (s.frontOf g).part (s.frontOf g).asid (rangePages start len) {} = (s1, pages) →
    pages.absent = [] → pages.found.all (fun x => !s1.lacksFeature x) = true →
    (∀ va ∈ rangePages start len, rangeFault pages va = none) →
    ids = s.hostWrites (rangeSpans pages start len) (fun x => x.1 == s.cur && x.2.2 != 0) →
    ((ids = [] ∨ trackOf p ≠ 0) → StaysApart s g (nextPc (.hflush p f) s g) →
      ∃ t h, Completes (.hflush p f) s g (nextPc (.hflush p f) s g) t h ∧ t.mem = s.mem ∧ NoLatches s h
        ∧ h = { g with a := h.a, b := h.b, replay := replayAfter s g, xdone := doneAfter (.hflush p f) s g, posted := h.posted }
        ∧ (trackOf p = 0 → h.posted = g.posted)
        ∧ (trackOf p ≠ 0 → ∃ ls, h.posted = g.posted ++ [⟨s.nextPosted, some (trackOf p - 1), groupPc s g, ls⟩]
            ∧ (ids = [] → ls = []) ∧ ∀ r ∈ s.hub.requests, r.id ∈ ids → (r.peer, r.line, 0) ∈ ls)
        ∧ (ids = [] → t.hub = s.hub))
    ∧ (ids ≠ [] → trackOf p = 0 →
      ∃ t h, exec (.hflush p f) s = .next t ∧ t.gust? s.cur = some h ∧ Arrives (.hflush p f) s g h (.flush ids)
        ∧ h = { g with a := h.a, b := h.b } ∧ OnlyLooked s t))
  ∧ (∀ p f s g ids, Issues (.hflush p f) s g → NoDrift (.hflush p f) s g → trackOf p = 0 → runLanes (.hflush p f) s g ≠ 0 →
    (g.slot s.curB).wait = some (.flush ids) →
    ((∀ r ∈ s.hub.requests, r.id ∉ ids) → StaysApart s g (nextPc (.hflush p f) s g) →
      Transfers (.hflush p f) s g (nextPc (.hflush p f) s g))
    ∧ ((∃ r ∈ s.hub.requests, r.id ∈ ids) → WaitsFor (.hflush p f) s g (.flush ids)))
  ∧ ∀ p f s g, Issues (.pref p f) s g → (active (.pref p f) s g = 0 ∨ NoDrift (.pref p f) s g) →
    StaysApart s g (nextPc (.pref p f) s g) → Transfers (.pref p f) s g (nextPc (.pref p f) s g)

/-- spec/06 R185 to R188: waits for counters and timelines, the query of the range scoreboard, allowance read and branch.
The model's readings (log 21): WAITTL reports 2 before 1, and of a context that the front was not granted 0 for n = 0 and else 2. -/
def Obligations.CountersTimelinesAndAllowance : Prop :=
  (∀ p f s g, Issues (.waitsb p f) s g →
    (g.counter f.sa.toNat ≤ f.sb.toNat → StaysApart s g (nextPc (.waitsb p f) s g) →
      Transfers (.waitsb p f) s g (nextPc (.waitsb p f) s g))
    ∧ (f.sb.toNat < g.counter f.sa.toNat → WaitsFor (.waitsb p f) s g (.sb f.sa.toNat f.sb.toNat)))
  ∧ (∀ p f s g n, Issues (.waittl p f) s g → NoDrift (.waittl p f) s g →
    n = (pairLane64 g f.sa (lowestOf (active (.waittl p f) s g))).toNat →
    (StaysApart s g (nextPc (.waittl p f) s g) → Room g [f.d.toNat] →
      (∀ key e, s.engKey? g.front (coreOf s.cur) f.q.toNat = some key → e = s.engAt g.front key f.q.toNat →
        (n ≤ e.timeline → YieldsReg (.waittl p f) s g 0 f.d fun _ => 0)
        ∧ (e.timeline < n → e.accepted < n → YieldsReg (.waittl p f) s g 0 f.d fun _ => 2)
        ∧ (e.timeline < n → n ≤ e.accepted → e.faulted = true → YieldsReg (.waittl p f) s g 0 f.d fun _ => 1))
      ∧ (s.engKey? g.front (coreOf s.cur) f.q.toNat = none →
        YieldsReg (.waittl p f) s g 0 f.d fun _ => if n = 0 then 0 else 2))
    ∧ ∀ key e, s.engKey? g.front (coreOf s.cur) f.q.toNat = some key → e = s.engAt g.front key f.q.toNat →
      active (.waittl p f) s g ≠ 0 → e.timeline < n → n ≤ e.accepted → e.faulted = false → WaitsFor (.waittl p f) s g (.timeline key n))
  ∧ (∀ p f s g lo, ReadyReg (.rsbq p f) s g f.w f.d →
    lo = spBaseOf s g + (operand s g f.sa (lowestOf (active (.rsbq p f) s g))).toNat →
    WritesReg (.rsbq p f) s g f.w f.d fun _ => maskOf fun n =>
      (s.core (coreOf s.cur)).rsb.any fun e => e.ix == n && decide (e.lo < e.hi)
        && decide (e.lo < lo + (operand s g f.sb (lowestOf (active (.rsbq p f) s g))).toNat) && decide (lo < e.hi)
        && decide (0 < (operand s g f.sb (lowestOf (active (.rsbq p f) s g))).toNat))
  ∧ (∀ p f s g, ReadyReg (.awrd p f) s g f.w f.d →
    WritesReg (.awrd p f) s g f.w f.d fun _ =>
      BitVec.ofNat 32 (s.aw (coreOf s.cur) ((operand s g f.sa (lowestOf (active (.awrd p f) s g))).toNat % 64)))
  ∧ ∀ p f s g pc, Issues (.braw p f) s g →
    pc = (if f.k8.toNat ≤ s.aw (coreOf s.cur) f.p.toNat then groupPc s g + BitVec.ofInt 56 (4 * f.off12.toInt)
      else nextPc (.braw p f) s g) →
    StaysApart s g pc → Transfers (.braw p f) s g pc

/-! ## Capabilities -/

/-- spec/06 R189, R192: CAPNAR only narrows: the kind stays, permissions are and-ed, the bounds are the request's, which
must lie within the old ones; a request outside them, a clear tag and a malformed quad trap.
The model's readings: XMASK of the traps is Active() (log 19), and XADDR keeps what it held (log 48). -/
def Obligations.CapabilitiesOnlyNarrow : Prop :=
  ∀ p f s g x lo hi m, ReadyQuad (.capnar p f) s g f.d → x = quadOf g f.sa (lowestOf (active (.capnar p f) s g)) →
    lo = quadOf g f.d (lowestOf (active (.capnar p f) s g)) % 2 ^ 64 →
    hi = quadOf g f.d (lowestOf (active (.capnar p f) s g)) / 2 ^ 64 →
    m = (operand s g f.sb (lowestOf (active (.capnar p f) s g))).toNat % 256 →
    (g.capTag f.sa.toNat = false →
      Traps (.capnar p f) s s { code := 0x07, cause := 1, xmask := active (.capnar p f) s g })
    ∧ (g.capTag f.sa.toNat = true → capMalformed x = true →
      Traps (.capnar p f) s s { code := 0x07, cause := 6, xmask := active (.capnar p f) s g })
    ∧ (g.capTag f.sa.toNat = true → capMalformed x = false → capKind x < 2 →
      (lo < capBase x ∨ capBase x + capLen x ≤ hi ∨ hi < lo ∨ lo % 64 ≠ 0 ∨ (hi + 1) % 64 ≠ 0) →
      Traps (.capnar p f) s s { code := 0x07, cause := 5, xmask := active (.capnar p f) s g })
    ∧ (g.capTag f.sa.toNat = true → capMalformed x = false →
      ((capKind x < 2 ∧ hi < 2 ^ 56 ∧ capBase x ≤ lo ∧ hi < capBase x + capLen x ∧ lo ≤ hi ∧ lo % 64 = 0 ∧ (hi + 1) % 64 = 0)
        ∨ (capKind x = 2 ∧ capPosLo x ≤ lo ∧ hi ≤ capPosHi x ∧ lo ≤ hi) ∨ capKind x = 3) →
      ∃ y, WritesQuad (.capnar p f) s g f.d y ∧ capKind y = capKind x ∧ capPerm y = (capPerm x &&& m)
        ∧ capMalformed y = false ∧ capSpec y = capSpec x
        ∧ (capKind x < 2 → capBase y = lo ∧ capLen y = hi + 1 - lo)
        ∧ (capKind x = 2 → capPosLo y = lo ∧ capPosHi y = hi ∧ capWord1 y = capWord1 x)
        ∧ (capKind x = 3 → capQueue y = capQueue x))

/-- spec/06 R191, R192: CAPCHK and CAPTAG read, CAPMK makes a capability in a supervisor handler, CAPLD and CAPST move a quad
and its tag.
The model's readings (log 19): an empty Active() gives CAPMK no effect, XMASK of its trap is Active(), and CAPST of a quad whose
tag is clear stores a clear tag; bit 8 of CAPCHK on kind 3 is open (log 6) and not claimed. The model's choice (log 48): the trap
of CAPMK leaves XADDR as it was. -/
def Obligations.CapabilitiesAreMadeMovedAndChecked : Prop :=
  (∀ p f s g x, ReadyReg (.capchk p f) s g f.w f.d → x = quadOf g f.sa (lowestOf (active (.capchk p f) s g)) →
    (g.capTag f.sa.toNat = false → WritesReg (.capchk p f) s g f.w f.d fun _ => 0)
    ∧ (g.capTag f.sa.toNat = true → capKind x < 3 → WritesReg (.capchk p f) s g f.w f.d fun l =>
        BitVec.ofNat 32 (capPerm x + 2 ^ 9 + 2 ^ 10 * capKind x
          + if (if capKind x = 2 then decide (capPosLo x ≤ (operand s g f.sb l).toNat)
                && decide ((operand s g f.sb l).toNat ≤ capPosHi x)
              else decide ((operand s g f.sb l).toNat < capLen x)) then 2 ^ 8 else 0)))
  ∧ (∀ p f s g, ReadyReg (.captag p f) s g f.w f.d →
    WritesReg (.captag p f) s g f.w f.d fun _ => if g.capTag f.sa.toNat then 1 else 0)
  ∧ (∀ p f s g x, ReadyQuad (.capmk p f) s g f.d → x = quadOf g f.sa (lowestOf (active (.capmk p f) s g)) →
    (capMalformed x = false → WritesQuad (.capmk p f) s g f.d x)
    ∧ (capMalformed x = true → Traps (.capmk p f) s s { code := 0x07, cause := 6, xmask := active (.capmk p f) s g }))
  ∧ (∀ p f s g k, Issues (.capld p f) s g → NoDrift (.capld p f) s g → StaysApart s g (nextPc (.capld p f) s g) →
    runLanes (.capld p f) s g ≠ 0 → (f.o = 1 → AcquiresAtOnce p s g) →
    Near (.capld p f) s g .capLoad 16 [lowestOf (runLanes (.capld p f) s g)] (eaOf p s g f.sa f.sb)
      (plainSpan 16 (eaOf p s g f.sa f.sb)) k →
    Room g (runOf f.d 4) →
    ∃ t h, Completes (.capld p f) s g (nextPc (.capld p f) s g) t h ∧ OnlyLooked s t ∧ NoLatches s h ∧ GustKept (.capld p f) s g h
      ∧ (∀ n, n ∉ runOf f.d 4 → h.reg n = g.reg n) ∧ TagsFollow g h (runLanes (.capld p f) s g) 1 (runOf f.d 4)
      ∧ (∀ l, inMask g.lmask l → quadOf h f.d l = if inMask (runLanes (.capld p f) s g) l then
          s.readNat (k.dom (eaOf p s g f.sa f.sb (lowestOf (runLanes (.capld p f) s g)))) 16 else quadOf g f.d l)
      ∧ h.capTag f.d.toNat = (decide (runLanes (.capld p f) s g = g.lmask)
          && s.memTag (k.dom (eaOf p s g f.sa f.sb (lowestOf (runLanes (.capld p f) s g))))))
  ∧ ∀ p f s g k a, Issues (.capst p f) s g → NoDrift (.capst p f) s g → StaysApart s g (nextPc (.capst p f) s g) →
    runLanes (.capst p f) s g ≠ 0 → PostsAtOnce p s g (f.o == 1) →
    Near (.capst p f) s g .capStore 16 [lowestOf (runLanes (.capst p f) s g)] (eaOf p s g f.sa f.sb) (fun _ _ => []) k →
    a = k.dom (eaOf p s g f.sa f.sb (lowestOf (runLanes (.capst p f) s g))) → s.poisoned a 16 = false → a % 16 = 0 →
    (∀ j, j < 16 → hubOnly (localPa (a + j)) = false) →
    ∃ t h, Completes (.capst p f) s g (nextPc (.capst p f) s g) t h ∧ NoLatches s h
      ∧ h = { g with a := h.a, b := h.b, replay := replayAfter s g, xdone := doneAfter (.capst p f) s g, posted := postedAfter p s g }
      ∧ OnlyStored s t (fun b => a ≤ b ∧ b < a + 16)
      ∧ natOfBytes (memGetBytes t.mem a 16) = quadOf g f.d (lowestOf (runLanes (.capst p f) s g))
      ∧ t.memTag a = g.capTag f.d.toNat

/-! ## Commands pushed to engines -/

/-- spec/07 R197 to R199: a PUSH is accepted under status 0 and changes nothing otherwise; PUSHQ and TLRD read.
The model's readings: which free scoreboard number a push takes is open (log 6), and PUSHQ gives at most 63 and tells
nothing of a context that the front was not granted but its depth and bit 7 (log 21). -/
def Obligations.PushesAreAcceptedOrRefused : Prop :=
  (∀ i p f sc s g, pushOf i = some (p, f, sc) → Runs i s g → Room g [f.d.toNat] →
    (sc ≠ 0 → performedAt s g sc ∧ (g.slot s.curB).wait = none) →
    ((s.engKey? g.front (coreOf s.cur) f.q.toNat = none ∨ pushAllowed g.handler f.q.toNat = false) →
      YieldsReg i s g 0 f.d fun _ => 3)
    ∧ ∀ key e iv, s.engKey? g.front (coreOf s.cur) f.q.toNat = some key → pushAllowed g.handler f.q.toNat = true →
      e = s.engAt g.front key f.q.toNat →
      iv = s.interval { key := key, eng := e, fr := s.frontOf g, cmd := pushedCmd i s g f.sa (e.accepted + 1) } →
      (e.faulted = true → YieldsReg i s g 0 f.d fun _ => 2)
      ∧ (e.faulted = false → (queueDepth e.cls ≤ e.queue.length ∨ (iv.isSome = true ∧ (s.core (coreOf s.cur)).freeRsb = [])) →
        YieldsReg i s g 0 f.d fun _ => 1)
      ∧ (e.faulted = false → e.queue.length < queueDepth e.cls → (iv.isSome = true → (s.core (coreOf s.cur)).freeRsb ≠ []) →
        ∃ t h, Completes i s g (nextPc i s g) t h ∧ NoLatches s h ∧ GustKept i s g h ∧ RegsKept g h [f.d.toNat]
          ∧ TagsFollow g h (active i s g) (fullTag i s g) [f.d.toNat]
          ∧ (∀ l, inMask g.lmask l → inMask (active i s g) l → regLane h f.d l = 0)
          ∧ t = { s with gusts := t.gusts, engs := t.engs, cores := t.cores, free := t.free }
          ∧ t.eng? key = some { e with accepted := e.accepted + 1, queue := e.queue ++ [pushedCmd i s g f.sa (e.accepted + 1)] }
          ∧ (iv = none → (t.core (coreOf s.cur)).rsb = (s.core (coreOf s.cur)).rsb)
          ∧ ∀ lo hi, iv = some (lo, hi) → ∃ n, n ∈ (s.core (coreOf s.cur)).freeRsb
              ∧ (t.core (coreOf s.cur)).rsb = (s.core (coreOf s.cur)).rsb ++ [⟨n, lo, hi, key, e.accepted + 1⟩]))
  ∧ (∀ p f s g e, Issues (.pushq p f) s g → NoDrift (.pushq p f) s g → StaysApart s g (nextPc (.pushq p f) s g) →
    Room g [f.d.toNat] → e = (s.engKey? g.front (coreOf s.cur) f.q.toNat).map (fun k => s.engAt g.front k f.q.toNat) →
    YieldsReg (.pushq p f) s g 0 f.d fun _ => BitVec.ofNat 32
      ((match e with
        | none => min 63 (queueDepth (f.q.toNat / 32)) + 2 ^ 7
        | some x => min 63 (queueDepth (f.q.toNat / 32) - x.queue.length) + if x.faulted then 2 ^ 6 else 0)
        + 2 ^ 8 * (s.core (coreOf s.cur)).freeRsb.length))
  ∧ ∀ p f s g, ReadyPair (.tlrd p f) s g f.d → WritesPair (.tlrd p f) s g f.d fun _ =>
      BitVec.ofNat 64 (match s.engKey? g.front (coreOf s.cur) f.q.toNat with
        | none => 0
        | some k => (s.engAt g.front k f.q.toNat).timeline)

/-! ## Attention contexts -/

/-- spec/07 R222, R224, R219: KVRES takes positions from the context's counter when they fit; KVPUB sets the published bits
of its positions for the die and, from package scope on, for the package; KVACQ reads them.
The model's readings: the order of the checks and where the home word is found (log 27), and remote lines as loads and stores
of their own (log 52), here outside the hypotheses. -/
def Obligations.PositionsAreReservedPublishedAndAcquired : Prop :=
  (∀ p f s g u x e d n, Runs (.kvres p f) s g → Room g [f.d.toNat, f.d.toNat + 1] → Opens (.kvres p f) s g f.sa u x e →
    capPerm x / 2 % 2 = 1 → (e.home = 1 → 4 ≤ p.eff.scope.toNat) →
    u.homeDom (u.frontOf g).part (u.frontOf g).asid e (e.va + 8) (e.dom + 8) true = some (d, none) → Storable d 8 →
    OwnLines u [(e.dom, 256), (d, 8)] → n = (operand s g f.sb (lowestOf (active (.kvres p f) s g))).toNat →
    ∃ v, YieldsPair (.kvres p f) s g v f.d (fun _ => BitVec.ofNat 32 (u.readNat d 8))
        (fun _ => BitVec.ofNat 32 (reserveStatus (u.readNat d 8) n e.nb (capPosLo x) (capPosHi x)))
      ∧ MemOnly s v d 8
      ∧ v.readNat d 8 = if reserveStatus (u.readNat d 8) n e.nb (capPosLo x) (capPosHi x) = 0 then u.readNat d 8 + n
          else u.readNat d 8)
  ∧ (∀ p f s g u x e v d l n a m, Runs (.kvpub p f) s g → Opens (.kvpub p f) s g f.sa u x e →
    l = ctlLayer (ctlOf (.kvpub p f) s g f.sb) → n = ctlCount (ctlOf (.kvpub p f) s g f.sb) → a = posOf (.kvpub p f) s g f.sb →
    m = dieOf (coreOf s.cur) → m < 4 →
    capPerm x / 4 % 2 = 1 → l ≤ e.nlayer → posIn x e a n = true → (a + n - 1) / 64 = a / 64 →
    (mkCtx (.kvpub p f) g s.curB).reach u (e.group l (a / 64)) 64 true true = .ok (v, d) →
    (p.eff.scope = 2 ∨ p.eff.scope = 3 ∨ (p.eff.scope = 4 ∧ e.homeAt = s.self ∧ (s.core (coreOf s.cur)).wcb = [])) →
    performedAt s g p.eff.scope.toNat → (g.slot s.curB).wait = none → Storable d 64 → OwnLines v [(e.dom, 256), (d, 64)] →
    ∃ w, YieldsNothing (.kvpub p f) s g w ∧ MemOnly s w d 0x30
      ∧ (∀ j, j < 4 → w.readNat (d + 8 * j) 8
          = if j = m then v.readNat (d + 8 * j) 8 ||| positionBits a n (a / 64) else v.readNat (d + 8 * j) 8)
      ∧ w.readNat (d + 0x20) 8
          = (if 3 ≤ p.eff.scope.toNat then v.readNat (d + 0x20) 8 ||| positionBits a n (a / 64) else v.readNat (d + 0x20) 8)
      ∧ w.readNat (d + 0x28) 8
          = if p.eff.scope = 4 then v.readNat (d + 0x28) 8 ||| positionBits a n (a / 64) else v.readNat (d + 0x28) 8)
  ∧ ∀ p f s g u x e v d l b at', Runs (.kvacq p f) s g → Room g [f.d.toNat, f.d.toNat + 1] → Opens (.kvacq p f) s g f.sa u x e →
    l = ctlLayer (ctlOf (.kvacq p f) s g f.sb) → b = posOf (.kvacq p f) s g f.sb → capPerm x / 8 % 2 = 1 → l ≤ e.nlayer →
    capBlock x e b = true → (mkCtx (.kvacq p f) g s.curB).reach u (e.group l b) 64 true false = .ok (v, d) →
    AcquiresAtOnce p s g → OwnLines v [(e.dom, 256), (at', 8)] →
    ((p.eff.scope = 2 ∧ at' = d + 8 * dieOf (coreOf s.cur)) ∨ (p.eff.scope = 3 ∧ at' = d + 0x20)
      ∨ (p.eff.scope = 4
        ∧ ∃ m, v.homeDom (v.frontOf g).part (v.frontOf g).asid e (e.group l b) d false = some (m, none) ∧ at' = m + 0x28)) →
    YieldsPair (.kvacq p f) s g v f.d (fun _ => BitVec.ofNat 32 (v.readNat at' 8))
      (fun _ => BitVec.ofNat 32 (v.readNat at' 8 / 2 ^ 32))

/-- spec/07 R223, R225 to R229: the attention forms over blocks complete with the frames' rules: appended vectors, the status
of a seal, gathered elements and residency, scores and weighted sums, promoted nodes.
The model's readings (logs 27, 52, 53): the order of the checks, blocks outside the capability, frames whose pages a swap
is reading, the page tests of a seal. -/
def Obligations.AttentionFormsCompleteOnResidentBlocks : Prop :=
  (∀ p f s g u x e v rs h n a, Runs (.kvapp p f) s g → Opens (.kvapp p f) s g f.sa u x e →
    n = ctlCount (ctlOf (.kvapp p f) s g f.sb) → h = ctlHead (ctlOf (.kvapp p f) s g f.sb) → a = posOf (.kvapp p f) s g f.sb →
    n * e.g ≤ 32 → h + n ≤ e.nhead + 1 → ctlLayer (ctlOf (.kvapp p f) s g f.sb) ≤ e.nlayer → posIn x e a 1 = true →
    capPerm x / 2 % 2 = 1 → (mkCtx (.kvapp p f) g s.curB).extent u f.d (2 * n * e.g) = none →
    (mkCtx (.kvapp p f) g s.curB).blocks u e (ctlLayer (ctlOf (.kvapp p f) s g f.sb))
      ((List.range n).map fun j => (h + j, a / 64)) true false = .ok (v, rs) →
    OwnLines v ((e.dom, 256) :: (List.zip (List.range n) rs).flatMap fun t => t.2.spans e (h + t.1) false) →
    ∃ w, YieldsNothing (.kvapp p f) s g w ∧ w.mem = (appendAll v e (a % 64) ((List.zip (List.range n) rs).map fun t =>
      (h + t.1, t.2, (List.range e.d).map (fun j => g.lane (g.reg (f.d.toNat + t.1 * e.g + j / 32)) (j % 32)),
        (List.range e.d).map (fun j => g.lane (g.reg (f.d.toNat + (n + t.1) * e.g + j / 32)) (j % 32))))).mem)
  ∧ (∀ p f s g u x e v rs l b, Runs (.kvseal p f) s g → (f.w = 1 ∨ Room g [f.d.toNat]) → Opens (.kvseal p f) s g f.sa u x e →
    l = ctlLayer (ctlOf (.kvseal p f) s g f.sb) → b = posOf (.kvseal p f) s g f.sb → capPerm x / 2 % 2 = 1 → l ≤ e.nlayer →
    capBlock x e b = true →
    (mkCtx (.kvseal p f) g s.curB).blocks u e l (e.privHeads.map fun h => (h, b)) true true = .ok (v, rs) →
    (∀ r ∈ rs, r.sealFault = none) →
    (rs = [] → Yields (.kvseal p f) s g v f.w f.d fun _ => 3)
    ∧ (rs ≠ [] → (∀ r ∈ rs, r.isSealed = true) → Yields (.kvseal p f) s g v f.w f.d fun _ => 1)
    ∧ ∀ w d, (∃ r ∈ rs, r.isSealed = false) →
      (mkCtx (.kvseal p f) g s.curB).reach v (e.group l b) 64 true false = .ok (w, d) →
      OwnLines w ((e.dom, 256) :: (d, 64) :: (List.zip e.privHeads rs).flatMap fun t => t.2.spans e t.1 true) →
      (w.readNat (d + 0x20) 8 ≠ 2 ^ 64 - 1 → Yields (.kvseal p f) s g w f.w f.d fun _ => 2)
      ∧ (w.readNat (d + 0x20) 8 = 2 ^ 64 - 1 → rs.length ≤ 16 →
        Yields (.kvseal p f) s g ((rs.filter fun r => !r.isSealed).foldl (fun t r => t.sealHead e r) w) f.w f.d fun _ => 0))
  ∧ (∀ p f s g u x e l h ch rb, Runs (.kvg p f) s g → Room g [f.d.toNat, f.d.toNat + 1] → Opens (.kvg p f) s g f.sa u x e →
    l = ctlLayer (ctlOf (.kvg p f) s g f.sb) → h = ctlHead (ctlOf (.kvg p f) s g f.sb) →
    ch = ctlOf (.kvg p f) s g f.sb / 2 ^ 16 % 256 → capPerm x % 2 = 1 → l ≤ e.nlayer → h ≤ e.nhead → ch < e.d →
    rb = (mkCtx (.kvg p f) g s.curB).laneBlocks u e l h
      (((lanesOf (active (.kvg p f) s g)).filter fun i => posIn x e (regLane g f.sb i).toNat 1).map fun i =>
        (regLane g f.sb i).toNat / 64) →
    OwnLines rb.1 ((e.dom, 256) :: rb.2.flatMap fun t =>
      if t.2.code = 1 ∨ t.2.code = 3 then [(t.2.entry, 16)] else t.2.spans e h false) →
    ∃ val st, YieldsPair (.kvg p f) s g rb.1 f.d val st
      ∧ (∀ i, inMask (active (.kvg p f) s g) i → posIn x e (regLane g f.sb i).toNat 1 = false → val i = 0 ∧ st i = 1)
      ∧ ∀ i r, i < 32 → inMask (active (.kvg p f) s g) i → posIn x e (regLane g f.sb i).toNat 1 = true →
        tabGet? rb.2 ((regLane g f.sb i).toNat / 64) = some r →
        st i = BitVec.ofNat 32 (if r.code = 4 then 2 else r.code) ∧ ((r.code = 1 ∨ r.code = 3) → val i = 0)
          ∧ ((r.code = 0 ∨ r.code = 2 ∨ r.code = 4) → val i = elemValue e h r
              ((rb.1.frameRow e h r ((regLane g f.sb i).toNat % 64) ((ctlOf (.kvg p f) s g f.sb).testBit 14)).1.getD ch 0)
              (rb.1.frameRow e h r ((regLane g f.sb i).toNat % 64) ((ctlOf (.kvg p f) s g f.sb).testBit 14)).2))
  ∧ (∀ p f s g u x e l h rb, Runs (.kvrm p f) s g → (f.w = 1 ∨ Room g [f.d.toNat]) → Opens (.kvrm p f) s g f.sa u x e →
    l = ctlLayer (ctlOf (.kvrm p f) s g f.sb) → h = ctlHead (ctlOf (.kvrm p f) s g f.sb) → capPerm x % 2 = 1 → l ≤ e.nlayer →
    h ≤ e.nhead →
    rb = (mkCtx (.kvrm p f) g s.curB).laneBlocks u e l h
      (((lanesOf (active (.kvrm p f) s g)).filter fun i => capBlock x e (regLane g f.sb i).toNat).map fun i =>
        (regLane g f.sb i).toNat) →
    OwnLines rb.1 ((e.dom, 256) :: rb.2.map fun t => (t.2.entry, 16)) →
    ∃ code, Yields (.kvrm p f) s g rb.1 f.w f.d code
      ∧ (∀ i, inMask (active (.kvrm p f) s g) i → capBlock x e (regLane g f.sb i).toNat = false → code i = 1)
      ∧ ∀ i r, i < 32 → inMask (active (.kvrm p f) s g) i → capBlock x e (regLane g f.sb i).toNat = true →
        tabGet? rb.2 (regLane g f.sb i).toNat = some r → code i = BitVec.ofNat 32 r.code)
  ∧ (∀ p f s g u x e l h n bm out, Runs (.kvqk p f) s g → Opens (.kvqk p f) s g f.sa u x e →
    l = ctlLayer (ctlOf (.kvqk p f) s g f.sb) → h = ctlHead (ctlOf (.kvqk p f) s g f.sb) →
    n = ctlCount (ctlOf (.kvqk p f) s g f.sb) → capPerm x % 2 = 1 → l ≤ e.nlayer → h ≤ e.nhead →
    (mkCtx (.kvqk p f) g s.curB).extent u f.d (e.g + 3) = none →
    bm = (g.lane (g.reg (f.d.toNat + e.g + 1)) (lowestOf (active (.kvqk p f) s g))).toNat →
    out = (g.lane (g.reg (f.d.toNat + e.g + 2)) (lowestOf (active (.kvqk p f) s g))).toNat →
    (mkCtx (.kvqk p f) g s.curB).spOperand u 8 (8 * n) bm = none →
    (mkCtx (.kvqk p f) g s.curB).spOperand u 4 (256 * n) out = none →
    ((∀ j, j < 8 * n → spByte u (spBaseOf u g + bm + j) = 0) → OwnLines u [(e.dom, 256)] →
      ∃ w, YieldsNothing (.kvqk p f) s g w ∧ w.mem = u.mem
        ∧ ∀ j, j < 64 * n → memNat (w.core (coreOf s.cur)).scratch (spBaseOf u g + out + 4 * j) 4 = 0xFF800000)
    ∧ ∀ v rs ws, ws = (mkCtx (.kvqk p f) g s.curB).bitmaps u x e bm (posOf (.kvqk p f) s g f.sb) n →
      (mkCtx (.kvqk p f) g s.curB).readBlocks u e l h ws = .ok (v, rs) →
      ∃ w, YieldsNothing (.kvqk p f) s g w ∧ w.mem = v.mem
        ∧ ∀ i j, i < n → j < 64 → memNat (w.core (coreOf s.cur)).scratch (spBaseOf u g + out + 4 * (64 * i + j)) 4
            = match (if (ws.getD i (0, 0)).2.testBit j then tabGet? rs (posOf (.kvqk p f) s g f.sb + i) else none) with
              | none => 0xFF800000
              | some r => (score ((mkCtx (.kvqk p f) g s.curB).vec f.d.toNat e.d) (v.frameRow e h r j false).1 e.g
                  (v.frameRow e h r j false).2
                  (g.lane (g.reg (f.d.toNat + e.g)) (lowestOf (active (.kvqk p f) s g)))).toNat)
  ∧ (∀ p f s g u x e l h n wa bm v rs, Runs (.kvav p f) s g → Opens (.kvav p f) s g f.sa u x e →
    l = ctlLayer (ctlOf (.kvav p f) s g f.sb) → h = ctlHead (ctlOf (.kvav p f) s g f.sb) →
    n = ctlCount (ctlOf (.kvav p f) s g f.sb) → capPerm x % 2 = 1 → l ≤ e.nlayer → h ≤ e.nhead →
    (mkCtx (.kvav p f) g s.curB).extent u f.d (e.g + 2) = none →
    wa = (g.lane (g.reg (f.d.toNat + e.g)) (lowestOf (active (.kvav p f) s g))).toNat →
    bm = (g.lane (g.reg (f.d.toNat + e.g + 1)) (lowestOf (active (.kvav p f) s g))).toNat →
    (mkCtx (.kvav p f) g s.curB).spOperand u 4 (256 * n) wa = none →
    (mkCtx (.kvav p f) g s.curB).spOperand u 8 (8 * n) bm = none → Room g (runOf f.d e.g) →
    (mkCtx (.kvav p f) g s.curB).readBlocks u e l h
      ((mkCtx (.kvav p f) g s.curB).bitmaps u x e bm (posOf (.kvav p f) s g f.sb) n) = .ok (v, rs) →
    ∀ terms raw, terms = (setPositions ((mkCtx (.kvav p f) g s.curB).bitmaps u x e bm (posOf (.kvav p f) s g f.sb) n) rs).map
        (fun y => (BitVec.ofNat 32 (memNat (v.core (coreOf s.cur)).scratch (spBaseOf u g + wa + 4 * (64 * y.1 + y.2.1)) 4),
          (v.frameRow e h y.2.2 y.2.1 true).1, (v.frameRow e h y.2.2 y.2.1 true).2)) →
      raw = (List.range e.d).map (fun ch => kvavChannel terms ch
        (if (ctlOf (.kvav p f) s g f.sb).testBit 14 then
          some (((mkCtx (.kvav p f) g s.curB).vec f.d.toNat e.d).getD ch 0) else none)) →
    ∃ t k, Completes (.kvav p f) s g (nextPc (.kvav p f) s g) t k ∧ t = { v with gusts := t.gusts } ∧ NoLatches s k
      ∧ GustKept (.kvav p f) s g k ∧ RegsKept g k (runOf f.d e.g)
      ∧ TagsFollow g k (active (.kvav p f) s g) 0 (runOf f.d e.g)
      ∧ ∀ j i, j < e.g → inMask g.lmask i → k.lane (k.reg (f.d.toNat + j)) i
          = if inMask (active (.kvav p f) s g) i then
              (if (ctlOf (.kvav p f) s g f.sb).testBit 15 then hadamard raw else raw).getD (32 * j + i) 0
            else g.lane (g.reg (f.d.toNat + j)) i)
  ∧ ∀ p f s g u x e l n a la, Runs (.kvprom p f) s g → Opens (.kvprom p f) s g f.sa u x e →
    (mkCtx (.kvprom p f) g s.curB).extent s f.d 3 = none →
    l = ctlLayer (ctlOf (.kvprom p f) s g f.sb) → n = ctlCount (ctlOf (.kvprom p f) s g f.sb) → a = posOf (.kvprom p f) s g f.sb →
    la = (g.lane (g.reg (f.d.toNat + 2)) (lowestOf (active (.kvprom p f) s g))).toNat →
    capPerm x / 2 % 2 = 1 → l ≤ e.nlayer → n ≤ 64 → posIn x e a n = true →
    (mkCtx (.kvprom p f) g s.curB).spOperand u 1 n la = none →
    (∀ b ∈ (mkCtx (.kvprom p f) g s.curB).spGet u la n, b.toNat ≤ 63) →
    ∀ v rs w nodes z, (mkCtx (.kvprom p f) g s.curB).blocks u e l
        (((List.range n).flatMap fun i => (List.range (e.nhead + 1)).map fun h => (h, (a + i) / 64)).dedup) true false = .ok (v, rs) →
      (mkCtx (.kvprom p f) g s.curB).nodes v e (pairLane64 g f.d (lowestOf (active (.kvprom p f) s g))).toNat l
        ((List.range n).flatMap fun i => (List.range (e.nhead + 1)).map fun h =>
          (i, (((mkCtx (.kvprom p f) g s.curB).spGet u la n).map fun b => b.toNat).getD i 0, h)) = .ok (w, nodes) →
      OwnLines w ((e.dom, 256) :: (((List.zip (((List.range n).flatMap fun i =>
          (List.range (e.nhead + 1)).map fun h => (h, (a + i) / 64)).dedup) rs).flatMap fun t => t.2.spans e t.1.1 false)
        ++ w.nodeSpans e (pairLane64 g f.d (lowestOf (active (.kvprom p f) s g))).toNat l
            ((((mkCtx (.kvprom p f) g s.curB).spGet u la n).map fun b => b.toNat).take n))) →
      (mkCtx (.kvprom p f) g s.curB).leave w = .ok z →
      ∃ y, YieldsNothing (.kvprom p f) s g y ∧ y.mem = (nodes.foldl (fun t nd =>
        appendAll t e ((a + nd.1) % 64) [(nd.2.1,
          (((List.zip (((List.range n).flatMap fun i => (List.range (e.nhead + 1)).map fun h => (h, (a + i) / 64)).dedup) rs).find?
            fun t => t.1 == (nd.2.1, (a + nd.1) / 64)).map fun t => t.2).getD { code := 1 },
          (fpWords nd.2.2 (2 * e.d)).take e.d, (fpWords nd.2.2 (2 * e.d)).drop e.d)]) z).mem

/-! ## Loop queues -/

/-- spec/07 R230 to R233, R217: LQSEND sends 512 bytes of scratchpad unless the queue is full or stopped, LQRECV takes the
oldest entry into the scratchpad, LQPEEK counts; an entry that arrives in sequence is delivered, a duplicate is dropped.
The model's readings (log 28): the number of a queue is its pair's, a stopped queue drops what arrives, and a sequence number
half the range or more behind E is a duplicate. -/
def Obligations.LoopQueuesDeliverInSequence : Prop :=
  (∀ p f s g q a, Runs (.lqsend p f) s g → (f.w = 1 ∨ Room g [f.d.toNat]) → performedAt s g 3 → (g.slot s.curB).wait = none →
    (mkCtx (.lqsend p f) g s.curB).queueCap s f.sa 0 = .ok q →
    a = (operand s g f.sb (lowestOf (active (.lqsend p f) s g))).toNat →
    (mkCtx (.lqsend p f) g s.curB).spOperand s 64 512 a = none →
    ∀ n, n = sendQueue (dieOf (coreOf s.cur)) q →
    ((s.lq n).stopped = true → YieldsReg (.lqsend p f) s g f.w f.d fun _ => 2)
    ∧ ((s.lq n).stopped = false → 32 ≤ (s.lq n).inFlight.length + (s.lq n).entries.length →
      YieldsReg (.lqsend p f) s g f.w f.d fun _ => 1)
    ∧ ((s.lq n).stopped = false → (s.lq n).inFlight.length + (s.lq n).entries.length < 32 →
      Yields (.lqsend p f) s g (s.setLq n { s.lq n with inFlight := (s.lq n).inFlight ++
        [memGetBytes (s.core (coreOf s.cur)).scratch (spBaseOf s g + a) 512] }) f.w f.d fun _ => 0))
  ∧ (∀ p f s g q a, Runs (.lqrecv p f) s g → (f.w = 1 ∨ Room g [f.d.toNat]) → g.loadsDone = true →
    (mkCtx (.lqrecv p f) g s.curB).queueCap s f.sa 1 = .ok q →
    a = (operand s g f.sb (lowestOf (active (.lqrecv p f) s g))).toNat →
    (mkCtx (.lqrecv p f) g s.curB).spOperand s 64 512 a = none →
    ∀ n, n = recvQueue (dieOf (coreOf s.cur)) q →
    ((s.lq n).stopped = true → YieldsReg (.lqrecv p f) s g f.w f.d fun _ => 2)
    ∧ ((s.lq n).stopped = false → (s.lq n).entries = [] → YieldsReg (.lqrecv p f) s g f.w f.d fun _ => 1)
    ∧ ∀ x xs, (s.lq n).stopped = false → (s.lq n).entries = x :: xs → x.length = 512 →
      ∃ u, Yields (.lqrecv p f) s g u f.w f.d (fun _ => 0) ∧ u.lq n = { s.lq n with entries := xs }
        ∧ memGetBytes (u.core (coreOf s.cur)).scratch (spBaseOf s g + a) 512 = x
        ∧ (∀ b, b < spBaseOf s g + a ∨ spBaseOf s g + a + 512 ≤ b → spByte u b = spByte s b) ∧ u.mem = s.mem)
  ∧ (∀ p f s g q, Runs (.lqpeek p f) s g → (f.w = 1 ∨ Room g [f.d.toNat]) →
    (mkCtx (.lqpeek p f) g s.curB).queueCap s f.sa 1 = .ok q →
    WritesReg (.lqpeek p f) s g f.w f.d fun _ =>
      let x := s.lq (recvQueue (dieOf (coreOf s.cur)) q)
      BitVec.ofNat 32 (x.entries.length + (if x.stopped then 2 ^ 6 else 0) + 2 ^ 8 * x.dup))
  ∧ ∀ s x e es, x = s.lq s.input.which → x.inFlight = e :: es →
    (x.stopped = true → exec .lqEntryArrival s = .next (s.setLq s.input.which { x with inFlight := es }))
    ∧ (x.stopped = false → natOfBytes (e.take 4) = x.e.toNat → exec .lqEntryArrival s
        = .next (s.setLq s.input.which { x with inFlight := es, entries := x.entries ++ [e], e := x.e + 1 }))
    ∧ (x.stopped = false → natOfBytes (e.take 4) ≠ x.e.toNat →
        2 ^ 31 ≤ (natOfBytes (e.take 4) + 2 ^ 32 - x.e.toNat) % 2 ^ 32 → exec .lqEntryArrival s
        = .next (s.setLq s.input.which { x with inFlight := es, dup := min 255 (x.dup + 1) }))

/-! ## Sampling and deadlines -/

/-- spec/07 R235 to R239: HEAPRD writes the list of a heap unit that no task names any more; SDRAW draws or refuses;
PNCOMMIT counts the tokens of a path; DLWAIT ends at its word or its deadline; PFMARK and LEAVEQ.
The model's readings: HEAPRD waits before its address check, and DLWAIT fetches its group again at its deadline (log 21);
the list faults of SDRAW and what PNCOMMIT touches (log 29); PFMARK on a schedule of base 0 has no effect (log 15). -/
def Obligations.SamplingUnitInstructions : Prop :=
  (∀ p f s g h a, Runs (.heaprd p f) s g → (f.w = 1 ∨ Room g [f.d.toNat]) → h = (s.core (coreOf s.cur)).heaps.getD f.sa.toNat {} →
    a = (operand s g f.sb (lowestOf (active (.heaprd p f) s g))).toNat →
    (s.heapBusy (coreOf s.cur) f.sa.toNat = true → WaitsFor (.heaprd p f) s g (.heap f.sa.toNat))
    ∧ (s.heapBusy (coreOf s.cur) f.sa.toNat = false →
      (mkCtx (.heaprd p f) g s.curB).spOperand s 16 (16 + 8 * h.pairs.length) a = none →
      ∃ u, PutsReg (.heaprd p f) s g u f.w f.d (fun _ => BitVec.ofNat 32 (h.pairs.length + 2 ^ 16 * h.report)) ∧ u.mem = s.mem
        ∧ memGetBytes (u.core (coreOf s.cur)).scratch (spBaseOf s g + a) (16 + 8 * h.pairs.length) = heapList h h.report
        ∧ ∀ b, b < spBaseOf s g + a ∨ spBaseOf s g + a + 16 + 8 * h.pairs.length ≤ b → spByte u b = spByte s b))
  ∧ (∀ p f s g a q n u x, Runs (.sdraw p f) s g → (f.w = 1 ∨ Room g [f.d.toNat]) →
    a = (operand s g f.sa (lowestOf (active (.sdraw p f) s g))).toNat → q = (regLane g f.d (lowestOf (active (.sdraw p f) s g))).toNat →
    (mkCtx (.sdraw p f) g s.curB).spOperand s 16 16 a = none → (mkCtx (.sdraw p f) g s.curB).spOperand s 16 16 q = none →
    n = memNat (s.core (coreOf s.cur)).scratch (spBaseOf s g + a) 4 →
    u = operand s g f.sb (lowestOf (active (.sdraw p f) s g)) →
    x = drawParams (memGetBytes (s.core (coreOf s.cur)).scratch (spBaseOf s g + q) 16) →
    (drawRefused n u x.temp = true → WritesReg (.sdraw p f) s g f.w f.d fun _ => 0xFFFFFFFF)
    ∧ (drawRefused n u x.temp = false → (mkCtx (.sdraw p f) g s.curB).spOperand s 16 (16 + 8 * n) a = none →
      WritesReg (.sdraw p f) s g f.w f.d fun _ => BitVec.ofNat 32 (draw ((List.range n).map fun i =>
        (BitVec.ofNat 32 (memNat (s.core (coreOf s.cur)).scratch (spBaseOf s g + a + 16 + 8 * i) 4),
          memNat (s.core (coreOf s.cur)).scratch (spBaseOf s g + a + 20 + 8 * i) 4)) u x)))
  ∧ (∀ p f s g a b, Runs (.pncommit p f) s g → (f.w = 1 ∨ Room g [f.d.toNat]) →
    a = (operand s g f.sa (lowestOf (active (.pncommit p f) s g))).toNat →
    b = (operand s g f.sb (lowestOf (active (.pncommit p f) s g))).toNat →
    (mkCtx (.pncommit p f) g s.curB).spOperand s 8 8 a = none → (mkCtx (.pncommit p f) g s.curB).spOperand s 4 4 b = none →
    ((1024 < memNat (s.core (coreOf s.cur)).scratch (spBaseOf s g + a) 4
        ∨ 63 < memNat (s.core (coreOf s.cur)).scratch (spBaseOf s g + b) 4) →
      YieldsReg (.pncommit p f) s g f.w f.d fun _ => 2)
    ∧ ∀ es ts r, baseList (fun o n => memGetBytes (s.core (coreOf s.cur)).scratch (spBaseOf s g + o) n) a = some es →
      pathList (fun o n => memGetBytes (s.core (coreOf s.cur)).scratch (spBaseOf s g + o) n) b = some ts →
      r = ts.foldl (fun t x => countToken x t) es → r.length ≤ 1024 →
      (mkCtx (.pncommit p f) g s.curB).spOperand s 8 (8 + 8 * es.length) a = none →
      (mkCtx (.pncommit p f) g s.curB).spOperand s 4 (4 + 4 * ts.length) b = none →
      (mkCtx (.pncommit p f) g s.curB).spOperand s 8 (8 + 8 * r.length) a = none →
      ∃ u, Yields (.pncommit p f) s g u f.w f.d (fun _ => 0) ∧ u.mem = s.mem
        ∧ memNat (u.core (coreOf s.cur)).scratch (spBaseOf s g + a) 4 = r.length
        ∧ (∀ n e, r[n]? = some e → e.1 < 2 ^ 32 → e.2 < 2 ^ 32 →
          memNat (u.core (coreOf s.cur)).scratch (spBaseOf s g + a + 8 + 8 * n) 4 = e.1
          ∧ memNat (u.core (coreOf s.cur)).scratch (spBaseOf s g + a + 12 + 8 * n) 4 = e.2)
        ∧ ∀ c, c < spBaseOf s g + a ∨ spBaseOf s g + a + 8 + 8 * r.length ≤ c → spByte u c = spByte s c)
  ∧ (∀ p f s g u v, Runs (.dlwait p f) s g → Room g [f.d.toNat, f.d.toNat + 1] → g.loadsDone = true →
    dlwaitRead (mkCtx (.dlwait p f) g s.curB) s (pairLane64 g f.sa (lowestOf (active (.dlwait p f) s g))).toNat = (u, .ok v) →
    ((pairLane64 g f.sb (lowestOf (active (.dlwait p f) s g))).toNat ≤ v → YieldsPair (.dlwait p f) s g u f.d (fun _ => 0) fun _ => 0)
    ∧ (v < (pairLane64 g f.sb (lowestOf (active (.dlwait p f) s g))).toNat →
      (pairLane64 g f.d (lowestOf (active (.dlwait p f) s g))).toNat ≤ u.hub.now.toNat →
      YieldsPair (.dlwait p f) s g u f.d (fun _ => 1) fun _ => 0)
    ∧ (v < (pairLane64 g f.sb (lowestOf (active (.dlwait p f) s g))).toNat →
      u.hub.now.toNat < (pairLane64 g f.d (lowestOf (active (.dlwait p f) s g))).toNat → (g.slot s.curB).pages = none →
      ∃ t h, exec (.dlwait p f) s = .next t ∧ t.gust? s.cur = some h ∧ OnlyLooked s t
        ∧ Arrives (.dlwait p f) s g h (.dlwait (pairLane64 g f.sa (lowestOf (active (.dlwait p f) s g))).toNat
            (pairLane64 g f.sb (lowestOf (active (.dlwait p f) s g))).toNat
            (pairLane64 g f.d (lowestOf (active (.dlwait p f) s g))).toNat)))
  ∧ (∀ s k g b va x n u p f, s.gust? k = some g → (g.slot b).wait = some (.dlwait va x n) → n ≤ s.hub.now.toNat →
    s.ready k g b = true → s.fetchInstr k b = (u, .dlwait p f) →
    exec (.dlwaitDeadline k b) s = exec (.dlwait p f) { u with cur := k, curB := b }
      ∧ ∃ t, exec (.dlwaitDeadline k b) s = .next t)
  ∧ (∀ p f s g q k layer, Issues (.pfmark p f) s g → NoDrift (.pfmark p f) s g → StaysApart s g (nextPc (.pfmark p f) s g) →
    q = (s.frontOf g).part → k = (operand s g f.sb (lowestOf (active (.pfmark p f) s g))).toNat % 8 →
    layer = (operand s g f.sa (lowestOf (active (.pfmark p f) s g))).toNat % 256 →
    (((s.part q).pfBase.getD k 0 = 0 ∨ layer = (s.part q).pfLast.getD k 256) → Transfers (.pfmark p f) s g (nextPc (.pfmark p f) s g))
    ∧ ∀ es s1, q < s.parts.length → (s.part q).pfLast.length = 8 →
      (s.part q).pfBase.getD k 0 ≠ 0 → (s.part q).pfLast.getD k 256 ≠ layer →
      s.pfWalk q ((s.part q).pfAs.getD k 0).toNat ((s.part q).pfBase.getD k 0).toNat 65536 0 0 = (s1, .ok es) →
      ∃ u, YieldsNothing (.pfmark p f) s g u ∧ (u.part q).pfLast.getD k 256 = layer
        ∧ u.hub.pfRecs.length = s.hub.pfRecs.length + (es.filter fun e => e.layer == layer).length)
  ∧ (∀ p f s g, (Instr.pfmark p f).wf = true → s.gust? s.cur = some g → (acceptedSet s).getLsbD 6 = false →
    Traps (.pfmark p f) s s (plainTrap s g 0x01 7))
  ∧ ∀ p f s g, ReadyReg (.leaveq p f) s g f.w f.d → WritesReg (.leaveq p f) s g f.w f.d fun _ => BitVec.ofNat 32
      (min 255 ((s.die (dieOf (coreOf s.cur))).leave.filter fun r => r.core == coreOf s.cur && !r.granted && s.leaveLive r).length
        + if (s.die (dieOf (coreOf s.cur))).grantedAll then 2 ^ 8 else 0)

/-! ## System instructions -/

/-- spec/05 R141 to R147, spec/01 R25, R36, R39: MFS reads the system registers, MTS writes them, NOP and YIELD pass, WBASE
moves the window within the allocation, FLCLR clears flags, TFENCE passes without an enabled flag. -/
def Obligations.SystemRegistersAndFlags : Prop :=
  (∀ p f s g, Issues (.mfs p f) s g → NoDrift (.mfs p f) s g → StaysApart s g (nextPc (.mfs p f) s g) →
    (Room g [f.d.toNat] → (∀ l, (sysWord s g f.off.toNat l).isSome = true) →
      WritesReg (.mfs p f) s g 0 f.d fun l => (sysWord s g f.off.toNat l).getD 0)
    ∧ (Room g [f.d.toNat, f.d.toNat + 1] → (∀ l, (sysDWord g f.off.toNat l).isSome = true) →
      WritesPair (.mfs p f) s g f.d fun l => (sysDWord g f.off.toNat l).getD 0)
    ∧ (Room g [f.d.toNat, f.d.toNat + 1] → f.off = 0x00A → s.hub.now.toNat < 2 ^ 63 →
      ∃ t h, Completes (.mfs p f) s g (nextPc (.mfs p f) s g) t h
        ∧ t = { s with gusts := t.gusts, free := t.free, hub := { s.hub with now := t.hub.now } }
        ∧ s.hub.now.toNat ≤ t.hub.now.toNat ∧ t.hub.now.toNat / 1000 = s.hub.now.toNat / 1000
        ∧ Shifted s g h ∧ GustKept (.mfs p f) s g h ∧ RegsKept g h [f.d.toNat, f.d.toNat + 1]
        ∧ ∀ l, inMask g.lmask l → inMask (active (.mfs p f) s g) l → pairLane64 h f.d l = t.hub.now))
  ∧ (∀ p f s g, Issues (.mts p f) s g → NoDrift (.mts p f) s g → StaysApart s g (nextPc (.mts p f) s g) →
    (active (.mts p f) s g = 0 → Passes (.mts p f) s g)
    ∧ (active (.mts p f) s g ≠ 0 → ∃ t h, Completes (.mts p f) s g (nextPc (.mts p f) s g) t h ∧ OnlyGust s t ∧ Shifted s g h
      ∧ (∀ e ∈ mtsRows (operand s g f.sa (lowestOf (active (.mts p f) s g)))
            (pairLane64 g f.sa (lowestOf (active (.mts p f) s g))), f.off.toNat = e.1 →
          h = { e.2 g with a := h.a, b := h.b, replay := replayAfter s g })
      ∧ (f.off = 0x008 → h = { g with a := h.a, b := h.b, replay := replayAfter s g, fNX := h.fNX, fUF := h.fUF, fOF := h.fOF,
                                      fDZ := h.fDZ, fNV := h.fNV }
          ∧ ∀ l, inMask g.lmask l → [h.fNX, h.fUF, h.fOF, h.fDZ, h.fNV].map (fun m => inMask m l)
              = if inMask (active (.mts p f) s g) l then (List.range 5).map fun n => (operand s g f.sa l).getLsbD n
                else [g.fNX, g.fUF, g.fOF, g.fDZ, g.fNV].map fun m => inMask m l)
      ∧ (f.off = 0x012 → h = { g with a := h.a, b := h.b, replay := replayAfter s g, xaddr := h.xaddr }
          ∧ ∀ l, l < 32 → h.xaddr.getD l 0 = if inMask (active (.mts p f) s g) l then pairLane64 g f.sa l else g.xaddr.getD l 0)
      ∧ (f.off = 0x005 → ∀ n, n = (operand s g f.sa (lowestOf (active (.mts p f) s g))).toNat % 1024 →
          h = { g with a := h.a, b := h.b, replay := replayAfter s g, gbud := h.gbud, gbudRefused := h.gbudRefused }
          ∧ (n < g.gcnt → h.gbud = g.gbud)
          ∧ (g.gcnt ≤ n → g.alloc < n → h.gbud = g.gbud ∧ h.gbudRefused = true)
          ∧ (g.gcnt ≤ n → n ≤ g.gbud → n ≤ g.alloc →
              s.committed (coreOf s.cur) (if inActive s.cur then 0 else 1) ≤ bankBytes → h.gbud = n ∧ h.gbudRefused = false))))
  ∧ (∀ p f s g, Issues (.nop p f) s g → StaysApart s g (nextPc (.nop p f) s g) → Passes (.nop p f) s g)
  ∧ (∀ p f s g, Issues (.yield p f) s g → StaysApart s g (nextPc (.yield p f) s g) →
    ∃ t h, Completes (.yield p f) s g (nextPc (.yield p f) s g) t h ∧ NoLatches s h
      ∧ SlotsOnly (.yield p f) s g h ∧ t = { s with gusts := t.gusts, cores := t.cores }
      ∧ (∀ c, t.core c = { s.core c with quads := (t.core c).quads }) ∧ ∀ k, k ≠ s.cur → t.gust? k = s.gust? k)
  ∧ (∀ p f s g n, Issues (.wbase p f) s g → NoDrift (.wbase p f) s g →
    n = (operand s g f.sa (lowestOf (active (.wbase p f) s g))).toNat →
    (n % 8 = 0 → n + 8 ≤ g.alloc → StaysApart s g (nextPc (.wbase p f) s g) →
      ∃ t h, Completes (.wbase p f) s g (nextPc (.wbase p f) s g) t h ∧ OnlyGust s t ∧ Shifted s g h
        ∧ h = { g with a := h.a, b := h.b, replay := replayAfter s g, wb := n })
    ∧ ((n % 8 ≠ 0 ∨ g.alloc < n + 8) → Traps (.wbase p f) s s (plainTrap s g 0x02 2)))
  ∧ (∀ p f s g, Issues (.flclr p f) s g → StaysApart s g (nextPc (.flclr p f) s g) →
    ∃ t h, Completes (.flclr p f) s g (nextPc (.flclr p f) s g) t h ∧ OnlyGust s t ∧ Shifted s g h
      ∧ h = { g with a := h.a, b := h.b, replay := replayAfter s g, fNX := g.fNX &&& ~~~(active (.flclr p f) s g),
                     fUF := g.fUF &&& ~~~(active (.flclr p f) s g), fOF := g.fOF &&& ~~~(active (.flclr p f) s g),
                     fDZ := g.fDZ &&& ~~~(active (.flclr p f) s g), fNV := g.fNV &&& ~~~(active (.flclr p f) s g) })
  ∧ ∀ p f s g, Issues (.tfence p f) s g → StaysApart s g (nextPc (.tfence p f) s g) →
    (g.handler ≠ 0 ∨ g.ten = 0) → Passes (.tfence p f) s g

/-- spec/05 R146, R148, spec/03 R89, R90, spec/01 R25: TRAP, SVC, the all-zero and all-one words (prefixed, a prefix misuse), words
without an instruction, words that cannot be fetched and TFENCE with an enabled flag set trap with their cause, and enter the handler at once where
nothing holds the entry; a group whose result has no room traps; BKPT passes unless HALTEN is set, and halts the gust at its
group then. (That a gust released from a BKPT passes it is the model's reading, log 18.) -/
def Obligations.InstructionsThatTrap : Prop :=
  (∀ p f s g, Issues (.trap p f) s g → Traps (.trap p f) s s (plainTrap s g 0x11 f.sa.toNat))
  ∧ (∀ p f s g, Issues (.svc p f) s g → Traps (.svc p f) s s (plainTrap s g 0x12 f.sa.toNat))
  ∧ (∀ p s g, s.gust? s.cur = some g → Traps (.illz p) s s (plainTrap s g 0x01 (if p = {} then 8 else 4)))
  ∧ (∀ p s g, s.gust? s.cur = some g → Traps (.ill p) s s (plainTrap s g 0x01 (if p = {} then 9 else 4)))
  ∧ (∀ ws cause s g, s.gust? s.cur = some g → illegalCause (.illegalWord ws cause) s g = some cause →
    Traps (.illegalWord ws cause) s s (plainTrap s g 0x01 cause))
  ∧ (∀ code cause va s g, s.gust? s.cur = some g → Traps (.fetchFault code cause va) s s
    { plainTrap s g code cause with xaddr := if code = 0x01 then none else some (List.replicate 32 va) })
  ∧ (∀ i s g code cause xa, softTrap i = some (code, cause, xa) → s.gust? s.cur = some g →
    (((∃ p f, i = .trap p f) ∨ ∃ p f, i = .svc p f) → preFault i s g s.curB = none) → EntersNow s g s.cur s.curB code →
    ∃ h, exec i s = .next (s.setGust s.cur h) ∧ Recorded g h s.curB { plainTrap s g code cause with xaddr := xa }
      ∧ InHandler s g h s.curB { plainTrap s g code cause with xaddr := xa })
  ∧ (∀ i s g code cause, i.wf = true → s.gust? s.cur = some g → preFault i s g s.curB = some (code, cause) →
    Traps i s s (plainTrap s g code cause))
  ∧ (∀ ws s g cause, s.gust? s.cur = some g → (decodeGroup ws).instr.wordCause = some cause →
    Traps (decodeGroup ws).instr s s (plainTrap s g 0x01 cause))
  ∧ (∀ i s g ds, writesAlone i ds → Issues i s g → NoDrift i s g → active i s g ≠ 0 →
    (active i s g ≠ g.lmask ∨ fullTag i s g = 0) → NoRoom g ds → Traps i s s (plainTrap s g 0x04 0))
  ∧ (∀ p f s g m, Issues (.tfence p f) s g → g.handler = 0 →
    m = maskOf (fun l => inMask (g.slot s.curB).mask l
      && ((inMask g.fNX l && g.ten.getLsbD 0) || (inMask g.fUF l && g.ten.getLsbD 1) || (inMask g.fOF l && g.ten.getLsbD 2)
        || (inMask g.fDZ l && g.ten.getLsbD 3) || (inMask g.fNV l && g.ten.getLsbD 4))) → m ≠ 0 →
    Traps (.tfence p f) s s { code := 0x10, cause := enabledSet g m, xmask := m })
  ∧ ∀ p f s g, Issues (.bkpt p f) s g →
    ((s.part (s.frontOf g).part).haltEn = false → g.bkptAt ≠ some (s.curB, groupPc s g) →
      StaysApart s g (nextPc (.bkpt p f) s g) → Passes (.bkpt p f) s g)
    ∧ ((s.part (s.frontOf g).part).haltEn = true → g.bkptAt ≠ some (s.curB, groupPc s g) →
      ∃ t, exec (.bkpt p f) s = .next t
        ∧ t.gust? s.cur = some { g with halted := true, bkptAt := some (s.curB, groupPc s g),
                                        xcause := BitVec.ofNat 32 (g.xcause.toNat / 2 ^ 16 * 2 ^ 16 + f.sa.toNat) }
        ∧ t.dbg.bkpt = true ∧ t.dbg.evFront = (s.frontOf g).frontId
        ∧ t = { s with gusts := t.gusts, dbg := t.dbg } ∧ ∀ k, k ≠ s.cur → t.gust? k = s.gust? k)
    ∧ (g.bkptAt = some (s.curB, groupPc s g) → StaysApart s g (nextPc (.bkpt p f) s g) →
      ∃ t h, Completes (.bkpt p f) s g (nextPc (.bkpt p f) s g) t h ∧ OnlyGust s t
        ∧ h = { g with a := h.a, b := h.b, replay := replayAfter s g, bkptAt := none })

/-- spec/13 R357, R361 to R364, R366: taking a fault saves the PC, the cause, the lanes and their addresses, empties the
latches and enters the handler of its code; a gust that is halted, out of the active bank or at the end of its turn enters it
later; without a vector, or inside a handler, the front ends.
The model's readings are those of log 18 and, for the class of a nested fault, of log 40. -/
def Obligations.TrapEntrySavesAndTransfers : Prop :=
  (∀ (s : State) k g b r, s.gust? k = some g → EntersNow s g k b r.code →
    ∃ h, ((g.slot b).awaits = false → exec (.trapEntry k b r) s = .next (s.setGust k h)) ∧ s.takeFault k b r = s.setGust k h
      ∧ Recorded g h b r ∧ InHandler s g h b r)
  ∧ (∀ (s : State) k g b r, s.gust? k = some g → (g.slot b).awaits = true →
    exec (.trapEntry k b r) s = .refused .noSuchEvent)
  ∧ (∀ (s : State) k g b r, s.gust? k = some g → (g.slot b).live = true → g.handler = 0 → g.pending = 0 →
    (g.halted = true ∨ s.cut = true ∨ inActive k = false) → vectorOf s g (kindOf r.code) ≠ 0 →
    ∃ h, (resident k = true → (g.slot b).awaits = false → exec (.trapEntry k b r) s = .next (s.setGust k h))
      ∧ s.takeFault k b r = s.setGust k h
      ∧ Recorded g h b r ∧ h.pending = kindOf r.code ∧ h.handler = 0
      ∧ (h.slot b).pc = (g.slot b).pc ∧ (h.slot b).mask = (g.slot b).mask)
  ∧ (∀ (s : State) k g t, s.gust? k = some g → g.pending ≠ 0 → inActive k = true → g.halted = false ∨ g.stepOnce = true →
    g.trapRet = some t → (g.slot t.slotB).wait = none → s.resuming k g = false →
    ∃ h, exec (.pendingEntryComplete k) s = .next { s.setGust k h with
          dbg := if g.stepOnce = true ∧ s.dbg.cmd = 3 then { s.dbg with st := 2, reason := 0, cmd := 0 } else s.dbg }
      ∧ h.halted = g.halted ∧ h.stepOnce = false ∧ h.handler = g.pending ∧ h.pending = 0
      ∧ (h.slot t.slotB).pc = vectorOf s g g.pending ∧ (h.slot t.slotB).mask = (g.xmask ||| g.xother)
      ∧ (h.slot t.slotB).join = 0 ∧ h.trapRet = g.trapRet ∧ h.xpc = g.xpc)
  ∧ ∀ (s : State) k g b r fr, s.gust? k = some g → s.front? g.front = some fr → fr.ended = false →
    (g.handler ≠ 0 ∨ g.pending ≠ 0 ∨ vectorOf s g (kindOf r.code) = 0) →
    ((s.takeFault k b r).gusts.all fun e => e.2.front != g.front) = true
      ∧ ∃ fr2, (s.takeFault k b r).front? g.front = some fr2 ∧ fr2.ended = true

/-- spec/05 R149, R150, spec/13 R365: TRET gives the trapped slot its mask and join back, at the trapping group again (SA = 1, a
replay) or at the group after it (SA = 0), and the handler is left; a wait at a barrier that the trap has interrupted is taken
up again (log 68).
The model's readings: an XPC that is misaligned or does not fit traps at the TRET, inside the handler (log 46), and the replay
keeps the XDONE that TRET found (log 18). -/
def Obligations.ReturnFromAHandler : Prop :=
  ∀ p f s g t, Issues (.tret p f) s g → g.trapRet = some t → t.slotB = s.curB → t.mask ≠ 0 → g.replay = [] →
    (∀ w n, t.kept = some ⟨some w, n⟩ → g.xpc = t.pc.zeroExtend 64 → t.pc.toNat % 4 = 0 → f.sa = 1 →
      (t.join = 0 ∨ t.pc ≠ t.join) →
      ∃ u h, exec (.tret p f) s = .next u ∧ u.gust? s.cur = some h ∧ OnlyGust s u ∧ (h.slot s.curB).pc = t.pc
        ∧ (h.slot s.curB).mask = t.mask ∧ (h.slot s.curB).join = t.join ∧ (h.slot s.curB).wait = some w
        ∧ (h.slot s.curB).waitNext = n ∧ h.handler = 0 ∧ h.trapRet = none ∧ h.replay = [] ∧ h.regs = g.regs) ∧
    (t.kept = none ∨ g.xpc ≠ t.pc.zeroExtend 64 →
    (g.xpc.toNat % 4 ≠ 0 → Traps (.tret p f) s s (plainTrap s g 0x06 4))
    ∧ (g.xpc.toNat % 4 = 0 → 2 ^ 56 ≤ g.xpc.toNat → Traps (.tret p f) s s (plainTrap s g 0x08 1))
    ∧ (g.xpc.toNat % 4 = 0 → g.xpc.toNat < 2 ^ 56 → f.sa = 1 →
      (t.join = 0 ∨ g.xpc.truncate 56 ≠ t.join) →
      ∃ u h, exec (.tret p f) s = .next u ∧ u.gust? s.cur = some h ∧ OnlyGust s u ∧ (h.slot s.curB).pc = g.xpc.truncate 56
        ∧ (h.slot s.curB).mask = t.mask ∧ (h.slot s.curB).join = t.join ∧ (h.slot s.curB).wait = none
        ∧ h.handler = 0 ∧ h.frozen = false ∧ h.trapRet = none ∧ h.replay = [(s.curB, g.xdone)] ∧ h.regs = g.regs ∧ h.xmask = g.xmask
        ∧ (h.slot (!s.curB)).pc = (g.slot (!s.curB)).pc ∧ (h.slot (!s.curB)).mask = (g.slot (!s.curB)).mask
        ∧ ∀ b n, 1 ≤ n → n ≤ 8 → (h.slot b).latch n = .empty 1)
    ∧ ∀ s1 ws lacks, g.xpc.toNat % 4 = 0 → g.xpc.toNat < 2 ^ 56 → f.sa = 0 →
      s.fetchGroup s.cur s.curB (g.xpc.truncate 56) 3 [] false = (s1, .ok (ws, lacks)) →
      (t.join = 0 ∨ g.xpc.truncate 56 + BitVec.ofNat 56 (4 * ws.length) ≠ t.join) →
      ∃ u h, exec (.tret p f) s = .next u ∧ u.gust? s.cur = some h ∧ u.mem = s1.mem
        ∧ (h.slot s.curB).pc = g.xpc.truncate 56 + BitVec.ofNat 56 (4 * ws.length)
        ∧ (h.slot s.curB).mask = t.mask ∧ (h.slot s.curB).join = t.join ∧ h.handler = 0 ∧ h.trapRet = none ∧ h.replay = [])

/-- spec/06 R153, R176, spec/12 R340: the replies of a blocking access write its registers and end its wait; a posted
operation that has completed is no longer outstanding; an entry of the write-combining buffer that is old is sent.
A reply whose destination holds a drift record waits for the symbol with its values (R24), and requests of a line that were
sent before are served before (R335). A reply that no one waits for is dropped and counted or, when none was lost, refused
(log 5, NOTES, Stops); a remote load is performed as its reply is taken, or before a later request of its line (log 41), and the
order of the entries of one line is that of log 41. -/
def Obligations.RepliesAndCompletions : Prop :=
  (∀ s k g b r t1 r1 v, s.gust? k = some g → (g.slot b).wait = some (.reply r) → r.held = false → r.faulted = false →
    r.drains = false → g.unitOps = [] → ServedNext s r t1 r1 v → (r.only (~~~0)).overBudget g = false → v.overBudget g = false →
    v.drift g = none → v.capQuad = none → v.nv = 0 →
    (g.slot b).mask ≠ 0 → ((g.slot b).join = 0 ∨ (g.slot b).waitNext ≠ (g.slot b).join) →
    ∃ t h, exec (.loadReply k b) s = .next t ∧ t.gust? k = some h ∧ t = { t1 with gusts := t.gusts }
      ∧ (∀ j, j ≠ k → t.gust? j = s.gust? j) ∧ (h.slot b).pc = (g.slot b).waitNext ∧ (h.slot b).wait = none
      ∧ (h.slot b).mask = (g.slot b).mask ∧ h.wb = g.wb ∧ h.handler = g.handler
      ∧ h.xdone = (match g.replayOf b with | some d => d ||| v.done | none => g.xdone)
      ∧ (∀ n, (∀ w ∈ v.writes, w.field ≠ n) → (h.seenBy v.window).reg n = (g.seenBy v.window).reg n)
      ∧ ∀ w, v.writes = [w] → w.uniform = false → ∀ l, inMask g.lmask l → h.lane ((h.seenBy v.window).reg w.field) l
          = if inMask w.mask l then laneGet w.vals l else g.lane ((g.seenBy v.window).reg w.field) l)
  ∧ (∀ s k g b r t1 r1 v y, s.gust? k = some g → (g.slot b).wait = some (.reply r) → r.held = false → r.faulted = false →
    ServedNext s r t1 r1 v → (r.only (~~~0)).overBudget g = false → v.drift g = some y →
    exec (.loadReply k b) s = .next (t1.setGust k (g.setSlot b { g.slot b with wait := some (.landed v y) })))
  ∧ (∀ s k g b r, s.gust? k = some g → (g.slot b).wait = some (.reply r) → r.held = true →
    exec (.loadReply k b) s = .refused .noSuchEvent)
  ∧ (∀ s k b, (∀ g, s.gust? k = some g → (g.slot b).wait = none) → exec (.loadReply k b) s = s.staleResponse)
  ∧ (∀ s k g q, s.gust? k = some g → q ∈ g.posted → q.lines = [] → (∀ x ∈ g.posted, x.id = q.id → x = q) →
    exec (.postedCompletion k q.id) s = .next (s.setGust k { g with posted := g.posted.filter fun x => x.id != q.id }))
  ∧ (∀ s k g q ps, s.gust? k = none → s.fronts = ps → (∀ f ∈ ps, f.2.posted = [] ∨ f.2.posted = [q]) → q.lines = [] →
    (ps.filter fun f => !f.2.posted.isEmpty) = [g] →
    ∃ t, exec (.postedCompletion k q.id) s = .next t ∧ t = { s with fronts := t.fronts }
      ∧ t.fronts = ps.map fun f => (f.1, { f.2 with posted := [] }))
  ∧ ∀ s core ix e, (s.core core).wcb[ix]? = some e → e.time + 250 * (s.part e.part).wcAge.toNat ≤ s.hub.now.toNat →
    (∀ x ∈ (s.core core).wcb.take ix, x.line ≠ e.line) → NoUnitWaits s e →
    s.heldFor e.peer = true ∨ s.outOn e.line s.hub.nextReq = [] →
    ∃ t q, exec (.wcAgeDrain core ix) s = .next t ∧ (t.core core).wcb = (s.core core).wcb.eraseIdx ix
      ∧ (∀ c, c ≠ core → t.core c = s.core c) ∧ t.gusts = s.gusts ∧ t.hub.requests = s.hub.requests ++ [q]
      ∧ q.id = s.hub.nextReq ∧ q.peer = e.peer ∧ q.core = core ∧ q.part = e.part ∧ q.posters = e.posters
      ∧ q.sentAt = s.hub.now.toNat
      ∧ (s.heldFor e.peer = true → q.packet = some (.entry e) ∧ t.mem = s.mem)
      ∧ (s.heldFor e.peer = false → q.packet = none)
      ∧ (s.heldFor e.peer = false → e.atomic = none → (∀ b ∈ e.bytes, b.1 < 128) →
          (∀ a, a < 128 * e.addr ∨ 128 * e.addr + 128 ≤ a → memGet t.mem a = memGet s.mem a)
          ∧ (∀ b, e.bytes = [b] → hubOnly (localPa (e.addr * 128 + b.1)) = false →
              memGet t.mem (128 * e.addr + b.1) = b.2))

/-! ## Commands -/

/-- spec/07 R194, R195, R200, R202, R209, R212, spec/11 R326 to R328, spec/14 R395: commands start in the order of their
queue and with leave where they need it; matrix tasks are issued unless an earlier task holds them back; a held vocabulary
task is released; completion moves the timeline and frees the scoreboard.
A step that has not come about is refused (log 5, NOTES, Stops); field checks and the record of a type that the context does
not take are the readings of log 24, which engine number a task takes that of log 55, the counting of the weighted round robin
that of log 62. -/
def Obligations.CommandsStartAndComplete : Prop :=
  (∀ s key e fr c q j, Heads s key e fr c q → j = { key := key, eng := e, fr := fr, cmd := c } → e.cls ≠ 0 →
    s.dies.length = 4 → j.fr.part < 16 →
    (s.typeOk e.cls j.type = false → ∃ t x, exec (.commandStart key) s = .next t ∧ t.eng? key = some x ∧ x.faulted = true
        ∧ x.queue = [] ∧ x.timeline = e.timeline ∧ FaultRecord s t j 0x01 0x0010)
    ∧ (s.typeOk e.cls j.type = true → s.leaveCost j = 0 →
        ∃ t, exec (.commandStart key) s = .next t ∧ t = { s with engs := t.engs } ∧ Begins s t key e c q)
    ∧ (s.typeOk e.cls j.type = true → s.leaveCost j ≠ 0 → s.leaveOf j.die key c.num = none →
        ∃ t, exec (.commandStart key) s = .next t
          ∧ LeaveBecomes s t j.die ((s.die j.die).leave ++ [requestOf j (s.leaveCost j)]))
    ∧ (s.typeOk e.cls j.type = true → s.leaveCost j ≠ 0 → s.leaveOf j.die key c.num = some false →
        exec (.commandStart key) s = .refused .noSuchEvent)
    ∧ (s.typeOk e.cls j.type = true → s.leaveCost j ≠ 0 → s.leaveOf j.die key c.num = some true →
        ∃ t, exec (.commandStart key) s = .next t ∧ t = { s with engs := t.engs, dies := t.dies } ∧ Begins s t key e c q
          ∧ t.leaveOf j.die key c.num = none))
  ∧ (∀ s key e num st, s.eng? key = some e → e.run? num = some st → st.done = true → num ≠ 0 →
    ∃ t x, exec (.commandComplete key num) s = .next t ∧ t = { s with engs := t.engs, cores := t.cores } ∧ t.eng? key = some x
      ∧ x = { e with started := e.started.filter fun y => y.cmd.num != num, timeline := x.timeline, completed := x.completed }
      ∧ e.timeline ≤ x.timeline ∧ (∀ n, e.timeline < n → n ≤ x.timeline → n = num ∨ n ∈ e.completed)
      ∧ x.timeline + 1 ≠ num ∧ x.timeline + 1 ∉ e.completed
      ∧ ∀ c y, tabGet? s.cores c = some y → t.core c = { y with
          rsb := y.rsb.filter fun r => !(r.eng == key && r.num == num)
          tasks := y.tasks.filter fun k => !(k.1 == key && k.2 == num) })
  ∧ (∀ s core j, (s.core core).requeue = [] → s.coreTasks core = [(j, false)] → s.headJob? j.key = some j → s.typeOk 0 j.type = true → s.dies.length = 4 →
    j.eng.cls = 0 →
    (s.maskHeld j = true → exec (.taskIssue core) s = .refused .noSuchEvent)
    ∧ (s.maskHeld j = false → s.leaveOf j.die j.key j.cmd.num = none → j.cmd.core = core →
      ∃ t, exec (.taskIssue core) s = .next t
        ∧ LeaveBecomes s t j.die ((s.die j.die).leave ++ [requestOf j (s.leaveCost j)]))
    ∧ (s.maskHeld j = false → s.leaveOf j.die j.key j.cmd.num = some true →
      ∃ t, exec (.taskIssue core) s = .next t ∧ t = { s with engs := t.engs, dies := t.dies }
        ∧ t.eng? j.key = some { j.eng with queue := j.eng.queue.filter fun c => c.num != j.cmd.num,
                                           started := j.eng.started ++ [{ cmd := j.cmd }] }))
  ∧ (∀ s core i j, (s.core core).requeue = [] → s.coreTasks core = [(i, true), (j, false)] → s.headJob? j.key = some j → s.typeOk 0 j.type = true →
    s.maskHeld j = false → s.leaveOf j.die j.key j.cmd.num = some true → j.eng.cls = 0 →
    ((s.hazardOf i).conflicts (s.hazardOf j) = true → exec (.taskIssue core) s = .refused .noSuchEvent)
    ∧ ((s.hazardOf i).conflicts (s.hazardOf j) = false →
      ∃ t, exec (.taskIssue core) s = .next t
        ∧ t.eng? j.key = some { j.eng with queue := j.eng.queue.filter fun c => c.num != j.cmd.num,
                                           started := j.eng.started ++ [{ cmd := j.cmd, engine := if i.engine = 0 then 1 else 0 }] }))
  ∧ (∀ s core, (s.core core).requeue = [] → (∀ n, n < enginesOf core → ∃ x ∈ s.coreTasks core, x.2 = true ∧ x.1.engine = n) →
    (∀ x ∈ s.coreTasks core, s.typeOk 0 x.1.type = true) → exec (.taskIssue core) s = .refused .noSuchEvent)
  ∧ (∀ (s : State) die r q, s.dies.length = 4 → die < 4 → q = s.input.which →
    ((s.leaveWaiting die).find? fun x => x.part == q) = some r →
    ((r.cost ≤ (s.die die).budget - (s.die die).spent ∨ (s.die die).spent = 0) → s.nextServed die = some q →
      ∃ t, exec (.leaveGrant die) s = .next t ∧ t = { s with dies := t.dies }
        ∧ t.die die = { s.die die with
            spent := (s.die die).spent + r.cost
            served := q
            servedTimes := (if (s.die die).servedTimes < s.leaveShare q ∧ q = (s.die die).served then (s.die die).servedTimes + 1
              else 1)
            leave := (s.die die).leave.map fun x => if x = r then { x with granted := true } else x }
        ∧ ∀ d, d ≠ die → t.die d = s.die d)
    ∧ ((s.die die).budget - (s.die die).spent < r.cost → (s.die die).spent ≠ 0 →
      exec (.leaveGrant die) s = .refused .noSuchEvent)
    ∧ ((s.die die).servedTimes < s.leaveShare (s.die die).served → (s.grantable die (s.die die).served).isSome = true →
      q ≠ (s.die die).served → exec (.leaveGrant die) s = .refused .noSuchEvent)
    ∧ (s.leaveShare q = 0 → (∃ p, p < 16 ∧ s.leaveShare p ≠ 0 ∧ (s.grantable die p).isSome = true) →
      exec (.leaveGrant die) s = .refused .noSuchEvent)
    ∧ (q < 16 → (∀ p, p ≠ q → s.grantable die p = none) → (s.grantable die q).isSome = true → s.nextServed die = some q))
  ∧ ∀ s key e fr c q j, Heads s key e fr c q → j = { key := key, eng := e, fr := fr, cmd := c } → e.cls = 0 →
    s.maskHeld j = true →
    (∀ u, s.maskReached j = (u, .ok true) →
      exec (.maskHoldRelease key c.num) s = .next (u.setEng key { e with queue := { c with mask := some 0 } :: q }))
    ∧ (∀ u, s.maskReached j = (u, .ok false) → exec (.maskHoldRelease key c.num) s = .refused .noSuchEvent)
    ∧ (s.hub.now.toNat < (s.sampling j).deadline → exec (.maskDeadline key c.num) s = .refused .noSuchEvent)
    ∧ (∀ u, (s.sampling j).deadline ≤ s.hub.now.toNat → s.maskReached j = (u, .ok true) →
      exec (.maskDeadline key c.num) s = .next (u.setEng key { e with queue := { c with mask := some 0 } :: q }))
    ∧ ∀ u, (s.sampling j).deadline ≤ s.hub.now.toNat → s.maskReached j = (u, .ok false) →
      exec (.maskDeadline key c.num) s = .next (u.setEng key { e with queue :=
        { c with mask := some (if (s.sampling j).fallva ≠ 0 then 1 else 2) } :: q })

/-- spec/07 R200, R213 to R217: the commands of the copy family end in their effect or in a fault of their context; CPY,
CPY2D, FILL move and fill bytes, GATHER and SCATTER take single elements with a status each, XPOSE makes a tile, HOSTFL
ends when the front's earlier writes to host memory of its range have been acknowledged, RINGX merges triples, LQFWD sends an
entry.
A step of a command whose turn it is not, or that waits, is refused (log 5, NOTES, Stops). The model's readings: the order of
the field checks and the records (log 24); statuses, word sizes and parts in a free order (logs 6, 25); the turns of a copy
engine (log 56); a failed merge at a peer (log 61); a NaN among the maxima (log 43). -/
def Obligations.CopyCommandsMoveTheirBytes : Prop :=
  (∀ s key num j x st, x ∈ copyInstr key num → WorkingAt s key num x.1 j st → s.copyTurn key = true →
    (x.1 = 0x17 ∨ x.1 = 0x18 → ∀ l, st.left = some l → l.2 ≠ []) →
    ∃ t, exec x.2 s = .next t ∧ (MarkedDone s t key num ∨ Faulted s t key
      ∨ ∃ b r, ∃ gen : Started → Nat, GoesOnAs s t key num (fun y => { y with left := some (b, r), gen := gen y })
          ∧ ∀ l, st.left = some l → r.length + 1 = l.2.length))
  ∧ (∀ s key num x, x ∈ copyInstr key num → s.copyTurn key = false → exec x.2 s = .refused .noSuchEvent)
  ∧ (∀ s key num j n u v p q, TurnOf s key num 0x10 j none → n = j.f 0x18 4 →
    InOrder j [(0x1C, 36)] [0x08, 0x10] [(0x18, decide (0 < n))] → OnePiece (j.addr 0x08) n → OneWrite (j.addr 0x10) n →
    s.fieldPlace j 0x08 (j.addr 0x08) n false = (u, .ok p) → u.fieldPlace j 0x10 (j.addr 0x10) n true = (v, .ok q) →
    Plain q n → p.meets q n n = false →
    ∃ t, exec (.cpy key num) s = .next t ∧ CommandDone s t key num (inMem q n) (inSpad q n)
      ∧ t.placeRead q n = s.placeRead p n)
  ∧ (∀ s key num j n (da db : Nat) r u v p q, TurnOf s key num 0x11 j (some (false, [r])) → n = j.f 0x18 4 → j.f 0x1C 4 = 2 → r < 2 →
    InOrder j [(0x30, 16)] [0x08, 0x10] [] → j.sf 0x20 8 = (da : Int) → j.sf 0x28 8 = (db : Int) →
    (∀ i, i < 2 → OnePiece (j.addr 0x08 + i * da) n ∧ OneWrite (j.addr 0x10 + i * db) n) →
    s.fieldPlace j 0x08 (j.addr 0x08 + (r * da : Nat)) n false = (u, .ok p) →
    u.fieldPlace j 0x10 (j.addr 0x10 + (r * db : Nat)) n true = (v, .ok q) → Plain q n → p.meets q n n = false →
    ∃ t, exec (.cpy2d key num) s = .next t ∧ CommandDone s t key num (inMem q n) (inSpad q n) ∧ t.placeRead q n = s.placeRead p n)
  ∧ (∀ s key num j n (da db : Nat), TurnOf s key num 0x11 j none → n = j.f 0x18 4 → j.f 0x1C 4 = 2 →
    InOrder j [(0x30, 16)] [0x08, 0x10] [] → j.sf 0x20 8 = (da : Int) → j.sf 0x28 8 = (db : Int) →
    (∀ i, i < 2 → OnePiece (j.addr 0x08 + i * da) n ∧ OneWrite (j.addr 0x10 + i * db) n
      ∧ InSpad j 0x08 (j.addr 0x08 + i * da) n ∧ InSpad j 0x10 (j.addr 0x10 + i * db) n) →
    (∀ i k, i < 2 → k < 2 → j.addr 0x08 + i * da + n ≤ j.addr 0x10 + k * db ∨ j.addr 0x10 + k * db + n ≤ j.addr 0x08 + i * da) →
    ∃ t r, r < 2 ∧ exec (.cpy2d key num) s = .next t
      ∧ GoesOnAs s t key num (fun y => { y with left := some (false, [1 - r]) }) ∧ t.mem = s.mem ∧ t.gusts = s.gusts
      ∧ frontSp t j (j.addr 0x10 + r * db) n = frontSp s j (j.addr 0x08 + r * da) n
      ∧ (∀ c, t.core c = { s.core c with scratch := (t.core c).scratch })
      ∧ ∀ c a, ¬ (c = j.cmd.core ∧ j.fr.spBase c + j.addr 0x10 + r * db ≤ a ∧ a < j.fr.spBase c + j.addr 0x10 + r * db + n) →
        memGet (t.core c).scratch a = memGet (s.core c).scratch a)
  ∧ (∀ s key num j n u p, TurnOf s key num 0x14 j none → n = j.f 0x18 4 → InOrder j [(0x10, 8), (0x20, 32)] [0x08] [] →
    OneWrite (j.addr 0x08) n → s.fieldPlace j 0x08 (j.addr 0x08) n true = (u, .ok p) → Plain p n →
    ∃ t, exec (.fill key num) s = .next t ∧ CommandDone s t key num (inMem p n) (inSpad p n)
      ∧ t.placeRead p n = (List.range n).map fun i => BitVec.ofNat 8 (j.f (0x1C + i % 4) 1))
  ∧ (∀ s key num j n u p, TurnOf s key num 0x17 j none → n = j.f 0x18 4 → InOrder j [(0x10, 8), (0x1C, 36)] [0x08] [] →
    OneWrite (j.addr 0x08) n → s.fieldPlace j 0x08 (j.addr 0x08) n false = (u, .ok p) →
    (∀ r ∈ s.hub.requests, ∀ q ∈ r.posters, s.postsFor j.eng.front q = false) →
    ∃ t, exec (.hostfl key num) s = .next t ∧ CommandDone s t key num (fun _ => False) fun _ _ => False)
  ∧ (∀ s key num j st, WorkingAt s key num 0x17 j st → st.left = some (false, []) → s.copyTurn key = true →
    InOrder j [(0x10, 8), (0x1C, 36)] [0x08] [] →
    ((∃ id ∈ s.hostWrites (s.hostSpans j) (s.postsFor j.eng.front), id < st.gen) →
      exec (.hostfl key num) s = .refused .noSuchEvent)
    ∧ ((∀ id ∈ s.hostWrites (s.hostSpans j) (s.postsFor j.eng.front), st.gen ≤ id) →
      ∃ t, exec (.hostfl key num) s = .next t ∧ CommandDone s t key num (fun _ => False) fun _ _ => False))
  ∧ (∀ s key num j n s1 ix, TurnOf s key num 0x12 j none → firstFault j.indexChecks = none → j.f 0x28 4 = 1 →
    n = elemSize (j.f 0x2C 1) → s.fieldRead j 0x08 (j.addr 0x08) 4 = (s1, .ok ix) →
    ((j.addr 0x10 + natOfBytes ix * n) % n ≠ 0 → ∀ s2 t, s1.fieldWrite j 0x18 (j.addr 0x18) (List.replicate n 0) = (s2, none) →
      s2.fieldWrite j 0x20 (j.addr 0x20) [5] = (t, none) → ∃ u, exec (.gather key num) s = .next u ∧ EndsFrom t u key num)
    ∧ ((j.addr 0x10 + natOfBytes ix * n) % n = 0 → ∀ s2 e s3 t,
      s1.engPlace j (j.space 0x10) (j.addr 0x10 + natOfBytes ix * n) n false = (s2, .error e) →
      s2.fieldWrite j 0x18 (j.addr 0x18) (List.replicate n 0) = (s3, none) → s3.fieldWrite j 0x20 (j.addr 0x20) [e.status] = (t, none) →
      ∃ u, exec (.gather key num) s = .next u ∧ EndsFrom t u key num)
    ∧ ((j.addr 0x10 + natOfBytes ix * n) % n = 0 → ∀ s2 p s3 t,
      s1.engPlace j (j.space 0x10) (j.addr 0x10 + natOfBytes ix * n) n false = (s2, .ok p) →
      s2.fieldWrite j 0x18 (j.addr 0x18) (s2.placeRead p n) = (s3, none) → s3.fieldWrite j 0x20 (j.addr 0x20) [0] = (t, none) →
      ∃ u, exec (.gather key num) s = .next u ∧ EndsFrom t u key num))
  ∧ (∀ s key num j n s1 ix s2 bs, TurnOf s key num 0x13 j none → firstFault j.indexChecks = none → j.f 0x28 4 = 1 →
    n = elemSize (j.f 0x2C 1) → s.fieldRead j 0x08 (j.addr 0x08) 4 = (s1, .ok ix) →
    s1.fieldRead j 0x18 (j.addr 0x18) n = (s2, .ok bs) → (j.addr 0x10 + natOfBytes ix * n) % n = 0 →
    (∀ s3 e t, s2.engPlace j (j.space 0x10) (j.addr 0x10 + natOfBytes ix * n) n true = (s3, .error e) →
      s3.fieldWrite j 0x20 (j.addr 0x20) [e.status] = (t, none) →
      ∃ u, exec (.scatter key num) s = .next u ∧ EndsFrom t u key num)
    ∧ (∀ s3 p t, s2.engPlace j (j.space 0x10) (j.addr 0x10 + natOfBytes ix * n) n true = (s3, .ok p) →
      (s3.placeWrite p bs).fieldWrite j 0x20 (j.addr 0x20) [0] = (t, none) →
      ∃ u, exec (.scatter key num) s = .next u ∧ EndsFrom t u key num))
  ∧ (∀ (s : State) key num (j : Job) (n k stride : Nat), TurnOf s key num 0x16 j none → n = xposeSize (j.f 0x28 1) → k = (1 + j.f 0x29 1) * 128 →
    InOrder j [(0x2B, 21)] [0x08, 0x10] [(0x18, j.f 0x18 4 % 32 == 0), (0x1C, j.f 0x1C 4 % 32 == 0), (0x28, decide (j.f 0x28 1 < 3)),
      (0x29, decide (2 ≤ j.f 0x29 1) && decide (j.f 0x29 1 ≤ 8)), (0x2A, decide (1 ≤ j.f 0x2A 1) && decide (j.f 0x2A 1 ≤ 3))] →
    j.f 0x18 4 = 32 → j.f 0x1C 4 = 32 → j.sf 0x20 8 = (stride : Int) → InSpad j 0x08 (j.addr 0x08 + 31 * stride) (32 * n) →
    InSpad j 0x10 (j.addr 0x10) k → (∀ r, r < 32 → OnePiece (j.addr 0x08 + r * stride) (32 * n)) → OnePiece (j.addr 0x10) k →
    ∃ t, exec (.xpose key num) s = .next t
      ∧ CommandDone s t key num (fun _ => False)
          (fun c a => c = j.cmd.core ∧ j.fr.spBase c + j.addr 0x10 ≤ a ∧ a < j.fr.spBase c + j.addr 0x10 + k)
      ∧ frontSp t j (j.addr 0x10) k = xposeTile s j (j.addr 0x08) stride)
  ∧ (∀ s key num j d n, TurnOf s key num 0x18 j none → d = 32 * 2 ^ j.f 0x1C 4 → n = (2 + d) * 4 →
    InOrder j [(0x20, 32)] [0x08, 0x10] [(0x18, decide (1 ≤ j.f 0x18 4) && decide (j.f 0x18 4 ≤ 128)),
      (0x1C, decide (1 ≤ j.f 0x1C 4) && decide (j.f 0x1C 4 ≤ 3))] → j.f 0x18 4 = 1 →
    InSpad j 0x08 (j.addr 0x08) n → InSpad j 0x10 (j.addr 0x10) n → OnePiece (j.addr 0x08) n → OnePiece (j.addr 0x10) n →
    s.engineWaits key num = false →
    ∃ t, exec (.ringx key num) s = .next t
      ∧ CommandDone s t key num (fun _ => False)
          (fun c a => c = j.cmd.core ∧ j.fr.spBase c + j.addr 0x10 ≤ a ∧ a < j.fr.spBase c + j.addr 0x10 + n)
      ∧ frontSp t j (j.addr 0x10) n = (ringMerge (wordsOf (frontSp s j (j.addr 0x10) n) (2 + d))
          (wordsOf (frontSp s j (j.addr 0x08) n) (2 + d))).flatMap fun w => bytesOf 4 w.toNat)
  ∧ (∀ s key num j, TurnOf s key num 0x18 j (some (false, [])) →
    InOrder j [(0x20, 32)] [0x08, 0x10] [(0x18, decide (1 ≤ j.f 0x18 4) && decide (j.f 0x18 4 ≤ 128)),
      (0x1C, decide (1 ≤ j.f 0x1C 4) && decide (j.f 0x1C 4 ≤ 3))] →
    ((∃ r ∈ s.hub.requests, r.engine = some (key, num)) → exec (.ringx key num) s = .refused .noSuchEvent)
    ∧ ((∀ r ∈ s.hub.requests, r.engine ≠ some (key, num)) →
      ∃ t, exec (.ringx key num) s = .next t ∧ CommandDone s t key num (fun _ => False) fun _ _ => False))
  ∧ ∀ s key num j u p pair q, Working s key num 0x19 j → s.copyTurn key = true → pair = j.f 0x10 1 →
    InOrder j [(0x11, 47)] [0x08] [(0x08, j.addr 0x08 % 64 == 0), (0x10, decide (pair < 64))] → OnePiece (j.addr 0x08) 512 →
    s.fieldPlace j 0x08 (j.addr 0x08) 512 false = (u, .ok p) → q = sendQueue j.die pair →
    (s.lqOwner pair ≠ j.fr.part → ∃ t, exec (.lqfwd key num) s = .next t ∧ Faulted s t key)
    ∧ (s.lqOwner pair = j.fr.part → (s.lq q).stopped = true → ∃ t, exec (.lqfwd key num) s = .next t ∧ Faulted s t key)
    ∧ (s.lqOwner pair = j.fr.part → (s.lq q).stopped = false → 32 ≤ (s.lq q).inFlight.length + (s.lq q).entries.length →
      exec (.lqfwd key num) s = .refused .noSuchEvent)
    ∧ (s.lqOwner pair = j.fr.part → (s.lq q).stopped = false → (s.lq q).inFlight.length + (s.lq q).entries.length < 32 →
      ∃ t, exec (.lqfwd key num) s = .next t ∧ MarkedDone s t key num
        ∧ t = { s with engs := t.engs, dies := t.dies, free := t.free, hub := { s.hub with lq := t.hub.lq } }
        ∧ t.lq q = { s.lq q with inFlight := (s.lq q).inFlight ++ [s.placeRead p 512] })

/-- spec/07 R205, R206, R208, R215, R217, spec/10 R295 to R302: MIGRATE and REQNT go through the steps of a swap, page by
page; GRAPHPOST makes a waiting node ready; MXTASK and MXCONV leave their sums in the accumulator and their output in the
scratchpad.
A turn of REQNT converts slots of at most 4 KiB (R327), and slots that the new page cannot hold are dropped (log 71).
A step that waits is refused (log 5, NOTES, Stops). The model's readings: swaps, pools and lists (log 30), field checks (log 24),
shapes, sums and faults of matrix tasks (log 26), the order of READY nodes (log 58). -/
def Obligations.SwapsPostsAndMatrixTasks : Prop :=
  (∀ s key num j st x, x ∈ swapInstr key num j → WorkingAt s key num x.1 j st → SwapInOrder j x.1 →
    (x.1 = 0x15 → s.copyTurn key = true) →
    (j.f 0x10 4 = 0 → x.2.2.2 = false → ∃ t, exec x.2.1 s = .next t ∧ StepFrom s t x.1 ∧ MarkedDone s t key num)
    ∧ (j.f 0x10 4 = 0 → x.2.2.2 = true → ∀ u, s.raiseGen? j.fr.part j.fr.asid = some u →
      ∃ t, exec x.2.1 s = .next t ∧ StepFrom u t x.1 ∧ MarkedDone s t key num)
    ∧ (j.f 0x10 4 = 1 → st.phase = 0 → ∀ p, PageAtVa s j (j.f 0x08 8) p →
      (p.x.mig ≠ 0 ∨ p.x.peer ≠ s.self → ∃ t, exec x.2.1 s = .next t ∧ Faulted s t key)
      ∧ (s.lacksFeature p.x = true → j.f 0x08 8 % pageBytes p.x.size = 0 →
          ∃ t, exec x.2.1 s = .next t ∧ Faulted s t key ∧ FaultRecord s t j 0x01 0x0010)
      ∧ (MaySwap s (j.f 0x08 8) p x.2.2.1 → (p.x.w || p.x.a) = false → ∃ t, exec x.2.1 s = .next t
          ∧ GoesOnAs s t key num (fun y => { y with phase := 2, gen := (s.setMig p 1).gen j.fr.part j.fr.asid })
          ∧ StepFrom (s.setMig p 1) t x.1)
      ∧ (MaySwap s (j.f 0x08 8) p x.2.2.1 → (p.x.w || p.x.a) = true → ∀ u, (s.setMig p 1).raiseGen? j.fr.part j.fr.asid = some u →
          ∃ t, exec x.2.1 s = .next t ∧ StepFrom u t x.1
            ∧ GoesOnAs s t key num fun y => { y with phase := 1, gen := u.gen j.fr.part j.fr.asid }))
    ∧ (j.f 0x10 4 ≠ 0 → st.phase = 1 →
      (genOlder (s.oldest j.fr.part j.fr.asid) st.gen = true → exec x.2.1 s = .refused .noSuchEvent)
      ∧ (genOlder (s.oldest j.fr.part j.fr.asid) st.gen = false →
        ∃ t, exec x.2.1 s = .next t ∧ StepFrom s t x.1 ∧ GoesOnAs s t key num fun y => { y with phase := 2 }))
    ∧ (j.f 0x10 4 = 1 → st.phase = 2 ∨ st.phase = 3 → st.pages = 1 → x.2.2.2 = false →
      ∃ t, exec x.2.1 s = .next t ∧ StepFrom s t x.1 ∧ MarkedDone s t key num))
  ∧ (∀ s key num j st p n tier i, WorkingAt s key num 0x20 j st → SwapInOrder j 0x20 → j.f 0x10 4 = 1 →
    st.phase = 2 ∨ st.phase = 3 → st.pages = 0 → PageAtVa s j (j.f 0x08 8) p → n = pageBytes p.x.size → tier = j.f 0x14 1 →
    i = 3 * tier + p.x.size → p.restores tier = false → s.poisoned (s.own p.x.pa) n = false → p.x.size < 3 →
    j.fr.part < 16 → s.parts.length = 16 → (s.part j.fr.part).pools.length = 6 →
    ((s.part j.fr.part).pools.getD i [] = [] → st.phase = 3 → exec (.migrate key num) s = .refused .noSuchEvent)
    ∧ ((s.part j.fr.part).pools.getD i [] = [] → st.phase = 2 → ∃ t, exec (.migrate key num) s = .next t
        ∧ (s.popPool j.fr.part i).1 = 0 ∧ t = { (s.popPool j.fr.part i).2 with engs := t.engs }
        ∧ GoesOnAs s t key num fun y => { y with phase := 3 })
    ∧ ∀ pa rest, (s.part j.fr.part).pools.getD i [] = pa :: rest → ApartFrom pa n p.entry → Storable (s.own p.entry) 16 →
      p.x.pa + n ≤ 2 ^ 44 →
      ∃ t, exec (.migrate key num) s = .next t ∧ GoesOnAs s t key num (fun y => { y with phase := 2, pages := y.pages + 1 })
        ∧ (t.part j.fr.part).pools = listSet (s.part j.fr.part).pools i rest
        ∧ memNat t.mem (s.own p.entry) 8 = newWord0 p.w0 pa tier % 2 ^ 64
        ∧ (∀ b, b < n → memGet t.mem (s.own pa + b) = memGet s.mem (s.own p.x.pa + b))
        ∧ (¬ (p.x.tier = 1 ∧ tier = 0) → (t.part j.fr.part).listed = (s.part j.fr.part).listed
            ++ [{ asid := j.fr.asid, pa := p.x.pa, size := p.x.size, tier := p.x.tier, gen := st.gen }])
        ∧ (p.x.tier = 1 → tier = 0 → memNat t.mem (s.own (p.entry + 8)) 8 = setLower p.w1 true p.x.pa % 2 ^ 64
            ∧ (t.part j.fr.part).listed = (s.part j.fr.part).listed))
  ∧ (∀ s key num j st p n a k count hi pa, WorkingAt s key num 0x15 j st → s.copyTurn key = true →
    SwapInOrder j 0x15 → j.f 0x10 4 = 1 →
    st.phase = 2 ∨ st.phase = 3 → st.pages = 0 → PageAtVa s j (j.f 0x08 8) p → n = pageBytes p.x.size → p.x.size < 3 →
    s.poisoned (s.own p.x.pa) n = false → j.fr.part < 16 → s.parts.length = 16 → (s.part j.fr.part).pools.length = 6 →
    a = slotLen p.x.planes p.x.outl → k = slotLen (j.f 0x15 1) false → count = min (n / a) (n / k) → st.slots ≤ count →
    hi = min count (st.slots + 4096 / max a k) →
    (st.fresh = some pa ∨ (st.fresh = none ∧ ∃ rest, (s.part j.fr.part).pools.getD p.x.size [] = pa :: rest)) →
    ApartFrom pa n p.entry → Storable (s.own p.entry) 16 →
    ∃ t, exec (.reqnt key num) s = .next t
      ∧ (hi < count → memNat t.mem (s.own p.entry) 8 = p.w0
          ∧ GoesOnAs s t key num fun y => { y with phase := 2, fresh := some pa, slots := hi })
      ∧ (hi = count → memNat t.mem (s.own p.entry) 8 = newWord0 p.w0 pa 0 % 2 ^ 64
          ∧ memNat t.mem (s.own (p.entry + 8)) 8 % 2 ^ 15 = 1 + j.f 0x15 1 * 2 ^ 8 + j.f 0x16 1 * 2 ^ 12
          ∧ GoesOnAs s t key num fun y => { y with phase := 2, pages := y.pages + 1, fresh := none, slots := 0 })
      ∧ (∀ i, i < st.slots → memGetBytes t.mem (s.own pa + i * k) k = memGetBytes s.mem (s.own pa + i * k) k)
      ∧ ∀ i, st.slots ≤ i → i < hi → memGetBytes t.mem (s.own pa + i * k) k = tileSlot (j.f 0x15 1) (blenOf (j.f 0x16 1))
          ((List.range 1024).map (slotValue (s.readBytes (s.own p.x.pa + i * a) a) p.x.planes p.x.outl (blenOf p.x.blen))))
  ∧ (∀ s key num j y nd n, Working s key num 0x30 j → n = j.f 0x08 2 → tabGet? s.insts j.fr.inst = some y → y.nodes[n]? = some nd →
    InOrder j [(0x0A, 54)] [] [(0x08, decide (n < y.nodes.length))] →
    (nd.state ≠ 0 → ∃ t, exec (.graphpost key num) s = .next t ∧ t = { s with engs := t.engs } ∧ MarkedDone s t key num)
    ∧ (nd.state = 0 → ∃ t, exec (.graphpost key num) s = .next t
      ∧ t = { s with engs := t.engs, insts := t.insts, nextReady := s.nextReady + 1 }
      ∧ MarkedDone s t key num
      ∧ tabGet? t.insts j.fr.inst = some { y with nodes := listSet y.nodes n { nd with state := 1, readyAt := s.nextReady } }))
  ∧ ∀ s key num j x m u v sh bits zs ys base c, (x = ((0x01, .mxtask key num) : Nat × Instr) ∨ x = (0x02, .mxconv key num)) →
    Working s key num x.1 j → m = mxOf j.cmd.bytes → c = j.cmd.core → firstFault (j.mxChecks s) = none → s.shape j = (u, .ok sh) →
    firstFault (u.mxRanges j sh) = none →
    (m.epi ≠ 3 ∧ v = u ∨ m.epi = 3 ∧ u.maskBits j (s.sampling j) (j.cmd.mask.getD 0) = (v, .ok bits)) →
    base = j.fr.accBase c + m.acc →
    zs = m.sums sh (fun a n => frontSp s j a n) (if m.init then
      wordsOf (memGetBytes (s.core c).accum base (4 * (32 * m.mt * (32 * m.nt)))) (32 * m.mt * (32 * m.nt))
      else List.replicate (32 * m.mt * (32 * m.nt)) 0) →
    ys = (List.range (32 * m.mt * (32 * m.nt))).map (fun i => m.epilogue (zs.getD i 0)
      (if m.bias = 0xFFFFFFFF then none else some (BitVec.ofNat 32 (natOfBytes (frontSp s j (m.bias + 4 * (i % (32 * m.nt))) 4))))) →
    ∃ t, exec x.2 s = .next t ∧ MarkedDone s t key num ∧ t.mem = s.mem
      ∧ t = { s with engs := t.engs, cores := t.cores, dies := t.dies, free := t.free } ∧ (∀ d, d ≠ c → t.core d = s.core d)
      ∧ (t.core c).accum = memSetBytes (s.core c).accum base (zs.flatMap fun z => bytesOf 4 z.toNat)
      ∧ (m.epi ≠ 3 → (t.core c).heaps = (s.core c).heaps)
      ∧ (m.epi = 0 ∨ m.epi = 3 → (t.core c).scratch = (s.core c).scratch)
      ∧ (m.epi = 1 → 128 * m.nt ≤ m.pitch → ∀ r, r < 32 * m.mt →
          frontSp t j (m.out + r * m.pitch) (128 * m.nt)
            = ((ys.drop (r * (32 * m.nt))).take (32 * m.nt)).flatMap fun y => bytesOf 4 y.toNat)

/-! ## Pages and pools -/

/-- spec/10 R296, R299, R302, R309 to R311, spec/12 R352: OLDEST reaches GEN when no TLB holds an older entry, and frees what
it has passed; pools are popped and pushed in order, and an empty one gives 0; a prefetch record takes a page at a time, and
is abandoned at its deadline.
A step that has not come about is refused (log 5, NOTES, Stops). The model's readings: which translations hold OLDEST back, the
vector of an empty pool and the records of prefetch schedules (log 30). -/
def Obligations.PagesPoolsAndPrefetch : Prop :=
  (∀ (s : State) q asid least, q < 16 → asid < 256 → least = oldestOf (s.gen q asid) (s.heldGens q asid) → least < 2 ^ 24 →
    (s.part q).listed = [] → s.parts.length = 16 →
    (least ≠ s.oldest q asid →
      ∃ t, exec (.oldestAdvance q asid) s = .next t ∧ t.oldest q asid = least ∧ t.gen q asid = s.gen q asid
        ∧ (∀ c x, x ∈ (t.core c).tlb → x.part = q → x.asid = asid → x.gen = s.gen q asid)
        ∧ (∀ d x, d < s.dies.length → x ∈ (t.die d).tlb → x.part = q → x.asid = asid → x.gen = s.gen q asid)
        ∧ (∀ c x, x ∈ (s.core c).tlb → x.part ≠ q ∨ x.asid ≠ asid → x ∈ (t.core c).tlb)
        ∧ t.gusts = s.gusts ∧ t.engs = s.engs
        ∧ ∀ a, a < s.own (asRec q asid + 12) ∨ s.own (asRec q asid + 12) + 4 ≤ a → memGet t.mem a = memGet s.mem a)
    ∧ (least = s.oldest q asid → exec (.oldestAdvance q asid) s = .refused .noSuchEvent))
  ∧ (∀ gen : Nat, oldestOf gen [] = gen ∧ ∀ g, oldestOf gen [g] = if genOlder g gen then g else gen)
  ∧ (∀ (s : State) q asid x least, q < 16 → asid < 256 → least = oldestOf (s.gen q asid) (s.heldGens q asid) → least < 2 ^ 24 →
    (s.part q).listed = [x] → s.parts.length = 16 → x.asid = asid → genOlder x.gen least = true →
    ∀ u, (s.hubStore (s.own (asRec q asid + 12)) (bytesOf 4 least)).reclaim? q x.pa x.size x.tier = some u →
    ∃ t, exec (.oldestAdvance q asid) s = .next t ∧ (t.part q).listed = [] ∧ t.mem = u.mem ∧ t.hub.msix = u.hub.msix)
  ∧ (∀ (s : State) q i, q < 16 → i < 6 → s.parts.length = 16 → (s.part q).pools.length = 6 →
    (∀ pa rest, (s.part q).pools.getD i [] = pa :: rest → ∃ t, exec (.poolPop q i) s = .next t ∧ t.busData = bytesOf 8 pa
      ∧ (t.part q).pools.getD i [] = rest ∧ (∀ k, k ≠ i → (t.part q).pools.getD k [] = (s.part q).pools.getD k [])
      ∧ t = { s with parts := t.parts, busData := t.busData } ∧ ∀ r, r ≠ q → t.part r = s.part r)
    ∧ ((s.part q).pools.getD i [] = [] → ∃ t, exec (.poolPop q i) s = .next t ∧ t.busData = List.replicate 8 0
      ∧ (∀ r, r ≠ q → t.part r = s.part r) ∧ (t.part q) = { s.part q with poolTold := (t.part q).poolTold }
      ∧ ((s.part q).poolTold.getD i none = none → (s.part q).poolTold.length = 6 →
          (s.fnOf q * 16 + 2) ∈ t.hub.msix ∧ (t.part q).poolTold.getD i none = some s.hub.now.toNat)
      ∧ ∀ n, (s.part q).poolTold.getD i none = some n →
          (s.hub.now.toNat < n + 1000000 → t.part q = s.part q ∧ ∀ v, v % 16 ≠ 0 → v ∈ t.hub.msix → v ∈ s.hub.msix)
          ∧ (n + 1000000 ≤ s.hub.now.toNat → (s.fnOf q * 16 + 2) ∈ t.hub.msix)))
  ∧ (∀ (s : State) q i pa, s.input.which = q → s.input.count = i → q < 16 → i < 6 → s.parts.length = 16 →
    (s.part q).pools.length = 6 → pa = natOfBytes s.input.data % 2 ^ 44 →
    (s.pushable q i pa = true → ∃ t, exec .poolPush s = .next t
      ∧ (t.part q).pools.getD i [] = (s.part q).pools.getD i [] ++ [pa]
      ∧ (∀ k, k ≠ i → (t.part q).pools.getD k [] = (s.part q).pools.getD k [])
      ∧ memNat t.mem (s.own (poolFillPa q i)) 8 = (memNat s.mem (s.own (poolFillPa q i)) 8 + 1) % 2 ^ 64)
    ∧ (s.pushable q i pa = false → ∃ t, exec .poolPush s = .next t ∧ t.parts = s.parts))
  ∧ (∀ (s : State) ix r, tabGet? s.hub.pfRecs ix = some r → r.finished = false →
    (r.pages ≤ r.done → ∃ t, exec (.prefetchRecord ix) s = .next t ∧ tabGet? t.hub.pfRecs ix = some { r with finished := true }
      ∧ t = { s with hub := { s.hub with pfRecs := t.hub.pfRecs } })
    ∧ (r.done < r.pages → r.phase = 0 → s.walk r.part r.asid (r.va + r.done * 0x10000) = .absent →
      ∃ t, exec (.prefetchRecord ix) s = .next t ∧ t = { s with hub := { s.hub with pfRecs := t.hub.pfRecs } }
        ∧ tabGet? t.hub.pfRecs ix = some { r with done := r.done + 1, finished := decide (r.pages ≤ r.done + 1) })
    ∧ (r.done < r.pages → r.phase = 0 → ∀ x e level, s.walk r.part r.asid (r.va + r.done * 0x10000) = .leaf x e level →
      (x.mig ≠ 0 ∨ x.size ≠ 0 ∨ x.peer ≠ s.self ∨ x.tier = r.tier →
        ∃ t, exec (.prefetchRecord ix) s = .next t ∧ t = { s with hub := { s.hub with pfRecs := t.hub.pfRecs } }
          ∧ tabGet? t.hub.pfRecs ix = some { r with done := r.done + 1, finished := decide (r.pages ≤ r.done + 1) })
      ∧ (x.mig = 0 → x.size = 0 → x.peer = s.self → x.tier ≠ r.tier → (x.w || x.a) = false → Storable (s.own e) 16 →
        e + 16 ≤ 2 ^ 44 →
        ∃ t, exec (.prefetchRecord ix) s = .next t ∧ memNat t.mem (s.own e) 8 = (memNat s.mem (s.own e) 8
            - bitsOf (memNat s.mem (s.own e) 8) 10 9 * 512 + 512) % 2 ^ 64
          ∧ ∃ y, tabGet? t.hub.pfRecs ix = some y ∧ y.phase = 2 ∧ y.done = r.done ∧ y.finished = false)))
  ∧ (∀ (s : State) ix r, tabGet? s.hub.pfRecs ix = some r → (s.hub.pfRecs.filter fun e => e.2.mark == r.mark) = [(ix, r)] →
    r.finished = true → r.swapped = false → ∃ t, exec (.prefetchRecord ix) s = .next t
      ∧ t = { s with hub := { s.hub with pfRecs := s.hub.pfRecs.filter fun e => e.2.mark != r.mark } })
  ∧ ∀ (s : State) ix r n, tabGet? s.hub.pfRecs ix = some r → r.finished = false → r.deadline = some n →
    (s.hub.now.toNat < n → exec (.prefetchDeadline ix) s = .refused .noSuchEvent)
    ∧ (n ≤ s.hub.now.toNat → r.phase = 0 → r.part < 16 → s.parts.length = 16 → r.sched < (s.part r.part).pfMiss.length →
      ∃ t, exec (.prefetchDeadline ix) s = .next t ∧ t.mem = s.mem
        ∧ tabGet? t.hub.pfRecs ix = some { r with finished := true, phase := 0 }
        ∧ ((t.part r.part).pfMiss.getD r.sched 0).toNat = min (2 ^ 32 - 1) (((s.part r.part).pfMiss.getD r.sched 0).toNat + 1))

/-- spec/11 R312 to R315, R318 to R322, spec/13 R368 to R370: entries of the schedule are written, a tick starts the due
instances, fronts are created of ready nodes and their gusts placed, slots end with a swap of the banks, contexts are
spilled and loaded, a front that is done completes its node.
A step that has not come about is refused (log 5, NOTES, Stops). The model's readings: image checks, FRONTIDs and dispatch
(log 31), vectors read as the front is created (log 18), GRAPH used aligned (log 63), READY order (log 58), slots and spills
(log 32), where a save area lies and what its padding holds (log 8), latches that a load finds empty (log 42), the delivery of
pending vectors at a tick (log 72). -/
def Obligations.SchedulingAndFronts : Prop :=
  (∀ (s : State) n, n = s.hub.now.toNat / 1000 + 1 → 1000 * n < 2 ^ 64 → s.hub.slew = 0 →
    ((∀ e ∈ s.sched, e.2.valid = false) → keysFrom 0 s.sched = true → ∃ t, exec .scheduleTick s = .next t ∧ Ticked s t n
      ∧ t = { s with parts := t.parts, hub := { s.hub with now := t.hub.now, msix := t.hub.msix, msixSent := t.hub.msixSent,
                                                             msixLast := t.hub.msixLast, msixHeld := t.hub.msixHeld } }
      ∧ (s.hub.msixHeld = [] → t.hub.msix = [] ∧ t.hub.msixHeld = [])
      ∧ (∀ v, s.hub.msix = [v] → tabGetD t.hub.msixSent v 0 = tabGetD s.hub.msixSent v 0 + 1
          ∧ ∀ w, w ≠ v → tabGetD t.hub.msixSent w 0 = tabGetD s.hub.msixSent w 0)
      ∧ ∀ fn m, s.hub.msixHeld = [fn] → tabGet? s.hub.msixLast fn = some m →
          (1000 * n < m + 10000 → t.hub.msix = [] ∧ t.hub.msixHeld = [fn])
          ∧ (m + 10000 ≤ 1000 * n → t.hub.msix = [fn * 16] ∧ t.hub.msixHeld = []
              ∧ tabGet? t.hub.msixLast fn = some (1000 * n)))
    ∧ (∀ i x, s.sched = [(i, x)] → x.valid = true → s.hasPart x.part.toNat = true → x.deferred = false → n < x.next.toNat →
      ∃ t, exec .scheduleTick s = .next t ∧ Ticked s t n ∧ t.sched = s.sched ∧ t.insts = s.insts)
    ∧ (∀ i x user nd, s.sched = [(i, x)] → x.valid = true → s.hasPart x.part.toNat = true → x.deferred = false → x.next.toNat ≤ n → x.unfinished = false →
      s.insts = [] → s.checkImage x.part.toNat x.asid.toNat (x.graph.toNat / 128 * 128) = .ok (user, [nd]) → nd.state = 0 → nd.preds = [] →
      ∃ t y, exec .scheduleTick s = .next t ∧ Ticked s t n ∧ t.mem = s.mem
        ∧ t.sched = [(i, AfterStart { x with inst := x.inst + 1, unfinished := true } n)] ∧ t.insts = [(s.nextInst, y)]
        ∧ y.nodes = [{ nd with state := 1, readyAt := s.nextReady }] ∧ y.sched = i ∧ y.part = x.part.toNat ∧ y.asid = x.asid.toNat
        ∧ y.user = user ∧ y.slotEnd = (if x.slot.toNat = 0 then 0 else n + x.slot.toNat))
    ∧ (∀ i x e, s.sched = [(i, x)] → x.valid = true → s.hasPart x.part.toNat = true → x.deferred = false → x.next.toNat ≤ n → x.unfinished = false →
      s.checkImage x.part.toNat x.asid.toNat (x.graph.toNat / 128 * 128) = .error e →
      ∃ t, exec .scheduleTick s = .next t ∧ Ticked s t n ∧ t.insts = s.insts
        ∧ t.sched = [(i, AfterStart { x with inst := x.inst + 1, skips := if x.skips = 0xFFFF then x.skips else x.skips + 1 } n)])
    ∧ ∀ i x, s.sched = [(i, x)] → x.valid = true → s.hasPart x.part.toNat = true → x.deferred = false → x.next.toNat ≤ n → x.unfinished = true →
      (x.defer = true → ∃ t, exec .scheduleTick s = .next t ∧ Ticked s t n ∧ t.insts = s.insts ∧ t.sched = [(i, AfterStart
          { x with deferred := true, defers := if x.defers = 0xFFFF then x.defers else x.defers + 1 } n)])
      ∧ (x.defer = false → ∃ t, exec .scheduleTick s = .next t ∧ Ticked s t n ∧ t.insts = s.insts ∧ t.sched = [(i, AfterStart
          { x with skips := if x.skips = 0xFFFF then x.skips else x.skips + 1 } n)]))
  ∧ (∀ (s : State) i x, s.input.off / 64 = i → i < 4096 → x = s.entry i →
    (s.input.fn ≠ 0 → x.part.toNat ≠ s.input.fn - 1 → s.input.off % 64 + s.input.data.length ≤ 64 →
      exec .scheduleEntryWrite s = .next s)
    ∧ (s.input.fn = 0 ∨ x.part.toNat = s.input.fn - 1 → s.input.off % 64 = 4 → s.input.data.length = 4 →
      exec .scheduleEntryWrite s
        = .next { s with sched := tabSet s.sched i { x with slot := BitVec.ofNat 32 (natOfBytes s.input.data) } })
    ∧ (s.input.fn = 0 → s.input.off % 64 = 0 → s.input.data.length = 4 → ∀ w, w = natOfBytes s.input.data → w % 2 = 1 →
      x.valid = false →
      (s.sec.featLock = false → exec .scheduleEntryWrite s = .next s)
      ∧ (s.sec.featLock = true → ∃ t y, exec .scheduleEntryWrite s = .next t ∧ t = { s with sched := tabSet s.sched i y }
        ∧ y = { x with valid := true, defer := w / 2 % 2 == 1, part := BitVec.ofNat 4 (w / 4), asid := BitVec.ofNat 8 (w / 64),
                       next := y.next }
        ∧ (s.hub.now.toNat / 1000 + 1 ≤ x.start.toNat → y.next = x.start)
        ∧ (x.start.toNat < s.hub.now.toNat / 1000 + 1 → x.period = 0 →
            y.next = BitVec.ofNat 64 (s.hub.now.toNat / 1000 + 1)))))
  ∧ (∀ (s u : State) r rest, s.sweep.placeWaiting false = none → s.sweep.picks = r :: rest →
    s.sweep.create? r s.input.flag = some u → s.sweep.front? s.nextFront = none → (∀ e ∈ s.gusts, e.2.front ≠ s.nextFront) →
    exec .frontCreate s = .next u ∧ u.nextFront = s.nextFront + 1 ∧ ∃ fr, u.front? s.nextFront = some fr ∧ fr.placed = 1
      ∧ fr.entry = r.node.entry ∧ fr.gusts = r.node.gusts ∧ fr.part = r.x.part ∧ fr.asid = r.x.asid ∧ fr.inst = r.inst
      ∧ fr.node = r.ix ∧ fr.uvec = (tabGetD (s.sweep.part r.x.part).uvec r.x.asid 0 &&& ~~~3)
      ∧ fr.svec = (tabGetD (s.sweep.part r.x.part).svec r.x.asid 0 &&& ~~~3) ∧ fr.ended = false ∧ Launched s.sweep u s.nextFront fr 0
      ∧ ∀ f, f ≠ s.nextFront → u.front? f = s.sweep.front? f)
  ∧ (∀ (s : State), s.sweep.placeWaiting false ≠ none → exec .frontCreate s = .refused .noSuchEvent)
  ∧ (∀ (s u : State) f fr, s.sweep.drainedGusts = [] → (s.sweep.fronts.filter fun e => e.2.waits) = [(f, fr)] →
    s.sweep.placeNext f fr s.input.flag = some u →
    exec .gustPlace s = .next u ∧ (∃ fr2, u.front? f = some fr2 ∧ fr2.placed = fr.placed + 1 ∧ fr2.gusts = fr.gusts)
      ∧ Launched s.sweep u f fr fr.placed)
  ∧ (∀ (s : State) i x, tabGet? s.insts i = some x → x.slotEnd ≠ 0 →
    (s.hub.now.toNat / 1000 < x.slotEnd → exec (.slotEnd i) s = .refused .noSuchEvent)
    ∧ (x.slotEnd ≤ s.hub.now.toNat / 1000 → ((s.cores.map fun c => c.1).filter (s.swaps i)) = [] →
      ∃ t, exec (.slotEnd i) s = .next t ∧ t = { s with insts := t.insts, dbg := { s.dbg with loc := t.dbg.loc } }
        ∧ tabGet? t.insts i = some { x with slotEnd := s.slotFrom x x.slotEnd }
        ∧ ∀ j, j ≠ i → tabGet? t.insts j = tabGet? s.insts j)
    ∧ (x.slotEnd ≤ s.hub.now.toNat / 1000 → keysFrom 0 s.gusts = true →
      ∀ c, ((s.cores.map fun c => c.1).filter (s.swaps i)) = [c] → c < 320 →
      (∀ e ∈ s.gusts, (∀ y ∈ e.2.syms, y.state ≠ 2) ∧ (∀ r ∈ e.2.regroup, r.flag = none)
        ∧ ∀ b r m, (e.2.slot b).wait ≠ some (.landed r m)) →
      ∃ t, exec (.slotEnd i) s = .next t ∧ (t.core c).shadow = none ∧ (∃ y, tabGet? t.insts i = some y ∧ y.slotEnd = 0)
        ∧ (∀ p, p < 64 → t.gust? (128 * c + p) = s.gust? (128 * c + 64 + p) ∧ t.gust? (128 * c + 64 + p) = s.gust? (128 * c + p))
        ∧ (∀ k, k / 128 ≠ c → t.gust? k = s.gust? k) ∧ t.mem = s.mem))
  ∧ (∀ (s : State) core x, core < 320 → s.twins = [] → keysFrom 0 s.gusts = true → (s.core core).saved = [x] → 1 ≤ x.n →
    (∀ e ∈ s.gusts, e.1 / 128 = core + 320 * x.n → e.1 % 128 < 64) → s.loadable core x.n = true →
    (∀ e ∈ s.savedGusts core x.n, ∀ n, s.poisoned (s.own e.2.saveArea) n = false) →
    (s.bankGusts core 1 = [] → ∃ t, exec (.spillContext core) s = .next t ∧ (t.core core).saved = []
      ∧ (t.core core).shadow = some x ∧ t.mem = s.mem
      ∧ ∀ p, p < 64 → t.gust? (128 * core + 64 + p) = (s.gust? ((core + 320 * x.n) * 128 + p)).map fun g =>
          g.ofSave (s.readBytes (s.own g.saveArea) (s.readNat (s.own (g.saveArea + 0xC)) 4)))
    ∧ (s.bankGusts core 1 ≠ [] → (s.core core).shadow = none → (∀ e ∈ s.bankGusts core 1, e.2.awaitsReply = false) →
      (∀ e ∈ s.bankGusts core 1, ∀ n, s.poisoned (s.own e.2.saveArea) n = false) →
      ∃ t n y, exec (.spillContext core) s = .next t ∧ 1 ≤ n ∧ n ≠ x.n ∧ (t.core core).saved = [y] ∧ y.n = n
        ∧ (t.core core).shadow = some x
        ∧ (∀ p, p < 64 → t.gust? (128 * core + 64 + p) = ((s.gust? ((core + 320 * x.n) * 128 + p)).map fun g =>
            g.ofSave (t.readBytes (t.own g.saveArea) (t.readNat (t.own (g.saveArea + 0xC)) 4)))
          ∧ t.gust? ((core + 320 * n) * 128 + p) = s.gust? (128 * core + 64 + p))
        ∧ (∀ k g bs, s.bankGusts core 1 = [(k, g)] →
            bs = g.saveBytes (s.frontIdOf g) ((s.spillTasks core).map fun y => s.taskRecord (y.1, y.2.1)) →
            memGetBytes t.mem (s.own g.saveArea) bs.length = bs
              ∧ ∀ a, a < s.own g.saveArea ∨ s.own g.saveArea + bs.length ≤ a → memGet t.mem a = memGet s.mem a))
    ∧ (s.bankGusts core 1 ≠ [] → (s.core core).shadow ≠ none → exec (.spillContext core) s = .refused .noSuchEvent))
  ∧ (∀ (g : Gust) id ts h, h = g.ofSave (g.saveBytes id ts) →
    h.a.pc = g.a.pc ∧ h.a.mask = g.a.mask ∧ h.a.join = g.a.join ∧ h.b.pc = g.b.pc ∧ h.b.mask = g.b.mask ∧ h.b.join = g.b.join
      ∧ h.lmask = g.lmask ∧ h.xpc = g.xpc ∧ h.xfpc = g.xfpc ∧ h.xmask = g.xmask ∧ h.xother = g.xother ∧ h.xdone = g.xdone
      ∧ h.xcause = g.xcause ∧ h.xdest = g.xdest ∧ (h.fNX, h.fUF, h.fOF, h.fDZ, h.fNV) = (g.fNX, g.fUF, g.fOF, g.fDZ, g.fNV)
      ∧ (g.wb < 2 ^ 16 → h.wb = g.wb) ∧ (g.gbud < 2 ^ 16 → h.gbud = g.gbud) ∧ (g.dsp < 2 ^ 8 → h.dsp = g.dsp)
      ∧ h.halted = g.halted ∧ (∀ k, 1 ≤ k → k ≤ 7 → h.maskReg k = g.maskReg k) ∧ ∀ l, l < 32 → h.xaddr.getD l 0 = g.xaddr.getD l 0)
  ∧ ∀ (s : State) f fr, s.front? f = some fr →
    (s.frontDone f fr = false → exec (.frontComplete f) s = .refused .noSuchEvent)
    ∧ (s.frontDone f fr = true → ∃ t, exec (.frontComplete f) s = .next t ∧ t.front? f = none
      ∧ (∀ g, g ≠ f → t.front? g = s.front? g) ∧ (∀ e ∈ t.engs, e.2.front ≠ f) ∧ t.gusts = s.gusts ∧ t.mem = s.mem
      ∧ (∀ x n m, fr.ended = false → s.insts = [(fr.inst, x)] → fr.node = 0 → x.nodes = [n, m] → n.state = 2 → m.state = 0 →
          m.preds = [0] → m.ranges = [] → t.insts = [(fr.inst, { x with nodes := [{ n with state := 3, readyAt := s.nextReady },
            { m with state := 1, readyAt := s.nextReady + 1 }] })])
      ∧ ∀ x n, fr.ended = false → s.insts = [(fr.inst, x)] → fr.node = 0 → x.nodes = [n] → n.state = 2 → t.insts = [])

/-! ## Fabric -/

/-- spec/12 R336, R337, R342 to R346, R351, R232: the allowance is refilled, acknowledgements end lines, packets of peers are
served or dropped by their incarnation, lost peers fail what waits for them, requests and loads time out, and planes are
remapped; a packet that the hub has held is performed when it is sent. A request's time of sending leaves out the time of remaps (R346): the end of a remap moves it.
A step that has not come about is refused (log 5, NOTES, Stops); that an access to an address that no region holds faults is
noSuchAddress (NOTES, Stops). The model's readings are those of log 33. -/
def Obligations.FabricSteps : Prop :=
  (∀ (s : State) q c p, q < 16 → s.coresOf q = [c] → (∀ r, r < 16 → r ≠ q → s.coresOf r = []) → s.peers = [p] →
    ∃ t, exec .allowanceRefill s = .next t ∧ t = { s with cores := t.cores } ∧ (∀ d, d ≠ c → t.core d = s.core d)
      ∧ tabGetD (t.core c).aw p 0 = tabGetD (s.core c).aw p 0
          + min (s.awTarget q - tabGetD (s.core c).aw p 0) (s.freeUnits q p)
      ∧ t.core c = { s.core c with aw := (t.core c).aw } ∧ ∀ n, n ≠ p → tabGetD (t.core c).aw n 0 = tabGetD (s.core c).aw n 0)
  ∧ (∀ (s : State), s.peers = [] → exec .allowanceRefill s = .next s)
  ∧ (∀ (s : State), (s.hub.requests.find? fun x => x.id == s.input.which) = none →
    (s.input.stale = true → 0 < s.hub.lost → ∃ t, exec .ackReceive s = .next t
      ∧ t = { s with hub := { s.hub with lost := s.hub.lost - 1, dropInc := t.hub.dropInc } }
      ∧ t.hub.dropInc.toNat = min (2 ^ 32 - 1) (s.hub.dropInc.toNat + 1))
    ∧ (s.input.stale = false ∨ s.hub.lost = 0 → exec .ackReceive s = .refused .noSuchEvent))
  ∧ (∀ (s : State) r, (s.hub.requests.find? fun x => x.id == s.input.which) = some r → r.engine = none →
    (r.heldInHub = true → exec .ackReceive s = .refused .noSuchEvent)
    ∧ (r.heldInHub = false → r.posters = [] → exec .ackReceive s
        = .next { s with hub := { s.hub with requests := s.hub.requests.filter fun x => x.id != r.id } })
    ∧ (r.heldInHub = false → s.input.flag = false → OnlyOnLine s r → ∀ k id m g, r.posters = [(k, id, m)] →
        s.gust? k = some g → (g.posted.any fun x => x.id == id) = true → exec .ackReceive s
          = .next { s with gusts := tabSet s.gusts k (withoutLine g id r.line)
                           hub := { s.hub with requests := s.hub.requests.filter fun x => x.id != r.id } })
    ∧ (r.heldInHub = false → s.input.flag = true → ∀ k id m g fr, r.posters = [(k, id, m)] → m ≠ 0 → s.gust? k = some g →
        (g.posted.any fun x => x.id == id) = true → s.front? g.front = some fr → fr.ended = false →
        ∃ t x, exec .ackReceive s = .next t ∧ t.front? g.front = some x ∧ x.ended = true
          ∧ ∀ y ∈ t.hub.requests, y.id ≠ r.id))
  ∧ (∀ (s : State) p, PacketTaken s p → p.inc ≠ s.hub.inc.getD p.part 0 →
    ∃ t, exec .requestPacketReceive s = .next t
      ∧ t = { s with hub := { s.hub with received := t.hub.received, dropInc := t.hub.dropInc } }
      ∧ t.hub.dropInc.toNat = min (2 ^ 32 - 1) (s.hub.dropInc.toNat + 1)
      ∧ tabGetD t.hub.received (p.peer * 8 + p.plane) 0 = tabGetD s.hub.received (p.peer * 8 + p.plane) 0 + 1)
  ∧ (∀ (s : State) p, PacketTaken s p → p.inc = s.hub.inc.getD p.part 0 →
    (∀ pa n, p.kind = .load pa n → pa < 0x18000000000 → ∃ t, exec .requestPacketReceive s = .next t
      ∧ t.busData = s.readBytes (s.own pa) n ∧ t.mem = s.mem ∧ t.hub.dropInc = s.hub.dropInc)
    ∧ (∀ pa b, p.kind = .store pa [(0, b)] → pa < 0x18000000000 → ∃ t, exec .requestPacketReceive s = .next t
      ∧ memGet t.mem (s.own pa) = b ∧ ∀ a, a ≠ s.own pa → memGet t.mem a = memGet s.mem a)
    ∧ (∀ pa b c, p.kind = .atomic pa 4 0 b c → pa + 4 ≤ 0x18000000000 → ∃ t, exec .requestPacketReceive s = .next t
      ∧ t.busData = bytesOf 4 (memNat s.mem (s.own pa) 4)
      ∧ memNat t.mem (s.own pa) 4 = (memNat s.mem (s.own pa) 4 + b.toNat) % 2 ^ 32)
    ∧ (∀ pa n nb lo hi, p.kind = .kvres pa n nb lo hi → pa + 8 ≤ 0x18000000000 → ∃ t, exec .requestPacketReceive s = .next t
      ∧ t.busData = bytesOf 8 (memNat s.mem (s.own pa) 8) ++ bytesOf 4 (reserveStatus (memNat s.mem (s.own pa) 8) n nb lo hi)
      ∧ memNat t.mem (s.own pa) 8 = (if reserveStatus (memNat s.mem (s.own pa) 8) n nb lo hi = 0
          then (memNat s.mem (s.own pa) 8 + n) % 2 ^ 64 else memNat s.mem (s.own pa) 8))
    ∧ (∀ pa n, p.kind = .load pa n → 0xD0000000000 ≤ pa → exec .requestPacketReceive s = .fault (.noSuchAddress pa)))
  ∧ (∀ (s : State) p, p = s.input.which → s.hub.domMask.getLsbD p = true → p ≠ s.self → tabGet? s.hub.peerInc p = none →
    (s.hub.requests = [] → s.gusts = [] → exec .incarnationNotice s
      = .next { s with hub := { s.hub with peerInc := tabSet s.hub.peerInc p s.input.incs } })
    ∧ (∀ r, s.hub.remapping = none → s.hub.requests = [r] → r.peer = p → r.heldInHub = true → s.gusts = [] →
      ∃ t x, exec .incarnationNotice s = .next t ∧ tabGet? t.hub.peerInc p = some s.input.incs ∧ t.hub.requests = [x]
        ∧ x = { r with heldInHub := false, packet := none, plane := planeUnder s.hub.remap r.line,
                       seq := tabGetD s.hub.sentOn (p * 8 + planeUnder s.hub.remap r.line) 0 }
        ∧ tabGetD t.hub.sentOn (p * 8 + planeUnder s.hub.remap r.line) 0
            = tabGetD s.hub.sentOn (p * 8 + planeUnder s.hub.remap r.line) 0 + 1
        ∧ t = { (match r.packet with | some q => s.writePacket q | none => s) with
                hub := { s.hub with peerInc := t.hub.peerInc, requests := t.hub.requests, sentOn := t.hub.sentOn } })
    ∧ (∀ k g r, s.hub.remapping = none → s.hub.requests = [] → s.gusts = [(k, g)] → g.a.wait = some (.reply r) →
      r.held = true → r.lines ≠ [] → (∀ l ∈ r.lines, l.1 = p) →
      ∃ t h, exec .incarnationNotice s = .next t ∧ t.gust? k = some h ∧ h.a.wait = some (.reply { r with held := false })))
  ∧ (∀ (s : State) p xs, p = s.input.which → s.hub.domMask.getLsbD p = true → p ≠ s.self →
    tabGet? s.hub.peerInc p = some xs →
    ((∀ q, q < 16 → xs.getD q 0 = s.input.incs.getD q 0) →
      exec .incarnationNotice s = .next { s with hub := { s.hub with peerInc := tabSet s.hub.peerInc p s.input.incs } })
    ∧ (∀ r, s.hub.requests = [r] → r.peer = p → r.part < 16 → r.posters = [] → r.engine = none →
      s.gusts = [] → xs.getD r.part 0 ≠ s.input.incs.getD r.part 0 →
      ∃ t, exec .incarnationNotice s = .next t ∧ t.hub.requests = [] ∧ t.mem = s.mem))
  ∧ (∀ (s : State), s.hub.remapping ≠ none → exec .requestTimeout s = .refused .noSuchEvent)
  ∧ (∀ (s : State) r, s.hub.remapping = none → s.input.flag = false →
    (s.hub.requests.find? fun x => x.id == s.input.which) = some r → r.engine = none →
    (s.hub.now.toNat < r.sentAt + 100000 → exec .requestTimeout s = .refused .noSuchEvent)
    ∧ (r.sentAt + 100000 ≤ s.hub.now.toNat → r.posters = [] → exec .requestTimeout s
        = .next { s with hub := { s.hub with requests := s.hub.requests.filter fun x => x.id != r.id } })
    ∧ (r.sentAt + 100000 ≤ s.hub.now.toNat → ∀ k id m g fr, r.posters = [(k, id, m)] → m ≠ 0 → s.gust? k = some g →
        (g.posted.any fun x => x.id == id) = true → s.front? g.front = some fr → fr.ended = false →
        ∃ t x, exec .requestTimeout s = .next t ∧ t.front? g.front = some x ∧ x.ended = true
          ∧ ∀ y ∈ t.hub.requests, y.id ≠ r.id))
  ∧ (∀ (s : State) k g r fr l, s.hub.remapping = none → s.input.flag = true → s.input.wr = false → s.input.count = 0 →
    k = s.input.which → s.gust? k = some g → g.a.wait = some (.reply r) → r.lines[s.input.off]? = some l →
    s.front? g.front = some fr → fr.ended = false →
    (s.hub.now.toNat < r.sentAt + 100000 → exec .requestTimeout s = .refused .noSuchEvent)
    ∧ (r.sentAt + 100000 ≤ s.hub.now.toNat →
      ∃ t x, exec .requestTimeout s = .next t ∧ t.front? g.front = some x ∧ x.ended = true))
  ∧ (∀ (s : State) k stat, k = s.input.which → k < 8 → s.hub.planeStat.getLsbD k = true →
    stat = s.hub.planeStat &&& ~~~(BitVec.ofNat 8 (2 ^ k)) →
    ∃ t, exec .planeFail s = .next t ∧ t.hub.planeStat = stat
      ∧ (s.hub.remapping = none → RemapStarted s t (some k) (failover s.hub.remap stat))
      ∧ (∀ r, s.hub.remapping = some r → RemapGoesOn s t r (some k) (failover r.next stat))
      ∧ (stat ≠ 0 → remapUp (failover s.hub.remap stat) stat = true))
  ∧ (∀ (s : State) p, p = s.input.which → s.hub.domMask.getLsbD p = true → p ≠ s.self →
    (s.input.flag = true → s.input.count < 8 → (∀ r, s.hub.remapping = some r → s.input.count ∉ r.failed) →
      ∃ t stat, exec .quiesceNotice s = .next t ∧ t.hub.planeStat = stat
        ∧ stat = s.hub.planeStat &&& ~~~(BitVec.ofNat 8 (2 ^ s.input.count))
        ∧ (s.hub.remapping = none → RemapStarted s t (some s.input.count) (failover s.hub.remap stat))
        ∧ ∀ r, s.hub.remapping = some r → RemapGoesOn s t r (some s.input.count) (failover r.next stat))
    ∧ (s.input.flag = false → s.hub.remapping = none → ∃ t, exec .quiesceNotice s = .next t
      ∧ t.hub.planeStat = s.hub.planeStat ∧ RemapStarted s t none (BitVec.ofNat 24 (natOfBytes s.input.data)))
    ∧ (∀ r, s.input.flag = true → s.input.count < 8 → s.hub.remapping = some r → s.input.count ∈ r.failed →
      exec .quiesceNotice s = .next s))
  ∧ (∀ (s : State) r p, s.hub.remapping = some r → p = s.input.which →
    ((∀ w ∈ r.waiting, w.1 ≠ p) →
      exec .receivedCountReport s = .refused .noSuchEvent ∧ exec .remapAnswerTimeout s = .refused .noSuchEvent)
    ∧ (s.hub.now.toNat < r.asked + 1000000 → exec .remapAnswerTimeout s = .refused .noSuchEvent)
    ∧ (∀ k, r.waiting = [(p, k)] →
      (∃ t, exec .receivedCountReport s = .next t ∧ t.hub.remapping = none ∧ t.hub.remap = r.next
        ∧ (s.hub.requests = [] → t.hub.requests = [])
        ∧ ∀ q, s.hub.requests = [q] → q.heldInHub = false → q.peer = p → q.plane = k → k ∈ r.failed →
          (q.seq < s.input.count → t.hub.requests = [{ q with sentAt := afterRemap s r.began q.sentAt }])
          ∧ (s.input.count ≤ q.seq → ∃ x, t.hub.requests = [x] ∧ x.id = q.id ∧ x.posters = q.posters
              ∧ x.plane = planeUnder r.next q.line ∧ x.sentAt = afterRemap s r.began q.sentAt
              ∧ x.seq = tabGetD s.hub.sentOn (p * 8 + planeUnder r.next q.line) 0))
        ∧ (r.asked + 1000000 ≤ s.hub.now.toNat →
          ∃ t, exec .remapAnswerTimeout s = .next t ∧ t.hub.remapping = none ∧ t.hub.remap = r.next
            ∧ tabGet? t.hub.peerInc p = none))
    ∧ (∀ k q j, r.waiting = [(p, k), (q, j)] → p ≠ q →
      (∃ t, exec .receivedCountReport s = .next t ∧ t.hub.remap = s.hub.remap
          ∧ t.hub.remapping = some { r with waiting := [(q, j)], counts := tabSet r.counts (p * 8 + k) s.input.count })
        ∧ (r.asked + 1000000 ≤ s.hub.now.toNat →
          ∃ t, exec .remapAnswerTimeout s = .next t ∧ t.hub.remap = s.hub.remap ∧ tabGet? t.hub.peerInc p = none
            ∧ t.hub.remapping = some { r with waiting := [(q, j)] })))
  ∧ (∀ (s : State), s.hub.remapping = none → exec .receivedCountReport s = .refused .noSuchEvent
    ∧ exec .remapAnswerTimeout s = .refused .noSuchEvent)
  ∧ (∀ (s : State) v, v = BitVec.ofNat 24 (natOfBytes s.input.data) →
    (remapUp v s.hub.planeStat = false → exec .remapWrite s = .next s)
    ∧ (remapUp v s.hub.planeStat = true → ∃ t, exec .remapWrite s = .next t ∧ t.hub.planeStat = s.hub.planeStat
      ∧ (s.hub.remapping = none → RemapStarted s t none v)
      ∧ ∀ r, s.hub.remapping = some r → RemapGoesOn s t r none v))
  ∧ (∀ (s : State), exec .dommaskWrite s
    = .next { s with hub := { s.hub with domMask := BitVec.ofNat 64 (natOfBytes s.input.data) } })
  ∧ (∀ (s : State), exec .dropincRead s
    = .next { s with hub := { s.hub with dropInc := 0 }, busData := bytesOf 4 s.hub.dropInc.toNat })
  ∧ ∀ (s : State) b rest, s.input.off < 64 → s.input.data = b :: rest →
    ∃ t, exec .lqownWrite s = .next t ∧ t.lqOwner s.input.off = b.toNat
      ∧ (∀ n, n ≠ s.input.off → t.lqOwner n = s.lqOwner n)
      ∧ t.lq (2 * s.input.off) = {} ∧ t.lq (2 * s.input.off + 1) = {}
      ∧ t = { s with hub := { s.hub with lqOwn := t.hub.lqOwn, lq := t.hub.lq } }

/-! ## Resets -/

/-- spec/13 R379 to R382, spec/14 R388, R397: what a partition reset, the resets that keep memory, the resets with full
bring-up, and the trips with their recoveries leave; a reset of a partition or of the package drains the resident gusts of
fronts that are not pre-emptible first (R371).
A step that has not come about is refused (log 5, NOTES, Stops). The model's readings: what each reset keeps and clears (log
35), commands in progress (log 11), which records are written after the reset (log 60), the contents of cleared memories
(log 2), and full bring-up (logs 4, 7). -/
def Obligations.Resets : Prop :=
  (∀ (s : State) q, q = s.input.which → q < 16 → s.parts.length = 16 → s.hub.inc.length = 16 →
    (∃ t, exec .preset s = .next t ∧ PartReset s t q 6 ∧ (NothingStarted s → QuietDrain s q → AreasWritten s t q))
    ∧ (∃ t, exec .vfFlr s = .next t ∧ PartReset s t q 4 ∧ (NothingStarted s → QuietDrain s q → AreasWritten s t q))
    ∧ ((s.part q).wdog ≠ 0 → (s.part q).wdLeft = 0 → ∃ t, exec .watchdogExpire s = .next t ∧ PartReset s t q 7)
    ∧ ((s.part q).wdog = 0 ∨ (s.part q).wdLeft ≠ 0 → exec .watchdogExpire s = .refused .noSuchEvent))
  ∧ (∀ (s : State), (∃ t, exec .pcieHotReset s = .next t ∧ KeptReset s t 3) ∧ (∃ t, exec .pfFlr s = .next t ∧ KeptReset s t 5)
    ∧ ∃ t, exec .fatalInternalError s = .next t ∧ PackageReset t 10 ∧ t.inReset = false ∧ FirstRecord s t 0x0E 0x0004
      ∧ (Quiet s → HubKept s t (s.hub.rstCount + 1) ∧ IncRisen s t))
  ∧ (∀ (s : State), (∃ t, exec .powerOn s = .next t ∧ FullReset s t 1 0)
    ∧ (∃ t, exec .pcieFundamentalReset s = .next t ∧ FullReset s t 2 s.hub.rstCount)
    ∧ ∃ t, exec .securityViolation s = .next t ∧ FullReset s t 9 (s.hub.rstCount + 1)
      ∧ FirstRecord s t 0x0B 0x0002)
  ∧ (∀ (s : State) d, d < 4 → 110 ≤ s.input.temps.getD d 0 → s.hub.trip = 0 →
    ∃ t, exec .thermalTrip s = .next t ∧ t.hub.trip = 8 ∧ t.inReset = true ∧ t.gusts = [] ∧ t.fronts = [] ∧ t.engs = []
      ∧ (∀ c, (t.core c).scratch = [] ∧ (t.core c).accum = []) ∧ (NothingStarted s → PackageRecord s t 0x0A 0x0002 8))
  ∧ (∀ (s : State), (∀ d, d < 4 → s.input.temps.getD d 0 < 110) → exec .thermalTrip s = .refused .noSuchEvent)
  ∧ (∀ (s : State), s.hub.trip = 0 → ∃ t, exec .supplyFaultTrip s = .next t ∧ t.hub.trip = 13 ∧ t.inReset = true ∧ t.gusts = []
      ∧ t.fronts = [] ∧ t.engs = [] ∧ ∀ c, (t.core c).scratch = [] ∧ (t.core c).accum = [])
  ∧ (∀ (s : State), s.hub.trip ≠ 0 → exec .thermalTrip s = .refused .noSuchEvent ∧ exec .supplyFaultTrip s = .refused .noSuchEvent)
  ∧ (∀ (s : State), s.hub.trip = 8 → (∀ d, d < 4 → s.input.temps.getD d 0 < 110) →
    ∃ t, exec .thermalTripRecovery s = .next t ∧ TripReset s t 8)
  ∧ (∀ (s : State), s.hub.trip ≠ 8 → exec .thermalTripRecovery s = .refused .noSuchEvent)
  ∧ (∀ (s : State), s.hub.trip = 13 → ∃ t, exec .supplyRailRecovery s = .next t ∧ TripReset s t 13 ∧ FirstRecord s t 0x09 0x0003)
  ∧ ∀ (s : State), s.hub.trip ≠ 13 → exec .supplyRailRecovery s = .refused .noSuchEvent

/-! ## Errors, the clock, the governor, the host -/

/-- spec/13 R374 to R377, spec/12 R356, spec/14 R394 to R397: errors are recorded with their recovery action and poison their line
or retire their core; the clock steps or slews; the governor sets the budgets of an interval.
A step that has not come about is refused (log 5, NOTES, Stops). The model's readings: the fields of the records (log 37), the
steps and the slew of the clock (log 33), the governor's bands and starvation (log 34). -/
def Obligations.ErrorsClockAndGovernor : Prop :=
  (∀ (s : State) pa, pa = s.input.off → regionOf pa = .hbm →
    (s.input.flag = false → ∃ t, exec .hbmEccError s = .next t ∧ PackageRecord s t 0x06 0x0001 1 ∧ t.poison = s.poison)
    ∧ (s.input.flag = true → ∃ t, exec .hbmEccError s = .next t ∧ PackageRecord s t 0x06 0x0002 5
        ∧ t.poison = setAdd s.poison (s.own pa / 128)))
  ∧ (∀ (s : State) pa, pa = s.input.off → regionOf pa = .hbf →
    (s.input.flag = false → ∃ t, exec .hbfReadError s = .next t ∧ PackageRecord s t 0x06 0x0003 1 ∧ t.poison = s.poison)
    ∧ (s.input.flag = true → ∃ t, exec .hbfReadError s = .next t ∧ PackageRecord s t 0x06 0x0004 5
        ∧ t.poison = setAdd s.poison (s.own pa / 128)))
  ∧ (∀ (s : State), s.input.which < 320 → ∃ t, exec .coreSramError s = .next t ∧ PackageRecord s t 0x0E 0x0001 6
      ∧ t.core s.input.which = { s.core s.input.which with retired := true } ∧ ∀ c, c ≠ s.input.which → t.core c = s.core c)
  ∧ (∀ (s : State), (s.input.flag = false → ∃ t, exec .dieLinkError s = .next t ∧ PackageRecord s t 0x0E 0x0002 1)
    ∧ (s.input.flag = true → ∃ t, exec .dieLinkError s = .next t ∧ PackageRecord s t 0x0E 0x0003 9)
    ∧ (s.input.flag = false → ∃ t, exec .pcieLinkError s = .next t ∧ PackageRecord s t 0x0D 0x0003 1)
    ∧ (s.input.flag = true → ∃ t, exec .pcieLinkError s = .next t ∧ PackageRecord s t 0x0D 0x0004 8))
  ∧ (∀ (s : State) x, x = s.input.offset →
    (1000000 < x → (s.sched.any fun e => e.2.valid) = false → s.hub.now.toNat + x.toNat < 2 ^ 64 →
      ∃ t, exec .ptpSync s = .next t ∧ t.hub.now.toNat = s.hub.now.toNat + x.toNat ∧ t.hub.slew = 0
        ∧ t.hub.ptpStat = (s.hub.ptpStat &&& 4) ||| 5 ∧ t.hub.lastSync = t.hub.now.toNat ∧ PtpTold s t ∧ t.mem = s.mem)
    ∧ (x ≤ 1000000 ∨ (s.sched.any fun e => e.2.valid) = true →
      ∃ t, exec .ptpSync s = .next t ∧ t.hub.now = s.hub.now ∧ t.hub.slew = x
        ∧ t.hub.ptpStat = (s.hub.ptpStat &&& 4) ||| (if x.natAbs < 100 then 1 else 0)
        ∧ t.hub.lastSync = s.hub.now.toNat ∧ PtpTold s t ∧ t.mem = s.mem))
  ∧ (∀ (s : State), (s.hub.ptpStat.getLsbD 1 = true ∨ s.hub.now.toNat < s.hub.lastSync + 4000000000 →
      exec .ptpHoldover s = .refused .noSuchEvent)
    ∧ (s.hub.ptpStat.getLsbD 1 = false → s.hub.lastSync + 4000000000 ≤ s.hub.now.toNat → ∃ t, exec .ptpHoldover s = .next t
      ∧ t.hub.ptpStat = s.hub.ptpStat ||| 2 ∧ PtpTold s t
      ∧ t = { s with hub := { s.hub with ptpStat := t.hub.ptpStat, msix := t.hub.msix } }))
  ∧ (∀ (s : State), s.dies.length = 4 → ∃ t, exec .governorInterval s = .next t ∧ t.hub.mW = s.input.count
    ∧ t.gusts = s.gusts ∧ t.engs = s.engs
    ∧ (∀ d, d < 4 → (t.die d).spent = 0 ∧ (t.die d).temp = s.input.temps.getD d (s.die d).temp
      ∧ (3800000 < s.input.count → (t.die d).budget = 0)
      ∧ (s.input.count ≤ 3400000 → s.input.temps.getD d (s.die d).temp ≤ 95 → (t.die d).budget = s.fullTokens d)
      ∧ (s.input.count ≤ 3400000 → ∀ n, s.input.temps.getD d (s.die d).temp = 95 + n →
          (t.die d).budget = s.fullTokens d * (10 - n) / 10)
      ∧ (s.leaveWaiting d = [] → (t.die d).starved = 0 ∧ (t.die d).grantedAll = true)))

/-- spec/12 R348 to R353, spec/09 R278, spec/00 R5: the host reads and writes memory through BAR4, the host window through BAR2,
and the registers through BAR0, each by a function that exists and out of reset.
An access by a function that does not answer, or beyond its window, is no event and is refused (log 5, NOTES, Stops). The
model's readings: host-written fields, unaligned offsets and the functions that exist (logs 23, 67), misaligned vectors kept
as written (log 63). -/
def Obligations.HostAccesses : Prop :=
  (∀ (s : State) q pa, s.answers s.input.fn = true → q = s.input.fn - 1 → pa = (s.part q).apBase.toNat + s.input.off →
    (∀ n, s.inAperture s.input.fn s.input.off n = true ↔ s.input.off + n ≤ 2 ^ s.hub.config.bar4.getD s.input.fn 30)
    ∧
    (∀ n, s.input.wr = false → n = min s.input.count 4096 → 0 < n → s.inAperture s.input.fn s.input.off n = true →
      (s.part q).inRange pa n = true → deviceMemory pa n = true →
      exec .bar4Access s = .next { s with busData := s.readBytes (s.own pa) n })
    ∧ (∀ n, s.input.wr = true → n = s.input.data.length → 0 < n → s.inAperture s.input.fn s.input.off n = true →
      (s.part q).inRange pa n = true → pa + n ≤ 0x18000000000 →
      ∃ t, exec .bar4Access s = .next t ∧ memGetBytes t.mem (s.own pa) n = s.input.data
        ∧ ∀ a, a < s.own pa ∨ s.own pa + n ≤ a → memGet t.mem a = memGet s.mem a)
    ∧ (∀ n, s.input.wr = true → n = s.input.data.length → 0 < n → s.inAperture s.input.fn s.input.off n = true →
      (s.part q).inRange pa n = true → deviceMemory pa n = true →
      regionOf pa = .hbf → exec .bar4Access s = .next s)
    ∧ (∀ n, s.input.wr = false → n = min s.input.count 4096 → 0 < n → s.inAperture s.input.fn s.input.off n = true →
      (s.part q).inRange pa n = false →
      ∃ t, exec .bar4Access s = .next t ∧ t.busData = List.replicate n 0xFF ∧ t.parts = s.parts ∧ t.gusts = s.gusts)
    ∧ (s.input.wr = false → s.inAperture s.input.fn s.input.off (min s.input.count 4096) = false →
      exec .bar4Access s = .refused .noSuchEvent))
  ∧ (∀ (s : State) fn, s.answers fn = true ↔ fn ≤ s.hub.config.vfs ∧ s.inReset = false)
  ∧ (∀ (s : State), s.answers s.input.fn = false →
    exec .bar4Access s = .refused .noSuchEvent ∧ exec .hostWindowAccess s = .refused .noSuchEvent)
  ∧ (∀ (s : State) o, s.input.fn = 0 → s.inReset = false → (∀ q, q < 16 → (s.part q).listed = []) → s.parts.length = 16 →
    o = s.own (winBase + s.input.off) →
    (∀ n, s.input.wr = false → n = min s.input.count 4096 → 0 < n → s.input.off + n ≤ 0x1000000 →
      exec .hostWindowAccess s = .next { s with busData := s.readBytes o n })
    ∧ (∀ b, s.input.wr = true → s.input.data = [b] → s.input.off < 0x1000000 → hubOnly (winBase + s.input.off) = false →
      ∃ t, exec .hostWindowAccess s = .next t ∧ memGet t.mem o = b ∧ ∀ a, a ≠ o → memGet t.mem a = memGet s.mem a)
    ∧ (∀ b, s.input.wr = true → s.input.data = [b] → s.input.off < 0x1000000 → hubOnly (winBase + s.input.off) = true →
      ∃ t, exec .hostWindowAccess s = .next t ∧ t.mem = s.mem))
  ∧ (∀ (s : State), s.input.fn ≠ 0 → 0x80000 ≤ s.input.off → exec .hostWindowAccess s = .refused .noSuchEvent)
  ∧ (∀ (s : State), s.input.fn = 0 → s.input.wr = true → s.input.data.length = 16 → s.hub.share.length = 16 → s.input.off = 0x20 →
    exec .registerWrite s = .next { s with hub := { s.hub with share := s.input.data } })
  ∧ (∀ (s : State), s.input.fn = 0 → s.input.wr = true → s.input.data.length = 8 → s.input.off = 0x68 →
    exec .registerWrite s = .next s)
  ∧ (∀ (s : State), s.input.fn = 0 → s.input.wr = false → s.input.count = 8 → s.input.off = 0x68 →
    exec .registerWrite s = .next { s with busData := bytesOf 8 s.hub.now.toNat })
  ∧ ∀ (s : State) q v, s.input.fn = q + 1 → q < s.hub.config.vfs → q < 16 → s.input.wr = true → s.parts.length = 16 → s.input.data = bytesOf 4 v →
    v < 2 ^ 32 →
    (s.input.off = 0x008 → v % 128 ≠ 0 → v % 128 ≤ 64 → exec .registerWrite s
      = .next (s.setPart q { s.part q with wcAge := BitVec.ofNat 7 v }))
    ∧ (s.input.off = 0x008 → v % 128 = 0 ∨ 64 < v % 128 → exec .registerWrite s = .next s)
    ∧ (∀ a, s.input.off = 0x1000 + 8 * a → a < 256 → ∃ t, exec .registerWrite s = .next t ∧ t = s.setPart q { s.part q with uvec := (t.part q).uvec }
        ∧ tabGetD (t.part q).uvec a 0
            = BitVec.ofNat 56 ((tabGetD (s.part q).uvec a 0).toNat / 2 ^ 32 * 2 ^ 32 + v))
    ∧ (s.input.off = 0x110 → exec .registerWrite s = .next (s.setPart q { s.part q with haltEn := v % 2 == 1 }))
    ∧ (s.input.off = 0x100 → v % 2 = 1 → s.hub.inc.length = 16 → ∃ t, exec .registerWrite s = .next t ∧ PartReset s t q 6
      ∧ (NothingStarted s → QuietDrain s q → AreasWritten s t q))

/-! ## Debug, installation, attestation and features -/

/-- spec/13 R383 to R386: the DBGACC register, the registers of the debug block, and the commands of Table 13 with their
refusals.
A step that has not come about is refused (log 5, NOTES, Stops). The model's readings are those of log 36; where save areas lie
is that of log 8. -/
def Obligations.DebugPortCommands : Prop :=
  (∀ (s : State), (s.dbg.en = false → exec .dbgacc s = .next { s with dbg := { s.dbg with capSt := 2 } })
    ∧ (s.dbg.en = true → s.input.wr = false → s.input.off = 0 →
        exec .dbgacc s = .next { s with dbg := { s.dbg with capData := 0x96160001, capSt := 0 } })
    ∧ (∀ v, s.dbg.en = true → s.input.wr = true → s.input.data = bytesOf 4 v → v < 2 ^ 32 →
        (s.input.off = 12 → exec .dbgacc s = .next { s with dbg :=
          { s.dbg with wData := BitVec.ofNat 32 v, capData := BitVec.ofNat 32 v, capSt := 0 } })
        ∧ (s.input.off = 1 → exec .dbgacc s = .next { s with dbg := { s.dbg with capData := BitVec.ofNat 32 v, capSt := 0 } })))
  ∧ (∀ (s : State) v, v = natOfBytes s.input.data →
    (v % 2 = 0 → exec .dbgenWrite s = .next { s with dbg := { s.dbg with en := false } })
    ∧ (v % 2 = 1 → s.dbg.en = true → exec .dbgenWrite s = .next s)
    ∧ (v % 2 = 1 → s.dbg.en = false → exec .dbgenWrite s = .next { s with
        dbg := { s.dbg with en := true }
        sec := { s.sec with m := listSet s.sec.m 3 (shake256 (s.sec.m.getD 3 [] ++ shake256 (asciiBytes "GRICA-ENABLE"))) } })
    ∧ (s.input.off = 0x008 → exec .dbgTargetWrite s = .next { s with dbg := { s.dbg with part := BitVec.ofNat 4 v } })
    ∧ (s.input.off = 0x00C → ∃ t, exec .dbgTargetWrite s = .next t ∧ t.dbg.loc = t.dbgLoc
        ∧ t = { s with dbg := { s.dbg with front := BitVec.ofNat 32 v, loc := t.dbg.loc } })
    ∧ (s.input.off = 0x010 → ∃ t, exec .dbgTargetWrite s = .next t ∧ t.dbg.loc = t.dbgLoc
        ∧ t = { s with dbg := { s.dbg with gust := BitVec.ofNat 16 v, loc := t.dbg.loc } })
    ∧ (s.input.off ≠ 0x008 → s.input.off ≠ 0x00C → s.input.off ≠ 0x010 → exec .dbgTargetWrite s = .refused .noSuchEvent)
    ∧ exec .dbgstatWrite s
        = .next (if v / 256 % 2 = 1 then { s with dbg := { s.dbg with bkpt := false } } else s))
  ∧ (∀ (s : State), s.dbg.st = 1 → s.dbg.cmd ≠ 8 →
    ∀ i ∈ [Instr.haltFront, .resumeFront, .stepGust, .readWindowWord, .writeWindowWord, .resetPartition, .resetPackage, .drainFront],
      exec i s = .next { s with dbg := { s.dbg with reason := 5 } })
  ∧ (∀ (s : State), s.dbg.st ≠ 1 → s.dbg.cmd ≠ 8 → s.dbgFront = none →
    DebugRefuses .haltFront s 2 ∧ DebugRefuses .resumeFront s 2 ∧ DebugRefuses .stepGust s 2 ∧ DebugRefuses .drainFront s 2)
  ∧ (∀ (s : State) f, s.dbg.st ≠ 1 → s.dbgFront = some f →
    (∃ t, DebugDone .haltFront s t ∧ t.fronts = s.fronts
      ∧ ∀ k, t.gust? k = (s.gust? k).map fun g => if g.front = f then { g with halted := true } else g)
    ∧ (∀ fr, s.front? f = some fr → ∃ t, DebugDone .resumeFront s t ∧ t.front? f = some { fr with drained := false }
      ∧ ∀ k, t.gust? k = (s.gust? k).map fun g => if g.front = f then { g with halted := false, stepOnce := false } else g)
    ∧ (s.dbg.cmd ≠ 8 → (∃ e ∈ s.gusts, e.2.front = f ∧ (e.2.halted = false ∨ resident e.1 = false ∨ e.2.waits = true)) →
      DebugRefuses .drainFront s 3)
    ∧ (s.dbg.cmd ≠ 8 → s.mayDrain f = true → s.drainable f = false →
      exec .drainFront s = .next { s with dbg := { s.dbg with st := 1, reason := 0, cmd := 8 } })
    ∧ (∀ fr, s.dbg.cmd ≠ 8 → s.mayDrain f = true → s.drainable f = true → s.front? f = some fr →
      s.twins = [] → (∀ e ∈ s.gusts, ∀ n, s.poisoned (s.own e.2.saveArea) n = false) →
      ∃ t, exec .drainFront s = .next t ∧ t.dbg.st = 2
        ∧ t.front? f = some { fr with drained := true, scratchBase := [], accumBase := [], mxPhys := [] }
        ∧ (∀ e ∈ t.gusts, e.2.front = f → resident e.1 = false)
        ∧ ∀ k g bs, (s.gusts.filter fun e => e.2.front == f) = [(k, g)] → s.gust? k = some g →
          bs = g.saveBytes (s.frontIdOf g) [] → memGetBytes t.mem (s.own g.saveArea) bs.length = bs
            ∧ ∀ a, a < s.own g.saveArea ∨ s.own g.saveArea + bs.length ≤ a → memGet t.mem a = memGet s.mem a))
  ∧ (∀ (s : State) f, s.dbg.cmd = 8 → s.dbgFront = some f → s.drainable f = false → exec .drainFront s = .refused .noSuchEvent)
  ∧ (∀ (s : State) k g, s.dbg.st ≠ 1 → s.dbgGust = some (k, g) →
    (s.canStep k g = false → DebugRefuses .stepGust s 3)
    ∧ (s.canStep k g = true → ∃ t, exec .stepGust s = .next t ∧ t.gust? k = some { g with stepOnce := true }
      ∧ t = { s with gusts := t.gusts, dbg := { s.dbg with st := 1, reason := 0, cmd := 3 } }
      ∧ ∀ j, j ≠ k → t.gust? j = s.gust? j))
  ∧ (∀ (s : State), s.dbg.st ≠ 1 → s.dbg.wAddr.toNat % 4 ≠ 0 →
    DebugRefuses .readWindowWord s 4 ∧ DebugRefuses .writeWindowWord s 4)
  ∧ (∀ (s : State) core a, s.dbg.st ≠ 1 → DebugNames s core (0xC00000 + a) → a % 4 = 0 → a + 4 ≤ scratchSize core →
    exec .readWindowWord s = .next { s with dbg :=
      { s.dbg with st := 2, reason := 0, cmd := 0, wData := BitVec.ofNat 32 (memNat (s.core core).scratch a 4) } }
    ∧ ∃ t, exec .writeWindowWord s = .next t ∧ t.dbg = { s.dbg with st := 2, reason := 0, cmd := 0 }
      ∧ memNat (t.core core).scratch a 4 = s.dbg.wData.toNat
      ∧ (∀ b, b < a ∨ a + 4 ≤ b → memGet (t.core core).scratch b = memGet (s.core core).scratch b)
      ∧ (∀ c, c ≠ core → t.core c = s.core c) ∧ t = { s with cores := t.cores, dbg := t.dbg })
  ∧ (∀ (s : State) core b n l g, s.dbg.st ≠ 1 → DebugNames s core (b * 0x10000 + n * 128 + l * 4) → b < 128 → n < 512 → l < 32 →
    s.gust? (core * 128 + b) = some g →
    (g.halted = false → DebugRefuses .readWindowWord s 3 ∧ DebugRefuses .writeWindowWord s 3)
    ∧ (g.halted = true → g.twin = none → n < g.alloc → (tabGetD g.regs n (.u 0)).isD = false →
      exec .readWindowWord s = .next { s with dbg :=
        { s.dbg with st := 2, reason := 0, cmd := 0, wData := g.lane (tabGetD g.regs n (.u 0)) l } }))
  ∧ (∀ (s : State), s.dbg.st ≠ 1 → s.parts.length = 16 → s.hub.inc.length = 16 →
    ∃ t, exec .resetPartition s = .next t ∧ PartReset s t s.dbg.part.toNat 11 ∧ t.dbg.st = 2)
  ∧ (∀ (s : State), s.dbg.st ≠ 1 → ∃ t, exec .resetPackage s = .next t ∧ KeptReset s t 12)
  ∧ (∀ (s : State) v, v < 16 → s.dbg.st ≠ 1 → v = 0 ∨ 8 < v → s.debugCommand v = s.dbgRefuse 1)

/-- spec/14 R390 to R392: installation, attestation and the accepted features.
A step that has not come about is refused (log 5, NOTES, Stops), and a report at an address that no region holds is the fault
noSuchAddress (NOTES, Stops). The model's readings: the keys (log 7), SHAKE256 and Ed448 (log 10), when features are tested (log
15), a misaligned ATTPA used aligned (log 63). -/
def Obligations.InstallationAttestationAndFeatures : Prop :=
  (∀ (s : State),
    exec .instgo s = .next (if s.sec.instStat = 1 then s else { s with sec := { s.sec with instStat := 1 } })
    ∧ exec .attgo s = .next (if s.sec.attStat = 1 then s else { s with sec := { s.sec with attStat := 1 } })
    ∧ (s.input.flag = true → s.input.data.length = 32 →
      exec .attParamWrite s = .next { s with sec := { s.sec with attNonce := s.input.data, attStat := 0 } })
    ∧ (s.input.flag = false → exec .attParamWrite s = .next { s with sec :=
        { s.sec with attPa := BitVec.ofNat 44 (natOfBytes s.input.data), attStat := 0 } }))
  ∧ (∀ (s : State) k v, k = s.input.which → v = BitVec.ofNat 32 (natOfBytes s.input.data) →
    (4 ≤ k → exec .feataccWrite s = .refused .noSuchEvent)
    ∧ (k < 4 → s.sec.featLock = true → exec .feataccWrite s = .next s)
    ∧ (k < 3 → s.sec.featLock = false → ∃ t, exec .feataccWrite s = .next t
      ∧ t = { s with sec := { s.sec with featAcc := t.sec.featAcc } }
      ∧ ∀ i, i < 128 → t.sec.featAcc.getLsbD i
          = if 32 * k ≤ i ∧ i < 32 * k + 32 then v.getLsbD (i - 32 * k) else s.sec.featAcc.getLsbD i)
    ∧ (k = 3 → s.sec.featLock = false → ∃ t, exec .feataccWrite s = .next t
      ∧ t = { s with sec := { s.sec with featAcc := t.sec.featAcc, featSet := t.features, featLock := true } }
      ∧ (∀ i, i < 128 → t.sec.featAcc.getLsbD i = if 96 ≤ i then v.getLsbD (i - 96) else s.sec.featAcc.getLsbD i)
      ∧ ∀ i, i < 128 → t.features.getLsbD i
          = (i == 0 || (i < 12 && s.sec.bootStat == 1 && Config.featAvail.getLsbD i
              && if 96 ≤ i then v.getLsbD (i - 96) else s.sec.featAcc.getLsbD i))))
  ∧ (∀ (s : State), s.sec.instStat ≠ 1 → exec .installationComplete s = .refused .noSuchEvent)
  ∧ (∀ (s : State) bs a, s.sec.instStat = 1 → a = s.own s.sec.instPa.toNat → bs = s.readBytes a s.sec.instLen.toNat →
    (s.objectOk bs = false → ∃ t, exec .installationComplete s = .next t ∧ NotInstalled s t 3)
    ∧ (∀ want, s.objectOk bs = true → want = BitVec.ofNat 128 (natOfBytes ((bs.drop 0x38).take 16)) →
      (want &&& ~~~s.features ≠ 0 → ∃ t, exec .installationComplete s = .next t ∧ NotInstalled s t 4)
      ∧ (want &&& ~~~s.features = 0 → 64 ≤ s.sec.ranges.length → ∃ t, exec .installationComplete s = .next t
        ∧ NotInstalled s t 5)
      ∧ (want &&& ~~~s.features = 0 → s.sec.ranges.length < 64 → exec .installationComplete s = .next { s with sec :=
          { s.sec with instStat := 2
                       ranges := s.sec.ranges ++ [(natOfBytes ((bs.drop 0x30).take 8), a, s.sec.instLen.toNat)]
                       m := listSet s.sec.m 4 (shake256 (s.sec.m.getD 4 [] ++ shake256 (bs.take (s.sec.instLen.toNat - 192)))) } })))
  ∧ (∀ (s : State), s.sec.attStat ≠ 1 → exec .attestationReportWritten s = .refused .noSuchEvent)
  ∧ ∀ (s : State) pa a, s.sec.attStat = 1 → pa = s.sec.attPa.toNat / 64 * 64 → a = s.own pa →
    (regionOf pa = .onchip → exec .attestationReportWritten s = .fault (.noSuchAddress pa))
    ∧ (pa + 768 ≤ 0x18000000000 → s.sec.m.length = 8 → ∃ t, exec .attestationReportWritten s = .next t ∧ t.sec.attStat = 2
      ∧ memNat t.mem a 2 = 1 ∧ memGetBytes t.mem (a + 8) 32 = padTo 32 s.sec.attNonce
      ∧ memNat t.mem (a + 0x28) 8 = s.hub.now.toNat ∧ memNat t.mem (a + 0x30) 16 = s.features.toNat
      ∧ memGetBytes t.mem (a + 0x40) 57 = padTo 57 s.sec.idKey
      ∧ memGetBytes t.mem (a + 0x80) 512 = s.sec.m.flatMap (padTo 64)
      ∧ memGetBytes t.mem (a + 0x280) 114
          = padTo 114 (ed448Sign Config.identityKey (asciiBytes "DV9616-ATTEST") (shake256 (memGetBytes t.mem a 0x280)))
      ∧ ∀ b, b < a ∨ a + 768 ≤ b → memGet t.mem b = memGet s.mem b)

/-! ## Steps, encodings, memory, reset -/

/-- A step runs the instruction that it decodes (spec/03 R71, R72, spec/13 R358, spec/11 R323): the words fetched at the slot's
PC, with what fetching changes; a turn of the agenda that is an event runs that event, after what the outside has done; a
position that its quadrant does not choose does not issue. With twins, the step runs for the gusts and for their twins
(R372). A word is fetched only from a page that passes the tests of R358, and a fetch fault comes before every other fault
(R359).
The agenda and its refusals are the model's own (log 5, NOTES, Stops). That fetching words from a page that needs a feature
which is not accepted gives FLT.ILLEGAL cause 7, behind every fetch fault and every other cause of FLT.ILLEGAL and without
XADDR, is the model's reading (logs 15 and 57). -/
def Obligations.StepRunsTheDecodedInstruction : Prop :=
  (∀ (s : State) i x rest, s.agenda = .event i x :: rest → s.twins = [] →
    step s = withTwins (exec i { s with agenda := rest, input := x, cut := false }.outside))
  ∧ (∀ (s : State) k b cut g rest, s.agenda = .issue k b cut :: rest → s.gust? k = some g → g.entryDue k = false →
    ({ s with agenda := rest, cut := cut }.ready k g b = false ∨ { s with agenda := rest, cut := cut }.chosen k b = false) →
    step s = .refused .noSuchEvent)
  ∧ (∀ (s : State) k b cut g rest, IssuesNext s k b cut g rest →
    (chosen s k b cut g rest).cur = k ∧ (chosen s k b cut g rest).curB = b ∧ (chosen s k b cut g rest).mem = s.mem
    ∧ (chosen s k b cut g rest).agenda = rest
    ∧ (chosen s k b cut g rest).gust? k = some { g with stepOnce := false, nextB := !b })
  ∧ (∀ (s : State) k b cut g rest t ws lacks i, IssuesNext s k b cut g rest →
    (chosen s k b cut g rest).fetchGroup k b (g.slot b).pc 3 [] false = (t, .ok (ws, lacks)) → i = (decodeGroup ws).instr →
    (lacks = false ∨ illegalCause i t g ≠ none → step s = withTwins (exec i t))
    ∧ (lacks = true → illegalCause i t g = none →
      step s = withTwins (exec (.fetchFault 0x01 7 ((g.slot b).pc.zeroExtend 64)) t)))
  ∧ (∀ (s : State) k b cut g rest t code cause va, IssuesNext s k b cut g rest →
    (chosen s k b cut g rest).fetchGroup k b (g.slot b).pc 3 [] false = (t, .error (code, cause, va)) →
      step s = withTwins (exec (.fetchFault code cause (va.zeroExtend 64)) t))
  ∧ (∀ (s : State) k b cut g rest v, IssuesNext s k b cut g rest →
    (chosen s k b cut g rest).translate (coreOf k) (s.frontOf g).part (s.frontOf g).asid (g.slot b).pc.toNat = (v, none) →
      step s = withTwins (exec (.fetchFault 0x08 2 ((g.slot b).pc.zeroExtend 64)) v))
  ∧ (∀ (s : State) k b cut g rest v x d w, IssuesNext s k b cut g rest →
    (chosen s k b cut g rest).translate (coreOf k) (s.frontOf g).part (s.frontOf g).asid (g.slot b).pc.toNat = (v, some x) →
    d = x.domain (g.slot b).pc.toNat →
    (x.mig = 2 → step s = withTwins (exec (.fetchFault 0x08 3 ((g.slot b).pc.zeroExtend 64)) v))
    ∧ (x.mig ≠ 2 → x.x = false → step s = withTwins (exec (.fetchFault 0x09 9 ((g.slot b).pc.zeroExtend 64)) v))
    ∧ (x.mig ≠ 2 → x.x = true → v.poisoned d 4 = true →
      step s = withTwins (exec (.fetchFault 0x0B 3 ((g.slot b).pc.zeroExtend 64)) v))
    ∧ (x.mig ≠ 2 → x.x = true → v.poisoned d 4 = false → d % 4 = 0 → tabGet? g.prefetch (d / 32) = none →
      tabGet? (v.core (coreOf k)).icache (d / 32) = none → w = BitVec.ofNat 32 (memNat v.mem d 4) → isPfx w = false →
      ∃ t h, t.mem = v.mem ∧ t.cur = k ∧ t.curB = b ∧ t.gust? k = some h
        ∧ h = { g with a := h.a, b := h.b, stepOnce := false, nextB := !b, prefetch := h.prefetch }
        ∧ h.slot b = { g.slot b with blk := some (d / 32) } ∧ h.slot (!b) = g.slot (!b)
        ∧ (v.lacksFeature x = false ∨ illegalCause (decodeGroup [w]).instr t g ≠ none →
          step s = withTwins (exec (decodeGroup [w]).instr t))
        ∧ (v.lacksFeature x = true → illegalCause (decodeGroup [w]).instr t g = none →
          step s = withTwins (exec (.fetchFault 0x01 7 ((g.slot b).pc.zeroExtend 64)) t))))
  ∧ ∀ (s t u : State), s.twins ≠ [] → turn s = .next t → turn s.swapTwins = .next u → step s = .next (t.pairTwins u s.twins)

/-- Decoding the words of a legal instruction gives it back, with every prefix and field at every value that the encoding
admits (spec/03 R72 to R83); its group takes exactly those words. -/
def Obligations.EncodeThenDecode : Prop :=
  ∀ i : Instr, i.wf = true → decodeGroup (encode i) = ⟨i, (encode i).length⟩ ∧ takeGroup (encode i) = some (encode i)

/-- spec/03 Table 8: each row's words decode to its instruction, which is legal, and encode to the same words. -/
def Obligations.WorkedEncodingsDecode : Prop :=
  ∀ e ∈ workedEncodings, decodeGroup e.1 = ⟨e.2, e.1.length⟩ ∧ encode e.2 = e.1 ∧ e.2.wf = true

/-- Every step keeps memory in its canonical form: rising addresses, no listed byte that an unlisted one would read as. -/
def Obligations.MemoryKeepsItsForm : Prop :=
  ∀ s t : State, Memory.wf s.mem = true → step s = .next t → Memory.wf t.mem = true

/-- The state right after power-on (spec/12 Tables 5, 6 and 8, spec/13 Tables 9 and 12, spec/14 Table 1): the reset values that
the spec gives, and memory in its canonical form. -/
def Obligations.ResetState : Prop :=
  Memory.wf State.reset.mem = true ∧ State.reset.gusts = [] ∧ State.reset.fronts = [] ∧ State.reset.inReset = true
  ∧ State.reset.hub.remap = 0xFAC688 ∧ State.reset.hub.planeStat = 0xFF ∧ State.reset.hub.ptpStat = 0
  ∧ State.reset.hub.dropInc = 0 ∧ State.reset.hub.rstCause = 1 ∧ State.reset.hub.rstCount = 0
  ∧ State.reset.hub.domMask.getLsbD State.reset.self = true ∧ (∀ n, State.reset.lqOwner n = 0xFF)
  ∧ (∀ q, q < 16 → State.reset.hub.share.getD q 1 = 0 ∧ State.reset.hub.leaveShare.getD q 1 = 0
      ∧ State.reset.hub.poolShare.getD q 1 = 0 ∧ State.reset.hub.hbmShare.getD q 1 = 0)
  ∧ (∀ q, q < 16 → (State.reset.part q).wcAge = 8 ∧ (State.reset.part q).apBase = 0 ∧ (State.reset.part q).prstCause = 1
      ∧ (State.reset.part q).wdog = 0 ∧ (State.reset.part q).wdLeft = 0 ∧ (State.reset.part q).haltEn = false
      ∧ (State.reset.part q).twin = 0 ∧ (∀ a, tabGetD (State.reset.part q).uvec a 0 = 0 ∧ tabGetD (State.reset.part q).svec a 0 = 0)
      ∧ ∀ k, k < 8 → (State.reset.part q).pfBase.getD k 1 = 0 ∧ (State.reset.part q).pfAs.getD k 1 = 0
        ∧ (State.reset.part q).pfMiss.getD k 1 = 0 ∧ (State.reset.part q).pfLast.getD k 0 = 256)
  ∧ State.reset.dbg.en = false ∧ State.reset.dbg.part = 0 ∧ State.reset.dbg.front = 0 ∧ State.reset.dbg.gust = 0
  ∧ State.reset.dbgStat = 0 ∧ State.reset.dbg.evFront = 0 ∧ State.reset.dbg.evGust = 0 ∧ State.reset.dbg.loc = 0
  ∧ State.reset.dbg.wAddr = 0 ∧ State.reset.dbg.wData = 0
  ∧ State.reset.sec.bootStat = 0 ∧ State.reset.sec.featAcc = 0 ∧ State.reset.sec.featLock = false ∧ State.reset.sec.instPa = 0
  ∧ State.reset.sec.instLen = 0 ∧ State.reset.sec.instStat = 0 ∧ State.reset.sec.attPa = 0 ∧ State.reset.sec.attStat = 0

end Statements
end

