-- ==== Sys2Proof/Laws/Tables.lean ====
section
/-! SUPPORT. Laws of sparse tables, fixed lists, masks and lane columns. -/

namespace Sys2Proof.Machine

variable {α : Type}

/-- Reading the key just set. -/
@[simp] theorem tabGet?_tabSet_self (t : Tab α) (n : Nat) (v : α) : tabGet? (tabSet t n v) n = some v := by
  induction t with
  | nil => simp [tabSet, tabGet?]
  | cons e t ih =>
    obtain ⟨k, w⟩ := e
    simp only [tabSet]
    split
    · simp [tabGet?]
    · split
      · simp [tabGet?]
      · rw [tabGet?, if_neg (by omega), ih]

/-- Reading another key. -/
theorem tabGet?_tabSet_ne (t : Tab α) {m n : Nat} (v : α) (h : m ≠ n) : tabGet? (tabSet t n v) m = tabGet? t m := by
  induction t with
  | nil => simp [tabSet, tabGet?, Ne.symm h]
  | cons e t ih =>
    obtain ⟨k, w⟩ := e
    simp only [tabSet]
    split
    · rw [tabGet?, if_neg (Ne.symm h)]
    · split
      · subst_vars; rw [tabGet?, if_neg (Ne.symm h), tabGet?, if_neg (Ne.symm h)]
      · simp only [tabGet?, ih]

/-- Setting a key twice keeps the last value. -/
@[simp] theorem tabSet_tabSet (t : Tab α) (n : Nat) (v w : α) : tabSet (tabSet t n v) n w = tabSet t n w := by
  induction t with
  | nil => simp [tabSet]
  | cons e t ih =>
    obtain ⟨k, x⟩ := e
    by_cases h1 : n < k
    · simp [tabSet, h1]
    · by_cases h2 : n = k
      · subst h2; simp [tabSet]
      · simp [tabSet, h1, h2, ih]

@[simp] theorem tabGetD_tabSet_self (t : Tab α) (n : Nat) (v d : α) : tabGetD (tabSet t n v) n d = v := by
  simp [tabGetD]

theorem tabGetD_tabSet_ne (t : Tab α) {m n : Nat} (v d : α) (h : m ≠ n) :
    tabGetD (tabSet t n v) m d = tabGetD t m d := by simp [tabGetD, tabGet?_tabSet_ne t v h]

theorem keysFrom_mono {lo hi : Nat} {t : Tab α} (h : lo ≤ hi) (ht : keysFrom hi t = true) : keysFrom lo t = true := by
  cases t with
  | nil => rfl
  | cons e t => simp_all [keysFrom]; omega

theorem keysFrom_tabSet {lo : Nat} {t : Tab α} (n : Nat) (v : α) (h : keysFrom lo t = true) (hn : lo ≤ n) :
    keysFrom lo (tabSet t n v) = true := by
  induction t generalizing lo with
  | nil => simp [tabSet, keysFrom, hn]
  | cons e t ih =>
    obtain ⟨k, w⟩ := e
    simp only [keysFrom, Bool.and_eq_true, decide_eq_true_eq] at h
    simp only [tabSet]
    split
    · simp only [keysFrom, Bool.and_eq_true, decide_eq_true_eq]; exact ⟨hn, by omega, h.2⟩
    · split
      · subst_vars; simp [keysFrom, h]
      · simp only [keysFrom, Bool.and_eq_true, decide_eq_true_eq]; exact ⟨h.1, ih h.2 (by omega)⟩

theorem keysFrom_tabDel {lo : Nat} {t : Tab α} (n : Nat) (h : keysFrom lo t = true) : keysFrom lo (tabDel t n) = true := by
  induction t generalizing lo with
  | nil => rfl
  | cons e t ih =>
    obtain ⟨k, w⟩ := e
    simp only [keysFrom, Bool.and_eq_true, decide_eq_true_eq] at h
    simp only [tabDel]
    split
    · exact ih (keysFrom_mono (by omega) h.2)
    · simp only [keysFrom, Bool.and_eq_true, decide_eq_true_eq]; exact ⟨h.1, ih h.2⟩

/-- A key below every key of a table is not listed. -/
theorem tabGet?_below {lo n : Nat} {t : Tab α} (h : keysFrom lo t = true) (hn : n < lo) : tabGet? t n = none := by
  induction t generalizing lo with
  | nil => rfl
  | cons e t ih =>
    obtain ⟨k, w⟩ := e
    simp only [keysFrom, Bool.and_eq_true, decide_eq_true_eq] at h
    rw [tabGet?, if_neg (by omega), ih h.2 (by omega)]

@[simp] theorem length_listSet (t : List α) (n : Nat) (v : α) : (listSet t n v).length = t.length := by
  induction t generalizing n with
  | nil => rfl
  | cons x t ih => cases n <;> simp [listSet, ih]

theorem getD_listSet_self (t : List α) (n : Nat) (v d : α) (h : n < t.length) : (listSet t n v).getD n d = v := by
  induction t generalizing n with
  | nil => simp at h
  | cons x t ih =>
    cases n with
    | zero => simp [listSet]
    | succ n => simpa [listSet] using ih n (by simpa using h)

theorem getD_listSet_ne (t : List α) (m n : Nat) (v d : α) (h : m ≠ n) : (listSet t n v).getD m d = t.getD m d := by
  induction t generalizing n m with
  | nil => simp [listSet]
  | cons x t ih =>
    cases n with
    | zero => cases m with
      | zero => exact absurd rfl h
      | succ m => simp [listSet]
    | succ n => cases m with
      | zero => simp [listSet]
      | succ m => simpa [listSet] using ih m n (by omega)

/-- Lane l of a column. -/
theorem laneGet_column (f : Nat → Word) {l : Nat} (h : l < 32) : laneGet (column f) l = f l := by
  have : lanes = List.range 32 := rfl
  simp [laneGet, column, this, List.getD_eq_getElem?_getD, h]

/-- The sum of the powers of two of the lanes below n that p admits, bit by bit. -/
theorem maskOf_bits (p : Nat → Bool) (n : Nat) :
    (List.range n).foldl (fun k l => if p l then k + 2 ^ l else k) 0 < 2 ^ n ∧
      ∀ l < n, ((List.range n).foldl (fun k l => if p l then k + 2 ^ l else k) 0).testBit l = p l := by
  induction n with
  | zero => simp
  | succ n ih =>
    obtain ⟨hlt, hb⟩ := ih
    rw [List.range_succ, List.foldl_append]
    simp only [List.foldl_cons, List.foldl_nil]
    set x := (List.range n).foldl (fun k l => if p l then k + 2 ^ l else k) 0
    have h2 : (2 : Nat) ^ (n + 1) = 2 ^ n + 2 ^ n := by ring
    refine ⟨by split <;> omega, fun l hl => ?_⟩
    by_cases hp : p n
    · rw [if_pos hp, Nat.add_comm]
      rcases Nat.lt_or_ge l n with h | h
      · rw [Nat.testBit_two_pow_add_gt h, hb l h]
      · obtain rfl : l = n := by omega
        rw [Nat.testBit_two_pow_add_eq, Nat.testBit_lt_two_pow hlt, hp]; rfl
    · rw [if_neg hp]
      rcases Nat.lt_or_ge l n with h | h
      · exact hb l h
      · obtain rfl : l = n := by omega
        rw [Nat.testBit_lt_two_pow hlt]; simpa using hp

/-- Lane l of a mask made from a predicate. -/
@[simp] theorem inMask_maskOf (p : Nat → Bool) {l : Nat} (h : l < 32) : inMask (maskOf p) l = p l := by
  have hl : lanes = List.range 32 := rfl
  have := maskOf_bits p 32
  simp only [inMask, maskOf, hl, BitVec.getLsbD_ofNat, h, decide_true, Bool.true_and]
  exact this.2 l h

theorem inMask_lt {m : Word} {l : Nat} (h : inMask m l = true) : l < 32 := by
  by_contra hn
  rw [inMask, BitVec.getLsbD_of_ge _ _ (by omega)] at h
  exact absurd h (by simp)

@[simp] theorem inMask_and (a b : Word) (l : Nat) : inMask (a &&& b) l = (inMask a l && inMask b l) := by
  simp [inMask]
@[simp] theorem inMask_or (a b : Word) (l : Nat) : inMask (a ||| b) l = (inMask a l || inMask b l) := by
  simp [inMask]

/-- Two masks with the same lanes are equal. -/
theorem mask_ext {a b : Word} (h : ∀ l, l < 32 → inMask a l = inMask b l) : a = b := BitVec.eq_of_getLsbD_eq h

@[simp] theorem mem_lanes {l : Nat} : l ∈ lanes ↔ l < 32 := by
  have : lanes = List.range 32 := rfl
  simp [this]

/-- The mask of no lane. -/
@[simp] theorem maskOf_false : maskOf (fun _ => false) = 0 := by decide

theorem flagMask_none (wm : Word) : (wm &&& maskOf fun _ => false) = 0 := by simp

end Sys2Proof.Machine
end

