-- ==== Sys2Proof/Laws/State.lean ====
section
/-! SUPPORT. What each update of State does to each field, and what the lookups read after it. -/

namespace Sys2Proof.Machine

/-! ## State.setGust -/

@[simp] theorem State.setGust_gusts (s : State) (k : Nat) (x : Gust) : (s.setGust k x).gusts = tabSet s.gusts k x := rfl
@[simp] theorem State.setGust_twins (s : State) (k : Nat) (x : Gust) : (s.setGust k x).twins = s.twins := rfl
@[simp] theorem State.setGust_twinRun (s : State) (k : Nat) (x : Gust) : (s.setGust k x).twinRun = s.twinRun := rfl
@[simp] theorem State.setGust_cores (s : State) (k : Nat) (x : Gust) : (s.setGust k x).cores = s.cores := rfl
@[simp] theorem State.setGust_dies (s : State) (k : Nat) (x : Gust) : (s.setGust k x).dies = s.dies := rfl
@[simp] theorem State.setGust_engs (s : State) (k : Nat) (x : Gust) : (s.setGust k x).engs = s.engs := rfl
@[simp] theorem State.setGust_fronts (s : State) (k : Nat) (x : Gust) : (s.setGust k x).fronts = s.fronts := rfl
@[simp] theorem State.setGust_insts (s : State) (k : Nat) (x : Gust) : (s.setGust k x).insts = s.insts := rfl
@[simp] theorem State.setGust_sched (s : State) (k : Nat) (x : Gust) : (s.setGust k x).sched = s.sched := rfl
@[simp] theorem State.setGust_parts (s : State) (k : Nat) (x : Gust) : (s.setGust k x).parts = s.parts := rfl
@[simp] theorem State.setGust_hub (s : State) (k : Nat) (x : Gust) : (s.setGust k x).hub = s.hub := rfl
@[simp] theorem State.setGust_dbg (s : State) (k : Nat) (x : Gust) : (s.setGust k x).dbg = s.dbg := rfl
@[simp] theorem State.setGust_sec (s : State) (k : Nat) (x : Gust) : (s.setGust k x).sec = s.sec := rfl
@[simp] theorem State.setGust_mem (s : State) (k : Nat) (x : Gust) : (s.setGust k x).mem = s.mem := rfl
@[simp] theorem State.setGust_memTags (s : State) (k : Nat) (x : Gust) : (s.setGust k x).memTags = s.memTags := rfl
@[simp] theorem State.setGust_poison (s : State) (k : Nat) (x : Gust) : (s.setGust k x).poison = s.poison := rfl
@[simp] theorem State.setGust_cur (s : State) (k : Nat) (x : Gust) : (s.setGust k x).cur = s.cur := rfl
@[simp] theorem State.setGust_curB (s : State) (k : Nat) (x : Gust) : (s.setGust k x).curB = s.curB := rfl
@[simp] theorem State.setGust_cut (s : State) (k : Nat) (x : Gust) : (s.setGust k x).cut = s.cut := rfl
@[simp] theorem State.setGust_input (s : State) (k : Nat) (x : Gust) : (s.setGust k x).input = s.input := rfl
@[simp] theorem State.setGust_busData (s : State) (k : Nat) (x : Gust) : (s.setGust k x).busData = s.busData := rfl
@[simp] theorem State.setGust_agenda (s : State) (k : Nat) (x : Gust) : (s.setGust k x).agenda = s.agenda := rfl
@[simp] theorem State.setGust_turn (s : State) (k : Nat) (x : Gust) : (s.setGust k x).turn = s.turn := rfl
@[simp] theorem State.setGust_free (s : State) (k : Nat) (x : Gust) : (s.setGust k x).free = s.free := rfl
@[simp] theorem State.setGust_nextFront (s : State) (k : Nat) (x : Gust) : (s.setGust k x).nextFront = s.nextFront := rfl
@[simp] theorem State.setGust_nextInst (s : State) (k : Nat) (x : Gust) : (s.setGust k x).nextInst = s.nextInst := rfl
@[simp] theorem State.setGust_nextPosted (s : State) (k : Nat) (x : Gust) : (s.setGust k x).nextPosted = s.nextPosted := rfl
@[simp] theorem State.setGust_nextWait (s : State) (k : Nat) (x : Gust) : (s.setGust k x).nextWait = s.nextWait := rfl
@[simp] theorem State.setGust_nextReady (s : State) (k : Nat) (x : Gust) : (s.setGust k x).nextReady = s.nextReady := rfl
@[simp] theorem State.setGust_inReset (s : State) (k : Nat) (x : Gust) : (s.setGust k x).inReset = s.inReset := rfl

/-! ## State.setCore -/

@[simp] theorem State.setCore_gusts (s : State) (k : Nat) (x : Core) : (s.setCore k x).gusts = s.gusts := rfl
@[simp] theorem State.setCore_twins (s : State) (k : Nat) (x : Core) : (s.setCore k x).twins = s.twins := rfl
@[simp] theorem State.setCore_twinRun (s : State) (k : Nat) (x : Core) : (s.setCore k x).twinRun = s.twinRun := rfl
@[simp] theorem State.setCore_cores (s : State) (k : Nat) (x : Core) : (s.setCore k x).cores = tabSet s.cores k x := rfl
@[simp] theorem State.setCore_dies (s : State) (k : Nat) (x : Core) : (s.setCore k x).dies = s.dies := rfl
@[simp] theorem State.setCore_engs (s : State) (k : Nat) (x : Core) : (s.setCore k x).engs = s.engs := rfl
@[simp] theorem State.setCore_fronts (s : State) (k : Nat) (x : Core) : (s.setCore k x).fronts = s.fronts := rfl
@[simp] theorem State.setCore_insts (s : State) (k : Nat) (x : Core) : (s.setCore k x).insts = s.insts := rfl
@[simp] theorem State.setCore_sched (s : State) (k : Nat) (x : Core) : (s.setCore k x).sched = s.sched := rfl
@[simp] theorem State.setCore_parts (s : State) (k : Nat) (x : Core) : (s.setCore k x).parts = s.parts := rfl
@[simp] theorem State.setCore_hub (s : State) (k : Nat) (x : Core) : (s.setCore k x).hub = s.hub := rfl
@[simp] theorem State.setCore_dbg (s : State) (k : Nat) (x : Core) : (s.setCore k x).dbg = s.dbg := rfl
@[simp] theorem State.setCore_sec (s : State) (k : Nat) (x : Core) : (s.setCore k x).sec = s.sec := rfl
@[simp] theorem State.setCore_mem (s : State) (k : Nat) (x : Core) : (s.setCore k x).mem = s.mem := rfl
@[simp] theorem State.setCore_memTags (s : State) (k : Nat) (x : Core) : (s.setCore k x).memTags = s.memTags := rfl
@[simp] theorem State.setCore_poison (s : State) (k : Nat) (x : Core) : (s.setCore k x).poison = s.poison := rfl
@[simp] theorem State.setCore_cur (s : State) (k : Nat) (x : Core) : (s.setCore k x).cur = s.cur := rfl
@[simp] theorem State.setCore_curB (s : State) (k : Nat) (x : Core) : (s.setCore k x).curB = s.curB := rfl
@[simp] theorem State.setCore_cut (s : State) (k : Nat) (x : Core) : (s.setCore k x).cut = s.cut := rfl
@[simp] theorem State.setCore_input (s : State) (k : Nat) (x : Core) : (s.setCore k x).input = s.input := rfl
@[simp] theorem State.setCore_busData (s : State) (k : Nat) (x : Core) : (s.setCore k x).busData = s.busData := rfl
@[simp] theorem State.setCore_agenda (s : State) (k : Nat) (x : Core) : (s.setCore k x).agenda = s.agenda := rfl
@[simp] theorem State.setCore_turn (s : State) (k : Nat) (x : Core) : (s.setCore k x).turn = s.turn := rfl
@[simp] theorem State.setCore_free (s : State) (k : Nat) (x : Core) : (s.setCore k x).free = s.free := rfl
@[simp] theorem State.setCore_nextFront (s : State) (k : Nat) (x : Core) : (s.setCore k x).nextFront = s.nextFront := rfl
@[simp] theorem State.setCore_nextInst (s : State) (k : Nat) (x : Core) : (s.setCore k x).nextInst = s.nextInst := rfl
@[simp] theorem State.setCore_nextPosted (s : State) (k : Nat) (x : Core) : (s.setCore k x).nextPosted = s.nextPosted := rfl
@[simp] theorem State.setCore_nextWait (s : State) (k : Nat) (x : Core) : (s.setCore k x).nextWait = s.nextWait := rfl
@[simp] theorem State.setCore_nextReady (s : State) (k : Nat) (x : Core) : (s.setCore k x).nextReady = s.nextReady := rfl
@[simp] theorem State.setCore_inReset (s : State) (k : Nat) (x : Core) : (s.setCore k x).inReset = s.inReset := rfl

/-! ## State.setDie -/

@[simp] theorem State.setDie_gusts (s : State) (k : Nat) (x : Die) : (s.setDie k x).gusts = s.gusts := rfl
@[simp] theorem State.setDie_twins (s : State) (k : Nat) (x : Die) : (s.setDie k x).twins = s.twins := rfl
@[simp] theorem State.setDie_twinRun (s : State) (k : Nat) (x : Die) : (s.setDie k x).twinRun = s.twinRun := rfl
@[simp] theorem State.setDie_cores (s : State) (k : Nat) (x : Die) : (s.setDie k x).cores = s.cores := rfl
@[simp] theorem State.setDie_dies (s : State) (k : Nat) (x : Die) : (s.setDie k x).dies = listSet s.dies k x := rfl
@[simp] theorem State.setDie_engs (s : State) (k : Nat) (x : Die) : (s.setDie k x).engs = s.engs := rfl
@[simp] theorem State.setDie_fronts (s : State) (k : Nat) (x : Die) : (s.setDie k x).fronts = s.fronts := rfl
@[simp] theorem State.setDie_insts (s : State) (k : Nat) (x : Die) : (s.setDie k x).insts = s.insts := rfl
@[simp] theorem State.setDie_sched (s : State) (k : Nat) (x : Die) : (s.setDie k x).sched = s.sched := rfl
@[simp] theorem State.setDie_parts (s : State) (k : Nat) (x : Die) : (s.setDie k x).parts = s.parts := rfl
@[simp] theorem State.setDie_hub (s : State) (k : Nat) (x : Die) : (s.setDie k x).hub = s.hub := rfl
@[simp] theorem State.setDie_dbg (s : State) (k : Nat) (x : Die) : (s.setDie k x).dbg = s.dbg := rfl
@[simp] theorem State.setDie_sec (s : State) (k : Nat) (x : Die) : (s.setDie k x).sec = s.sec := rfl
@[simp] theorem State.setDie_mem (s : State) (k : Nat) (x : Die) : (s.setDie k x).mem = s.mem := rfl
@[simp] theorem State.setDie_memTags (s : State) (k : Nat) (x : Die) : (s.setDie k x).memTags = s.memTags := rfl
@[simp] theorem State.setDie_poison (s : State) (k : Nat) (x : Die) : (s.setDie k x).poison = s.poison := rfl
@[simp] theorem State.setDie_cur (s : State) (k : Nat) (x : Die) : (s.setDie k x).cur = s.cur := rfl
@[simp] theorem State.setDie_curB (s : State) (k : Nat) (x : Die) : (s.setDie k x).curB = s.curB := rfl
@[simp] theorem State.setDie_cut (s : State) (k : Nat) (x : Die) : (s.setDie k x).cut = s.cut := rfl
@[simp] theorem State.setDie_input (s : State) (k : Nat) (x : Die) : (s.setDie k x).input = s.input := rfl
@[simp] theorem State.setDie_busData (s : State) (k : Nat) (x : Die) : (s.setDie k x).busData = s.busData := rfl
@[simp] theorem State.setDie_agenda (s : State) (k : Nat) (x : Die) : (s.setDie k x).agenda = s.agenda := rfl
@[simp] theorem State.setDie_turn (s : State) (k : Nat) (x : Die) : (s.setDie k x).turn = s.turn := rfl
@[simp] theorem State.setDie_free (s : State) (k : Nat) (x : Die) : (s.setDie k x).free = s.free := rfl
@[simp] theorem State.setDie_nextFront (s : State) (k : Nat) (x : Die) : (s.setDie k x).nextFront = s.nextFront := rfl
@[simp] theorem State.setDie_nextInst (s : State) (k : Nat) (x : Die) : (s.setDie k x).nextInst = s.nextInst := rfl
@[simp] theorem State.setDie_nextPosted (s : State) (k : Nat) (x : Die) : (s.setDie k x).nextPosted = s.nextPosted := rfl
@[simp] theorem State.setDie_nextWait (s : State) (k : Nat) (x : Die) : (s.setDie k x).nextWait = s.nextWait := rfl
@[simp] theorem State.setDie_nextReady (s : State) (k : Nat) (x : Die) : (s.setDie k x).nextReady = s.nextReady := rfl
@[simp] theorem State.setDie_inReset (s : State) (k : Nat) (x : Die) : (s.setDie k x).inReset = s.inReset := rfl

/-! ## State.setPart -/

@[simp] theorem State.setPart_gusts (s : State) (k : Nat) (x : Part) : (s.setPart k x).gusts = s.gusts := rfl
@[simp] theorem State.setPart_twins (s : State) (k : Nat) (x : Part) : (s.setPart k x).twins = s.twins := rfl
@[simp] theorem State.setPart_twinRun (s : State) (k : Nat) (x : Part) : (s.setPart k x).twinRun = s.twinRun := rfl
@[simp] theorem State.setPart_cores (s : State) (k : Nat) (x : Part) : (s.setPart k x).cores = s.cores := rfl
@[simp] theorem State.setPart_dies (s : State) (k : Nat) (x : Part) : (s.setPart k x).dies = s.dies := rfl
@[simp] theorem State.setPart_engs (s : State) (k : Nat) (x : Part) : (s.setPart k x).engs = s.engs := rfl
@[simp] theorem State.setPart_fronts (s : State) (k : Nat) (x : Part) : (s.setPart k x).fronts = s.fronts := rfl
@[simp] theorem State.setPart_insts (s : State) (k : Nat) (x : Part) : (s.setPart k x).insts = s.insts := rfl
@[simp] theorem State.setPart_sched (s : State) (k : Nat) (x : Part) : (s.setPart k x).sched = s.sched := rfl
@[simp] theorem State.setPart_parts (s : State) (k : Nat) (x : Part) : (s.setPart k x).parts = listSet s.parts k x := rfl
@[simp] theorem State.setPart_hub (s : State) (k : Nat) (x : Part) : (s.setPart k x).hub = s.hub := rfl
@[simp] theorem State.setPart_dbg (s : State) (k : Nat) (x : Part) : (s.setPart k x).dbg = s.dbg := rfl
@[simp] theorem State.setPart_sec (s : State) (k : Nat) (x : Part) : (s.setPart k x).sec = s.sec := rfl
@[simp] theorem State.setPart_mem (s : State) (k : Nat) (x : Part) : (s.setPart k x).mem = s.mem := rfl
@[simp] theorem State.setPart_memTags (s : State) (k : Nat) (x : Part) : (s.setPart k x).memTags = s.memTags := rfl
@[simp] theorem State.setPart_poison (s : State) (k : Nat) (x : Part) : (s.setPart k x).poison = s.poison := rfl
@[simp] theorem State.setPart_cur (s : State) (k : Nat) (x : Part) : (s.setPart k x).cur = s.cur := rfl
@[simp] theorem State.setPart_curB (s : State) (k : Nat) (x : Part) : (s.setPart k x).curB = s.curB := rfl
@[simp] theorem State.setPart_cut (s : State) (k : Nat) (x : Part) : (s.setPart k x).cut = s.cut := rfl
@[simp] theorem State.setPart_input (s : State) (k : Nat) (x : Part) : (s.setPart k x).input = s.input := rfl
@[simp] theorem State.setPart_busData (s : State) (k : Nat) (x : Part) : (s.setPart k x).busData = s.busData := rfl
@[simp] theorem State.setPart_agenda (s : State) (k : Nat) (x : Part) : (s.setPart k x).agenda = s.agenda := rfl
@[simp] theorem State.setPart_turn (s : State) (k : Nat) (x : Part) : (s.setPart k x).turn = s.turn := rfl
@[simp] theorem State.setPart_free (s : State) (k : Nat) (x : Part) : (s.setPart k x).free = s.free := rfl
@[simp] theorem State.setPart_nextFront (s : State) (k : Nat) (x : Part) : (s.setPart k x).nextFront = s.nextFront := rfl
@[simp] theorem State.setPart_nextInst (s : State) (k : Nat) (x : Part) : (s.setPart k x).nextInst = s.nextInst := rfl
@[simp] theorem State.setPart_nextPosted (s : State) (k : Nat) (x : Part) : (s.setPart k x).nextPosted = s.nextPosted := rfl
@[simp] theorem State.setPart_nextWait (s : State) (k : Nat) (x : Part) : (s.setPart k x).nextWait = s.nextWait := rfl
@[simp] theorem State.setPart_nextReady (s : State) (k : Nat) (x : Part) : (s.setPart k x).nextReady = s.nextReady := rfl
@[simp] theorem State.setPart_inReset (s : State) (k : Nat) (x : Part) : (s.setPart k x).inReset = s.inReset := rfl

/-! ## State.setFront -/

@[simp] theorem State.setFront_gusts (s : State) (k : Nat) (x : Front) : (s.setFront k x).gusts = s.gusts := rfl
@[simp] theorem State.setFront_twins (s : State) (k : Nat) (x : Front) : (s.setFront k x).twins = s.twins := rfl
@[simp] theorem State.setFront_twinRun (s : State) (k : Nat) (x : Front) : (s.setFront k x).twinRun = s.twinRun := rfl
@[simp] theorem State.setFront_cores (s : State) (k : Nat) (x : Front) : (s.setFront k x).cores = s.cores := rfl
@[simp] theorem State.setFront_dies (s : State) (k : Nat) (x : Front) : (s.setFront k x).dies = s.dies := rfl
@[simp] theorem State.setFront_engs (s : State) (k : Nat) (x : Front) : (s.setFront k x).engs = s.engs := rfl
@[simp] theorem State.setFront_fronts (s : State) (k : Nat) (x : Front) : (s.setFront k x).fronts = tabSet s.fronts k x := rfl
@[simp] theorem State.setFront_insts (s : State) (k : Nat) (x : Front) : (s.setFront k x).insts = s.insts := rfl
@[simp] theorem State.setFront_sched (s : State) (k : Nat) (x : Front) : (s.setFront k x).sched = s.sched := rfl
@[simp] theorem State.setFront_parts (s : State) (k : Nat) (x : Front) : (s.setFront k x).parts = s.parts := rfl
@[simp] theorem State.setFront_hub (s : State) (k : Nat) (x : Front) : (s.setFront k x).hub = s.hub := rfl
@[simp] theorem State.setFront_dbg (s : State) (k : Nat) (x : Front) : (s.setFront k x).dbg = s.dbg := rfl
@[simp] theorem State.setFront_sec (s : State) (k : Nat) (x : Front) : (s.setFront k x).sec = s.sec := rfl
@[simp] theorem State.setFront_mem (s : State) (k : Nat) (x : Front) : (s.setFront k x).mem = s.mem := rfl
@[simp] theorem State.setFront_memTags (s : State) (k : Nat) (x : Front) : (s.setFront k x).memTags = s.memTags := rfl
@[simp] theorem State.setFront_poison (s : State) (k : Nat) (x : Front) : (s.setFront k x).poison = s.poison := rfl
@[simp] theorem State.setFront_cur (s : State) (k : Nat) (x : Front) : (s.setFront k x).cur = s.cur := rfl
@[simp] theorem State.setFront_curB (s : State) (k : Nat) (x : Front) : (s.setFront k x).curB = s.curB := rfl
@[simp] theorem State.setFront_cut (s : State) (k : Nat) (x : Front) : (s.setFront k x).cut = s.cut := rfl
@[simp] theorem State.setFront_input (s : State) (k : Nat) (x : Front) : (s.setFront k x).input = s.input := rfl
@[simp] theorem State.setFront_busData (s : State) (k : Nat) (x : Front) : (s.setFront k x).busData = s.busData := rfl
@[simp] theorem State.setFront_agenda (s : State) (k : Nat) (x : Front) : (s.setFront k x).agenda = s.agenda := rfl
@[simp] theorem State.setFront_turn (s : State) (k : Nat) (x : Front) : (s.setFront k x).turn = s.turn := rfl
@[simp] theorem State.setFront_free (s : State) (k : Nat) (x : Front) : (s.setFront k x).free = s.free := rfl
@[simp] theorem State.setFront_nextFront (s : State) (k : Nat) (x : Front) : (s.setFront k x).nextFront = s.nextFront := rfl
@[simp] theorem State.setFront_nextInst (s : State) (k : Nat) (x : Front) : (s.setFront k x).nextInst = s.nextInst := rfl
@[simp] theorem State.setFront_nextPosted (s : State) (k : Nat) (x : Front) : (s.setFront k x).nextPosted = s.nextPosted := rfl
@[simp] theorem State.setFront_nextWait (s : State) (k : Nat) (x : Front) : (s.setFront k x).nextWait = s.nextWait := rfl
@[simp] theorem State.setFront_nextReady (s : State) (k : Nat) (x : Front) : (s.setFront k x).nextReady = s.nextReady := rfl
@[simp] theorem State.setFront_inReset (s : State) (k : Nat) (x : Front) : (s.setFront k x).inReset = s.inReset := rfl

/-! ## State.setEng -/

@[simp] theorem State.setEng_gusts (s : State) (k : Nat) (x : Eng) : (s.setEng k x).gusts = s.gusts := rfl
@[simp] theorem State.setEng_twins (s : State) (k : Nat) (x : Eng) : (s.setEng k x).twins = s.twins := rfl
@[simp] theorem State.setEng_twinRun (s : State) (k : Nat) (x : Eng) : (s.setEng k x).twinRun = s.twinRun := rfl
@[simp] theorem State.setEng_cores (s : State) (k : Nat) (x : Eng) : (s.setEng k x).cores = s.cores := rfl
@[simp] theorem State.setEng_dies (s : State) (k : Nat) (x : Eng) : (s.setEng k x).dies = s.dies := rfl
@[simp] theorem State.setEng_engs (s : State) (k : Nat) (x : Eng) : (s.setEng k x).engs = tabSet s.engs k x := rfl
@[simp] theorem State.setEng_fronts (s : State) (k : Nat) (x : Eng) : (s.setEng k x).fronts = s.fronts := rfl
@[simp] theorem State.setEng_insts (s : State) (k : Nat) (x : Eng) : (s.setEng k x).insts = s.insts := rfl
@[simp] theorem State.setEng_sched (s : State) (k : Nat) (x : Eng) : (s.setEng k x).sched = s.sched := rfl
@[simp] theorem State.setEng_parts (s : State) (k : Nat) (x : Eng) : (s.setEng k x).parts = s.parts := rfl
@[simp] theorem State.setEng_hub (s : State) (k : Nat) (x : Eng) : (s.setEng k x).hub = s.hub := rfl
@[simp] theorem State.setEng_dbg (s : State) (k : Nat) (x : Eng) : (s.setEng k x).dbg = s.dbg := rfl
@[simp] theorem State.setEng_sec (s : State) (k : Nat) (x : Eng) : (s.setEng k x).sec = s.sec := rfl
@[simp] theorem State.setEng_mem (s : State) (k : Nat) (x : Eng) : (s.setEng k x).mem = s.mem := rfl
@[simp] theorem State.setEng_memTags (s : State) (k : Nat) (x : Eng) : (s.setEng k x).memTags = s.memTags := rfl
@[simp] theorem State.setEng_poison (s : State) (k : Nat) (x : Eng) : (s.setEng k x).poison = s.poison := rfl
@[simp] theorem State.setEng_cur (s : State) (k : Nat) (x : Eng) : (s.setEng k x).cur = s.cur := rfl
@[simp] theorem State.setEng_curB (s : State) (k : Nat) (x : Eng) : (s.setEng k x).curB = s.curB := rfl
@[simp] theorem State.setEng_cut (s : State) (k : Nat) (x : Eng) : (s.setEng k x).cut = s.cut := rfl
@[simp] theorem State.setEng_input (s : State) (k : Nat) (x : Eng) : (s.setEng k x).input = s.input := rfl
@[simp] theorem State.setEng_busData (s : State) (k : Nat) (x : Eng) : (s.setEng k x).busData = s.busData := rfl
@[simp] theorem State.setEng_agenda (s : State) (k : Nat) (x : Eng) : (s.setEng k x).agenda = s.agenda := rfl
@[simp] theorem State.setEng_turn (s : State) (k : Nat) (x : Eng) : (s.setEng k x).turn = s.turn := rfl
@[simp] theorem State.setEng_free (s : State) (k : Nat) (x : Eng) : (s.setEng k x).free = s.free := rfl
@[simp] theorem State.setEng_nextFront (s : State) (k : Nat) (x : Eng) : (s.setEng k x).nextFront = s.nextFront := rfl
@[simp] theorem State.setEng_nextInst (s : State) (k : Nat) (x : Eng) : (s.setEng k x).nextInst = s.nextInst := rfl
@[simp] theorem State.setEng_nextPosted (s : State) (k : Nat) (x : Eng) : (s.setEng k x).nextPosted = s.nextPosted := rfl
@[simp] theorem State.setEng_nextWait (s : State) (k : Nat) (x : Eng) : (s.setEng k x).nextWait = s.nextWait := rfl
@[simp] theorem State.setEng_nextReady (s : State) (k : Nat) (x : Eng) : (s.setEng k x).nextReady = s.nextReady := rfl
@[simp] theorem State.setEng_inReset (s : State) (k : Nat) (x : Eng) : (s.setEng k x).inReset = s.inReset := rfl

/-! ## State.hubWrite -/

@[simp] theorem State.hubWrite_gusts (s : State) (d : Nat) (bs : List Byte) : (s.hubWrite d bs).gusts = s.gusts := rfl
@[simp] theorem State.hubWrite_twins (s : State) (d : Nat) (bs : List Byte) : (s.hubWrite d bs).twins = s.twins := rfl
@[simp] theorem State.hubWrite_twinRun (s : State) (d : Nat) (bs : List Byte) : (s.hubWrite d bs).twinRun = s.twinRun := rfl
@[simp] theorem State.hubWrite_cores (s : State) (d : Nat) (bs : List Byte) : (s.hubWrite d bs).cores = s.cores := rfl
@[simp] theorem State.hubWrite_dies (s : State) (d : Nat) (bs : List Byte) : (s.hubWrite d bs).dies = s.dies := rfl
@[simp] theorem State.hubWrite_engs (s : State) (d : Nat) (bs : List Byte) : (s.hubWrite d bs).engs = s.engs := rfl
@[simp] theorem State.hubWrite_fronts (s : State) (d : Nat) (bs : List Byte) : (s.hubWrite d bs).fronts = s.fronts := rfl
@[simp] theorem State.hubWrite_insts (s : State) (d : Nat) (bs : List Byte) : (s.hubWrite d bs).insts = s.insts := rfl
@[simp] theorem State.hubWrite_sched (s : State) (d : Nat) (bs : List Byte) : (s.hubWrite d bs).sched = s.sched := rfl
@[simp] theorem State.hubWrite_parts (s : State) (d : Nat) (bs : List Byte) : (s.hubWrite d bs).parts = s.parts := rfl
@[simp] theorem State.hubWrite_hub (s : State) (d : Nat) (bs : List Byte) : (s.hubWrite d bs).hub = s.hub := rfl
@[simp] theorem State.hubWrite_dbg (s : State) (d : Nat) (bs : List Byte) : (s.hubWrite d bs).dbg = s.dbg := rfl
@[simp] theorem State.hubWrite_sec (s : State) (d : Nat) (bs : List Byte) : (s.hubWrite d bs).sec = s.sec := rfl
@[simp] theorem State.hubWrite_mem (s : State) (d : Nat) (bs : List Byte) : (s.hubWrite d bs).mem = memSetBytes s.mem d bs := rfl
@[simp] theorem State.hubWrite_memTags (s : State) (d : Nat) (bs : List Byte) : (s.hubWrite d bs).memTags = s.memTags := rfl
@[simp] theorem State.hubWrite_poison (s : State) (d : Nat) (bs : List Byte) : (s.hubWrite d bs).poison = s.poison := rfl
@[simp] theorem State.hubWrite_cur (s : State) (d : Nat) (bs : List Byte) : (s.hubWrite d bs).cur = s.cur := rfl
@[simp] theorem State.hubWrite_curB (s : State) (d : Nat) (bs : List Byte) : (s.hubWrite d bs).curB = s.curB := rfl
@[simp] theorem State.hubWrite_cut (s : State) (d : Nat) (bs : List Byte) : (s.hubWrite d bs).cut = s.cut := rfl
@[simp] theorem State.hubWrite_input (s : State) (d : Nat) (bs : List Byte) : (s.hubWrite d bs).input = s.input := rfl
@[simp] theorem State.hubWrite_busData (s : State) (d : Nat) (bs : List Byte) : (s.hubWrite d bs).busData = s.busData := rfl
@[simp] theorem State.hubWrite_agenda (s : State) (d : Nat) (bs : List Byte) : (s.hubWrite d bs).agenda = s.agenda := rfl
@[simp] theorem State.hubWrite_turn (s : State) (d : Nat) (bs : List Byte) : (s.hubWrite d bs).turn = s.turn := rfl
@[simp] theorem State.hubWrite_free (s : State) (d : Nat) (bs : List Byte) : (s.hubWrite d bs).free = s.free := rfl
@[simp] theorem State.hubWrite_nextFront (s : State) (d : Nat) (bs : List Byte) : (s.hubWrite d bs).nextFront = s.nextFront := rfl
@[simp] theorem State.hubWrite_nextInst (s : State) (d : Nat) (bs : List Byte) : (s.hubWrite d bs).nextInst = s.nextInst := rfl
@[simp] theorem State.hubWrite_nextPosted (s : State) (d : Nat) (bs : List Byte) : (s.hubWrite d bs).nextPosted = s.nextPosted := rfl
@[simp] theorem State.hubWrite_nextWait (s : State) (d : Nat) (bs : List Byte) : (s.hubWrite d bs).nextWait = s.nextWait := rfl
@[simp] theorem State.hubWrite_nextReady (s : State) (d : Nat) (bs : List Byte) : (s.hubWrite d bs).nextReady = s.nextReady := rfl
@[simp] theorem State.hubWrite_inReset (s : State) (d : Nat) (bs : List Byte) : (s.hubWrite d bs).inReset = s.inReset := rfl

/-! ## Lookups -/

@[simp] theorem State.gust?_setGust_self (s : State) (k : Nat) (x : Gust) : (s.setGust k x).gust? k = some x := by
  simp [State.gust?]

theorem State.gust?_setGust_ne (s : State) {j k : Nat} (x : Gust) (h : j ≠ k) : (s.setGust k x).gust? j = s.gust? j := by
  simp [State.gust?, tabGet?_tabSet_ne _ _ h]

@[simp] theorem State.core_setCore_self (s : State) (k : Nat) (x : Core) : (s.setCore k x).core k = x := by
  simp [State.core]

theorem State.core_setCore_ne (s : State) {j k : Nat} (x : Core) (h : j ≠ k) : (s.setCore k x).core j = s.core j := by
  simp [State.core, tabGetD_tabSet_ne _ _ _ h]

@[simp] theorem State.front?_setFront_self (s : State) (k : Nat) (x : Front) : (s.setFront k x).front? k = some x := by
  simp [State.front?]

@[simp] theorem State.eng?_setEng_self (s : State) (k : Nat) (x : Eng) : (s.setEng k x).eng? k = some x := by
  simp [State.eng?]

theorem State.die_setDie_self (s : State) (d : Nat) (x : Die) (h : d < s.dies.length) : (s.setDie d x).die d = x :=
  getD_listSet_self _ _ _ _ h

theorem State.part_setPart_self (s : State) (q : Nat) (x : Part) (h : q < s.parts.length) : (s.setPart q x).part q = x :=
  getD_listSet_self _ _ _ _ h

@[simp] theorem State.core_setGust (s : State) (k : Nat) (x : Gust) (n : Nat) : (s.setGust k x).core n = s.core n := rfl
@[simp] theorem State.die_setGust (s : State) (k : Nat) (x : Gust) (n : Nat) : (s.setGust k x).die n = s.die n := rfl
@[simp] theorem State.part_setGust (s : State) (k : Nat) (x : Gust) (n : Nat) : (s.setGust k x).part n = s.part n := rfl
@[simp] theorem State.front?_setGust (s : State) (k : Nat) (x : Gust) (n : Nat) : (s.setGust k x).front? n = s.front? n := rfl
@[simp] theorem State.eng?_setGust (s : State) (k : Nat) (x : Gust) (n : Nat) : (s.setGust k x).eng? n = s.eng? n := rfl
@[simp] theorem State.gust?_setCore (s : State) (k : Nat) (x : Core) (n : Nat) : (s.setCore k x).gust? n = s.gust? n := rfl
@[simp] theorem State.die_setCore (s : State) (k : Nat) (x : Core) (n : Nat) : (s.setCore k x).die n = s.die n := rfl
@[simp] theorem State.part_setCore (s : State) (k : Nat) (x : Core) (n : Nat) : (s.setCore k x).part n = s.part n := rfl
@[simp] theorem State.front?_setCore (s : State) (k : Nat) (x : Core) (n : Nat) : (s.setCore k x).front? n = s.front? n := rfl
@[simp] theorem State.eng?_setCore (s : State) (k : Nat) (x : Core) (n : Nat) : (s.setCore k x).eng? n = s.eng? n := rfl
@[simp] theorem State.gust?_setDie (s : State) (k : Nat) (x : Die) (n : Nat) : (s.setDie k x).gust? n = s.gust? n := rfl
@[simp] theorem State.core_setDie (s : State) (k : Nat) (x : Die) (n : Nat) : (s.setDie k x).core n = s.core n := rfl
@[simp] theorem State.part_setDie (s : State) (k : Nat) (x : Die) (n : Nat) : (s.setDie k x).part n = s.part n := rfl
@[simp] theorem State.front?_setDie (s : State) (k : Nat) (x : Die) (n : Nat) : (s.setDie k x).front? n = s.front? n := rfl
@[simp] theorem State.eng?_setDie (s : State) (k : Nat) (x : Die) (n : Nat) : (s.setDie k x).eng? n = s.eng? n := rfl
@[simp] theorem State.gust?_setPart (s : State) (k : Nat) (x : Part) (n : Nat) : (s.setPart k x).gust? n = s.gust? n := rfl
@[simp] theorem State.core_setPart (s : State) (k : Nat) (x : Part) (n : Nat) : (s.setPart k x).core n = s.core n := rfl
@[simp] theorem State.die_setPart (s : State) (k : Nat) (x : Part) (n : Nat) : (s.setPart k x).die n = s.die n := rfl
@[simp] theorem State.front?_setPart (s : State) (k : Nat) (x : Part) (n : Nat) : (s.setPart k x).front? n = s.front? n := rfl
@[simp] theorem State.eng?_setPart (s : State) (k : Nat) (x : Part) (n : Nat) : (s.setPart k x).eng? n = s.eng? n := rfl
@[simp] theorem State.gust?_setFront (s : State) (k : Nat) (x : Front) (n : Nat) : (s.setFront k x).gust? n = s.gust? n := rfl
@[simp] theorem State.core_setFront (s : State) (k : Nat) (x : Front) (n : Nat) : (s.setFront k x).core n = s.core n := rfl
@[simp] theorem State.die_setFront (s : State) (k : Nat) (x : Front) (n : Nat) : (s.setFront k x).die n = s.die n := rfl
@[simp] theorem State.part_setFront (s : State) (k : Nat) (x : Front) (n : Nat) : (s.setFront k x).part n = s.part n := rfl
@[simp] theorem State.eng?_setFront (s : State) (k : Nat) (x : Front) (n : Nat) : (s.setFront k x).eng? n = s.eng? n := rfl
@[simp] theorem State.gust?_setEng (s : State) (k : Nat) (x : Eng) (n : Nat) : (s.setEng k x).gust? n = s.gust? n := rfl
@[simp] theorem State.core_setEng (s : State) (k : Nat) (x : Eng) (n : Nat) : (s.setEng k x).core n = s.core n := rfl
@[simp] theorem State.die_setEng (s : State) (k : Nat) (x : Eng) (n : Nat) : (s.setEng k x).die n = s.die n := rfl
@[simp] theorem State.part_setEng (s : State) (k : Nat) (x : Eng) (n : Nat) : (s.setEng k x).part n = s.part n := rfl
@[simp] theorem State.front?_setEng (s : State) (k : Nat) (x : Eng) (n : Nat) : (s.setEng k x).front? n = s.front? n := rfl
@[simp] theorem State.gust?_hubWrite (s : State) (d : Nat) (bs : List Byte) (n : Nat) : (s.hubWrite d bs).gust? n = s.gust? n := rfl
@[simp] theorem State.core_hubWrite (s : State) (d : Nat) (bs : List Byte) (n : Nat) : (s.hubWrite d bs).core n = s.core n := rfl
@[simp] theorem State.die_hubWrite (s : State) (d : Nat) (bs : List Byte) (n : Nat) : (s.hubWrite d bs).die n = s.die n := rfl
@[simp] theorem State.part_hubWrite (s : State) (d : Nat) (bs : List Byte) (n : Nat) : (s.hubWrite d bs).part n = s.part n := rfl
@[simp] theorem State.front?_hubWrite (s : State) (d : Nat) (bs : List Byte) (n : Nat) : (s.hubWrite d bs).front? n = s.front? n := rfl
@[simp] theorem State.eng?_hubWrite (s : State) (d : Nat) (bs : List Byte) (n : Nat) : (s.hubWrite d bs).eng? n = s.eng? n := rfl

/-- Setting the same gust twice keeps the last. -/
@[simp] theorem State.setGust_setGust (s : State) (k : Nat) (x y : Gust) : (s.setGust k x).setGust k y = s.setGust k y := by
  simp [State.setGust]

end Sys2Proof.Machine
end

