-- ==== Sys2Proof/Laws/Group.lean ====
section
/-! SUPPORT. What the execution of one group comes to (spec/03 R91, spec/13 R359): its body, its completion and Settle, for
later proofs to cite instead of unfolding them. -/

namespace Sys2Proof.Machine

/-! ## Slots -/

@[simp] theorem Gust.slot_setSlot_self (g : Gust) (b : Bool) (x : Slot) : (g.setSlot b x).slot b = x := by
  cases b <;> rfl

@[simp] theorem Gust.slot_setSlot_not (g : Gust) (b : Bool) (x : Slot) : (g.setSlot b x).slot (!b) = g.slot (!b) := by
  cases b <;> rfl

@[simp] theorem Gust.reg_setSlot (g : Gust) (b : Bool) (x : Slot) (n : Nat) : (g.setSlot b x).reg n = g.reg n := by
  cases b <;> rfl

@[simp] theorem Gust.capTag_setSlot (g : Gust) (b : Bool) (x : Slot) (n : Nat) :
    (g.setSlot b x).capTag n = g.capTag n := by cases b <;> rfl

/-! ## Registers -/

theorem Gust.reg_setReg_self (g : Gust) (n : Nat) (v : Val) : (g.setReg n v).reg n = v := by
  unfold Gust.setReg Gust.reg
  by_cases h : g.inTrapBank n = true
  · simp [Gust.inTrapBank] at h ⊢; simp [h]
  · have h2 : ({ g with regs := tabSet g.regs (g.wb + n) v } : Gust).inTrapBank n = false := by
      simpa [Gust.inTrapBank] using h
    simp [h, h2]

theorem Gust.reg_setReg_ne (g : Gust) {m n : Nat} (v : Val) (hmn : m ≠ n) : (g.setReg n v).reg m = g.reg m := by
  unfold Gust.setReg
  by_cases h : g.inTrapBank n = true
  · rw [if_pos h]
    unfold Gust.reg
    change (if g.inTrapBank m = true then _ else _) = _
    split
    · exact tabGetD_tabSet_ne _ _ _ hmn
    · rfl
  · rw [if_neg h]
    unfold Gust.reg
    change (if g.inTrapBank m = true then _ else _) = _
    split
    · rfl
    · exact tabGetD_tabSet_ne _ _ _ (show g.wb + m ≠ g.wb + n by omega)

@[simp] theorem Gust.reg_setCapTag (g : Gust) (n : Nat) (t : Bool) (m : Nat) : (g.setCapTag n t).reg m = g.reg m := by
  unfold Gust.setCapTag; split <;> rfl

/-- Clearing a capability tag sets none. -/
theorem Gust.capTag_clear (g : Gust) (n m : Nat) (h : (g.setCapTag n false).capTag m = true) : g.capTag m = true := by
  unfold Gust.setCapTag at h
  unfold Gust.capTag at h ⊢
  split at h
  · change (if g.inTrapBank m = true then _ else _) = true at h
    split at h
    · simp_all
    · simp_all
  · change (if g.inTrapBank m = true then _ else _) = true at h
    split at h
    · simp_all
    · simp_all

theorem Gust.capTag_setReg (g : Gust) (n m : Nat) (v : Val) : (g.setReg n v).capTag m = g.capTag m := by
  unfold Gust.setReg; split <;> rfl

/-- A register write by Wr reads back as the stored value. -/
theorem Gust.reg_write1_self (g : Gust) (wm : Word) (n : Nat) (v : Val) :
    (g.write1 wm n v).reg n = g.stored wm (g.reg n) v := by
  unfold Gust.write1
  split
  · simp [Gust.stored, *]
  · simp [Gust.reg_setReg_self]

theorem Gust.reg_write1_ne (g : Gust) (wm : Word) {m n : Nat} (v : Val) (h : m ≠ n) :
    (g.write1 wm n v).reg m = g.reg m := by
  unfold Gust.write1
  split
  · rfl
  · simp [Gust.reg_setReg_ne _ _ h]

theorem Gust.capTag_write1 (g : Gust) (wm : Word) (n m : Nat) (v : Val) (h : (g.write1 wm n v).capTag m = true) :
    g.capTag m = true := by
  unfold Gust.write1 at h
  split at h
  · exact h
  · exact (g.capTag_setReg n m _) ▸ Gust.capTag_clear _ _ _ h

/-- What a write keeps of a gust. -/
theorem Gust.write1_kept (g : Gust) (wm : Word) (n : Nat) (v : Val) :
    g.write1 wm n v = { g with regs := (g.write1 wm n v).regs, trapBank := (g.write1 wm n v).trapBank,
                               capTags := (g.write1 wm n v).capTags, trapCapTags := (g.write1 wm n v).trapCapTags } := by
  unfold Gust.write1 Gust.setReg Gust.setCapTag
  split
  · rfl
  · split <;> split <;> rfl

/-- Lane l of the value that Wr stores (R22 to R24). -/
theorem Gust.lane_stored (g : Gust) (wm : Word) (old new : Val) {l : Nat} (h : inMask g.lmask l = true) :
    (g.stored wm old new).lane l = if inMask wm l then new.lane l else old.lane l := by
  have hl := inMask_lt h
  unfold Gust.stored
  split
  · subst_vars; simp [inMask]
  · split
    · subst_vars; simp [h]
    · simp [Gust.mkG, Val.lane, laneGet_column _ hl, h]

@[simp] theorem Gust.lane_mkG (g : Gust) (f : Nat → Word) {l : Nat} (h : inMask g.lmask l = true) :
    (g.mkG f).lane l = f l := by
  simp [Gust.mkG, Val.lane, laneGet_column _ (inMask_lt h), h]

/-! ## Settle -/

/-- A live slot that is not at its join leaves nothing to settle (R125). -/
theorem State.settled_apart {s : State} {k : Nat} {g : Gust} {b : Bool} (hg : s.gust? k = some g)
    (hl : (g.slot b).live = true) (hj : (g.slot b).atJoin = false) : s.settled k = s := by
  have : s.settleOnce k = (s, false) := by
    unfold State.settleOnce
    rw [hg]
    cases b
    · simp only [Gust.slot, Bool.false_eq_true, if_false] at hl hj
      cases hb : g.b.live <;> simp [hl, hb, hj, Gust.slot]
    · simp only [Gust.slot, if_true] at hl hj
      cases ha : g.a.live <;> simp [hl, ha, hj, Gust.slot]
  simp [State.settled, State.settle, this]

/-! ## A group -/

/-- The end of a replay touches no slot. -/
@[simp] theorem Gust.endReplay_slot (g : Gust) (b : Bool) (r p : Option Word) (d : Bool) :
    (g.endReplay b r p).slot d = g.slot d := by
  unfold Gust.endReplay; split <;> cases d <;> rfl

/-- The slot that advances (R18). -/
theorem Gust.advance_slot (g : Gust) (b : Bool) (pc : BitVec 56) (m : LatchMove) (l1 : Latch) :
    (g.advance b pc m l1).slot b
      = { g.slot b with pc := pc, latches := moveLatches m (g.slot b).latches l1, wait := none, pages := none } := by
  unfold Gust.advance
  simp only
  split
  · have : ∀ (x : Gust) (y : Slot), (x.setSlot (!b) y).slot b = x.slot b := by intro x y; cases b <;> rfl
    rw [this]; simp
  · simp

/-- The gust in which a completed group leaves its slot (R18), a replay of it ended (R149). -/
def Gust.moved (g : Gust) (c : Ctx) (m : LatchMove) (pc : BitVec 56) (l1 : Latch) : Gust :=
  (g.advance c.b pc m l1).endReplay c.b (c.g.replayOf c.b) (if countsLanes c.i then some c.wm else none)

/-- Completion of a group whose slot does not come to its join: the slot advances, a replay of it ends and nothing else
happens (R18, R19, R149). -/
theorem finish_apart {c : Ctx} {k : Nat} {d : Done} {g : Gust} (hg : d.s.gust? k = some g)
    (hm : (g.slot c.b).mask ≠ 0) (hj : (g.slot c.b).join = 0 ∨ d.pc.getD c.next ≠ (g.slot c.b).join) :
    finish c k d = d.s.setGust k (g.moved c d.move (d.pc.getD c.next) d.l1) := by
  unfold finish
  rw [hg]
  refine State.settled_apart (b := c.b) (State.gust?_setGust_self _ _ _) ?_ ?_
  · rw [Gust.endReplay_slot, Gust.advance_slot]; simpa [Slot.live] using hm
  · rw [Gust.endReplay_slot, Gust.advance_slot]
    simp only [Slot.atJoin]
    rcases hj with h | h
    · simp [h]
    · simp [h]

/-- Outside the run of the twins every group takes its own operands (R372). -/
theorem State.leadOf_first {s : State} (i : Instr) (g : Gust) (h : s.twinRun = false) : s.leadOf i g = g := by
  simp [State.leadOf, h]

/-- A gust without a twin takes its own operands (R372). -/
theorem State.leadOf_single {s : State} (i : Instr) (g : Gust) (h : tabGet? s.twins s.cur = none) : s.leadOf i g = g := by
  simp [State.leadOf, h]

/-- The context of a group that takes its own operands. -/
theorem Issues.groupCtx {i : Instr} {s : State} {g : Gust} (h : Issues i s g) : s.groupCtx i g = mkCtx i g s.curB := by
  unfold State.groupCtx; rw [h.own]; rfl

/-- A legal group of a gust that its twin agrees with runs its body. -/
theorem runGroup_body {i : Instr} {s : State} {g : Gust} (body : Body) (h : Issues i s g) :
    runGroup i s body = outcome (mkCtx i g s.curB) s.cur (body (mkCtx i g s.curB) s) := by
  unfold runGroup
  rw [h.here]
  simp only [h.legal, h.groupCtx]
  simp [twinOutcome, h.agree]

/-- A group whose body completes. -/
theorem runGroup_done {i : Instr} {s : State} {g : Gust} {body : Body} {d : Done} (h : Issues i s g)
    (hb : body (mkCtx i g s.curB) s = .ok d) : runGroup i s body = .next (finish (mkCtx i g s.curB) s.cur d) := by
  rw [runGroup_body body h, hb]; rfl

/-- A group whose body takes a fault or a trap. -/
theorem runGroup_fault {i : Instr} {s t : State} {g : Gust} {body : Body} {r : TrapReq} (h : Issues i s g)
    (hb : body (mkCtx i g s.curB) s = .error (.fault t r)) : runGroup i s body = .next (t.takeFault s.cur s.curB r) := by
  rw [runGroup_body body h, hb]; rfl

/-- A group whose body waits. -/
theorem runGroup_wait {i : Instr} {s t : State} {g : Gust} {body : Body} {w : Wait} (h : Issues i s g)
    (hb : body (mkCtx i g s.curB) s = .error (.wait t w)) :
    runGroup i s body = .next (t.setWait (mkCtx i g s.curB) s.cur w) := by
  rw [runGroup_body body h, hb]; rfl

/-- A group that its words, its window or its latches stop (R359). -/
theorem runGroup_stopped {i : Instr} {s : State} {g : Gust} (body : Body) (hg : s.gust? s.cur = some g) {code cause : Nat}
    (hf : preFault i s g s.curB = some (code, cause)) :
    runGroup i s body
      = .next (s.takeFault s.cur s.curB { code := code, cause := cause, xmask := (g.slot s.curB).mask }) := by
  unfold runGroup; rw [hg]; simp only [hf]

/-- Every group of a gust that exists has a next state: it completes, waits or traps (R72). -/
theorem runGroup_next {i : Instr} {s : State} {g : Gust} (body : Body) (hg : s.gust? s.cur = some g) :
    ∃ t, runGroup i s body = .next t := by
  have ho : ∀ c k r, ∃ t, outcome c k r = .next t := by
    intro c k r; unfold outcome; split <;> exact ⟨_, rfl⟩
  have hi : ∀ (p : Bool) (a : State) (o : Outcome), (∃ t, o = .next t) → ∃ t, (if p = true then .next a else o) = .next t := by
    intro p a o h; cases p
    · simpa using h
    · exact ⟨a, rfl⟩
  unfold runGroup
  rw [hg]
  simp only
  split
  · exact ⟨_, rfl⟩
  · unfold twinOutcome
    exact hi _ _ _ (ho _ _ _)

/-- An operand without drift records is used at once (R30). -/
theorem undrifted_body {i : Instr} {t : State} {g : Gust} {b : Bool} (body : Body) (h : g.driftOf b i = none) :
    undrifted body (mkCtx i g b) t = body (mkCtx i g b) t := by
  have hi : (mkCtx i g b).i = i := rfl
  have hg : (mkCtx i g b).g = g := rfl
  have hb : (mkCtx i g b).b = b := rfl
  unfold undrifted
  rw [hi, hg, hb, h]

end Sys2Proof.Machine
end

