-- ==== Sys2Proof/Laws/Results.lean ====
section
/-! SUPPORT. What an instruction with a register, pair or mask result does, said once for every body that ends in putResult,
putPair or putMask (spec/04 R93, R99, R103; spec/01 R16 to R25). -/

namespace Sys2Proof.Machine

/-! ## Room in the general storage -/

theorem Gust.growth_le (g : Gust) (wm : Word) (n : Nat) (v : Val) : (g.growth wm n v).1 ≤ 1 := by
  unfold Gust.growth; split
  · simp
  · simp only; split <;> simp

theorem Gust.growth_held (g : Gust) (wm : Word) (n : Nat) (v : Val)
    (h : (g.reg n).wide = true ∨ g.inTrapBank n = true) : (g.growth wm n v).1 = 0 := by
  unfold Gust.growth
  rcases h with h | h
  · split
    · rfl
    · simp [h]
  · simp [h]

theorem sum_growth_le (g : Gust) (wm : Word) (ws : List (Nat × Val)) :
    (ws.map fun w => (g.growth wm w.1 w.2).1).sum ≤ ws.length := by
  induction ws with
  | nil => simp
  | cons w ws ih => have := g.growth_le wm w.1 w.2; simp; omega

theorem sum_growth_held (g : Gust) (wm : Word) (ws : List (Nat × Val))
    (h : ∀ n ∈ ws.map (·.1), (g.reg n).wide = true ∨ g.inTrapBank n = true) :
    (ws.map fun w => (g.growth wm w.1 w.2).1).sum = 0 := by
  induction ws with
  | nil => simp
  | cons w ws ih =>
    simp only [List.map_cons, List.mem_cons, forall_eq_or_imp] at h
    simp only [List.map_cons, List.sum_cons, ih h.2, g.growth_held wm w.1 w.2 h.1]

/-- With room, no write raises FLT.GENOVF (R25). -/
theorem Gust.overBudget_room {g : Gust} {ws : List (Nat × Val)} (wm : Word) (h : Room g (ws.map (·.1))) :
    g.overBudget wm ws = false := by
  unfold Gust.overBudget
  simp only [Bool.and_eq_false_iff, decide_eq_false_iff_not]
  rcases h with h | h
  · right
    have := sum_growth_le g wm ws
    simp only [List.length_map] at h
    omega
  · left; rw [sum_growth_held g wm ws h]; omega

/-! ## Tags and GCNT -/

/-- The tag of a written register (R22 to R24). -/
theorem Gust.tag_stored (g : Gust) (m : Word) (old new : Val) : (g.stored m old new).tag = tagAfter g m new.tag old := by
  unfold Gust.stored tagAfter
  split
  · rfl
  · split <;> rfl

theorem wideCount_tabSet (t : Tab Val) (n lo : Nat) (v : Val) (h : keysFrom lo t = true) :
    wideCount (tabSet t n v) + (tabGetD t n (.u 0)).wide.toNat = wideCount t + v.wide.toNat := by
  induction t generalizing lo with
  | nil => cases hv : v.wide <;> simp [tabSet, wideCount, tabGetD, tabGet?, hv] <;> rfl
  | cons e t ih =>
    obtain ⟨k, w⟩ := e
    simp only [keysFrom, Bool.and_eq_true, decide_eq_true_eq] at h
    have cons : ∀ (k : Nat) (w : Val) (t : Tab Val), wideCount ((k, w) :: t) = wideCount t + w.wide.toNat := by
      intro k w t; cases hw : w.wide <;> simp [wideCount, hw]
    by_cases h1 : n < k
    · have hout : tabGet? ((k, w) :: t) n = none := tabGet?_below (lo := k) (by simp [keysFrom, h.2]) h1
      have : (tabGetD ((k, w) :: t) n (.u 0)).wide = false := by simp [tabGetD, hout]; rfl
      rw [this]; simp only [tabSet, if_pos h1, cons]; rfl
    · by_cases h2 : n = k
      · subst h2; simp only [tabSet, if_neg h1, if_true, cons, tabGetD, tabGet?, Option.getD_some]; omega
      · have := ih (k + 1) h.2
        have hg : tabGetD ((k, w) :: t) n (.u 0) = tabGetD t n (.u 0) := by
          simp only [tabGetD, tabGet?, if_neg (Ne.symm h2)]
        rw [hg]; simp only [tabSet, if_neg h1, if_neg h2, cons]; omega

/-- The reservations whose register is not wide, after a register was set. -/
theorem notWide_tabSet (t : Tab Val) (n : Nat) (v : Val) (L : List Nat) (hL : L.Nodup) :
    (L.filter fun m => !(tabGetD (tabSet t n v) m (.u 0)).wide).length + (decide (n ∈ L) && v.wide).toNat
      = (L.filter fun m => !(tabGetD t m (.u 0)).wide).length + (decide (n ∈ L) && (tabGetD t n (.u 0)).wide).toNat := by
  induction L with
  | nil => rfl
  | cons m L ih =>
    simp only [List.nodup_cons] at hL
    have ih := ih hL.2
    by_cases h : m = n
    · subst h
      have hd : decide (m ∈ L) = false := by simpa using hL.1
      have hm : decide (m ∈ m :: L) = true := by simp
      simp only [hd, Bool.false_and] at ih
      simp only [hm, Bool.true_and, List.filter_cons, tabGetD_tabSet_self]
      cases v.wide <;> cases (tabGetD t m (.u 0)).wide <;> simp_all
    · have hd : decide (n ∈ m :: L) = decide (n ∈ L) := by simp [Ne.symm h]
      rw [hd]
      simp only [List.filter_cons, tabGetD_tabSet_ne t v (.u 0) h]
      split
      · simp only [List.length_cons]; omega
      · exact ih

/-- GCNT after a register was set (R25). -/
theorem Gust.gcnt_setReg (g : Gust) (n : Nat) (v : Val) (h : keysFrom 0 g.regs = true) :
    (g.setReg n v).gcnt + (countsByTag g n && (g.reg n).wide).toNat = g.gcnt + (countsByTag g n && v.wide).toNat := by
  by_cases ht : g.inTrapBank n = true
  · simp [Gust.setReg, countsByTag, ht]; rfl
  · have hw := wideCount_tabSet g.regs (g.wb + n) 0 v h
    have hr := notWide_tabSet g.regs (g.wb + n) v (g.flagReserved.map fun e => e.2).dedup (List.nodup_dedup _)
    have hd : decide (g.wb + n ∈ (g.flagReserved.map fun e => e.2).dedup) = g.reserved (g.wb + n) := by
      rw [Bool.eq_iff_iff]; simp [Gust.reserved]
    rw [hd] at hr
    have hreg : g.reg n = tabGetD g.regs (g.wb + n) (.u 0) := by rw [Gust.reg, if_neg ht]
    rw [hreg]
    simp only [Gust.gcnt, Gust.setReg, if_neg ht, countsByTag]
    simp only [Bool.not_eq_true] at ht
    simp only [ht, Bool.not_false, Bool.true_and]
    cases hres : g.reserved (g.wb + n)
    · simp only [hres, Bool.false_and, Bool.not_false, Bool.true_and] at hr ⊢
      simp only [Bool.toNat_false] at hr
      omega
    · simp only [hres, Bool.true_and, Bool.not_true, Bool.false_and] at hr ⊢
      omega

theorem Gust.gcnt_setCapTag (g : Gust) (n : Nat) (b : Bool) : (g.setCapTag n b).gcnt = g.gcnt := by
  unfold Gust.setCapTag; split <;> rfl

/-- GCNT after a write by Wr (R25). -/
theorem Gust.gcnt_write1 (g : Gust) (m : Word) (n : Nat) (v : Val) (h : keysFrom 0 g.regs = true) :
    (g.write1 m n v).gcnt + (countsByTag g n && (g.reg n).wide).toNat
      = g.gcnt + (countsByTag g n && (g.stored m (g.reg n) v).wide).toNat := by
  unfold Gust.write1
  split
  · simp [Gust.stored, *]
  · rw [Gust.gcnt_setCapTag]; exact g.gcnt_setReg n _ h

theorem Gust.keys_write1 (g : Gust) (m : Word) (n : Nat) (v : Val) (h : keysFrom 0 g.regs = true) :
    keysFrom 0 (g.write1 m n v).regs = true := by
  unfold Gust.write1 Gust.setReg Gust.setCapTag
  split
  · exact h
  · split <;> split <;> first | exact h | exact keysFrom_tabSet _ _ h (Nat.zero_le _)

theorem Gust.countsByTag_write1 (g : Gust) (m : Word) (n k : Nat) (v : Val) :
    countsByTag (g.write1 m n v) k = countsByTag g k := by
  rw [Gust.write1_kept g m n v]; rfl

/-- What R25 says of one register: it raises GCNT, or lowers it, or leaves it. -/
theorem counted_one (c o w : Bool) {x y : Nat} (h : x + (c && o).toNat = y + (c && w).toNat) :
    x + (c && o && !w).toNat = y + (c && !o && w).toNat := by
  revert h; cases c <;> cases o <;> cases w <;> simp

theorem length_filter_one (p : Nat → Bool) (n : Nat) : ([n].filter p).length = (p n).toNat := by
  cases h : p n <;> simp [h]

/-- GCNT follows a write of one register (R25). -/
theorem gcntFollows_write1 {g h : Gust} (m : Word) (n : Nat) (v : Val) (hc : h.gcnt = (g.write1 m n v).gcnt)
    (hr : h.reg n = (g.write1 m n v).reg n) : GcntFollows g h [n] := by
  intro hk
  rw [length_filter_one, length_filter_one, hc, hr, Gust.reg_write1_self]
  exact counted_one _ _ _ (g.gcnt_write1 m n v hk)

/-- GCNT follows a write of two registers (R16, R25). -/
theorem gcntFollows_writeAll2 {g h : Gust} (m : Word) {n k : Nat} (v w : Val) (hnk : n ≠ k)
    (hc : h.gcnt = (g.writeAll m [(n, v), (k, w)]).gcnt)
    (hr : ∀ j, h.reg j = (g.writeAll m [(n, v), (k, w)]).reg j) : GcntFollows g h [n, k] := by
  intro hk
  have two : ∀ p : Nat → Bool, ([n, k].filter p).length = (p n).toNat + (p k).toNat := by
    intro p; cases h1 : p n <;> cases h2 : p k <;> simp [h1, h2]
  simp only [Gust.writeAll] at hc hr
  have h1 := counted_one _ _ _ (g.gcnt_write1 m n v hk)
  have h2 := counted_one _ _ _ ((g.write1 m n v).gcnt_write1 m k w (g.keys_write1 m n v hk))
  rw [Gust.countsByTag_write1, Gust.reg_write1_ne _ _ _ (Ne.symm hnk)] at h2
  have rn : h.reg n = g.stored m (g.reg n) v := by
    rw [hr, Gust.reg_write1_ne _ _ _ hnk, Gust.reg_write1_self]
  have rk : h.reg k = (g.write1 m n v).stored m (g.reg k) w := by
    rw [hr, Gust.reg_write1_self, Gust.reg_write1_ne _ _ _ (Ne.symm hnk)]
  rw [two, two, hc, rn, rk]
  omega

/-- GCNT when no register changes. -/
theorem gcntFollows_none {g h : Gust} (hc : h.gcnt = g.gcnt) : GcntFollows g h [] := fun _ => by simp [hc]

/-! ## Flags -/

/-- An instruction that raises no flag leaves the sticky flags as they are. -/
@[simp] theorem Gust.setFlags_none (g : Gust) (wm : Word) (pc : BitVec 56) (dest : Word) :
    g.setFlags wm (fun _ => {}) pc dest = g := by
  have : ((lanesOf wm).any fun _ => Fl.any {}) = false := by simp [Fl.any]
  simp [Gust.setFlags, Gust.orFlags, flagMask, this]

@[simp] theorem Gust.reg_setFlags (g : Gust) (wm : Word) (fl : Nat → Fl) (pc : BitVec 56) (dest : Word) (n : Nat) :
    (g.setFlags wm fl pc dest).reg n = g.reg n := by
  unfold Gust.setFlags; simp only; split <;> rfl

@[simp] theorem Gust.capTag_setFlags (g : Gust) (wm : Word) (fl : Nat → Fl) (pc : BitVec 56) (dest : Word) (n : Nat) :
    (g.setFlags wm fl pc dest).capTag n = g.capTag n := by
  unfold Gust.setFlags; simp only; split <;> rfl

theorem Gust.setFlags_kept (g : Gust) (wm : Word) (fl : Nat → Fl) (pc : BitVec 56) (dest : Word) :
    let h := g.setFlags wm fl pc dest
    h = { g with fNX := h.fNX, fUF := h.fUF, fOF := h.fOF, fDZ := h.fDZ, fNV := h.fNV, xfpc := h.xfpc, xdest := h.xdest } := by
  unfold Gust.setFlags; simp only; split <;> rfl

theorem Gust.setFlags_masks (g : Gust) (wm : Word) (fl : Nat → Fl) (pc : BitVec 56) (dest : Word) :
    let h := g.setFlags wm fl pc dest
    h.fNX = (g.orFlags wm fl).fNX ∧ h.fUF = (g.orFlags wm fl).fUF ∧ h.fOF = (g.orFlags wm fl).fOF
      ∧ h.fDZ = (g.orFlags wm fl).fDZ ∧ h.fNV = (g.orFlags wm fl).fNV := by
  unfold Gust.setFlags; simp only; split <;> simp

/-! ## The gust after a plain completion -/

/-- The slot that moved. -/
theorem Gust.moved_slot (g : Gust) (c : Ctx) (m : LatchMove) (pc : BitVec 56) (l1 : Latch) :
    (g.moved c m pc l1).slot c.b
      = { g.slot c.b with pc := pc, latches := moveLatches m (g.slot c.b).latches l1, wait := none, pages := none } := by
  rw [Gust.moved, Gust.endReplay_slot, Gust.advance_slot]

/-- The other slot, when the group is no split. -/
theorem Gust.moved_slot_not (g : Gust) (c : Ctx) (m : LatchMove) (pc : BitVec 56) (l1 : Latch) (hm : m ≠ .both) :
    (g.moved c m pc l1).slot (!c.b) = g.slot (!c.b) := by
  rw [Gust.moved, Gust.endReplay_slot]
  unfold Gust.advance
  simp [hm]

/-- A slot without a replay has none to end. -/
theorem Gust.filter_replay {g : Gust} {b : Bool} (h : g.replayOf b = none) : (g.replay.filter fun e => e.1 != b) = g.replay := by
  simp only [Gust.replayOf, Option.map_eq_none_iff, List.find?_eq_none] at h
  exact List.filter_eq_self.2 fun e he => by simpa using h e he

/-- XDONE and the replays after a group (R149, R193). -/
theorem Gust.endReplay_kept {A g : Gust} {i : Instr} {s : State} (hr : A.replay = g.replay) (hx : A.xdone = g.xdone) :
    A.endReplay s.curB (g.replayOf s.curB) (if countsLanes i then some (active i s g) else none)
      = { A with replay := replayAfter s g, xdone := doneAfter i s g } := by
  unfold Gust.endReplay doneAfter replayAfter
  cases h : g.replayOf s.curB with
  | none => simp only [Gust.filter_replay h]; rw [← hr, ← hx]
  | some d => cases countsLanes i <;> simp [hr, hx]

theorem Gust.advance_kept (g : Gust) (b : Bool) (pc : BitVec 56) (m : LatchMove) (l1 : Latch) :
    let h := g.advance b pc m l1
    h = { g with a := h.a, b := h.b } := by
  unfold Gust.advance Gust.setSlot
  simp only
  repeat' split
  all_goals rfl

/-- The rest of the gust, whose replays and XDONE the body left as they were. -/
theorem Gust.moved_kept {G g : Gust} {i : Instr} {s : State} (m : LatchMove) (pc : BitVec 56) (l1 : Latch)
    (hr : G.replay = g.replay) (hx : G.xdone = g.xdone) :
    let h := G.moved (mkCtx i g s.curB) m pc l1
    h = { G with a := h.a, b := h.b, replay := replayAfter s g, xdone := doneAfter i s g } := by
  have hk := G.advance_kept s.curB pc m l1
  simp only at hk
  have h1 : (G.advance s.curB pc m l1).replay = g.replay := by rw [hk]; exact hr
  have h2 : (G.advance s.curB pc m l1).xdone = g.xdone := by rw [hk]; exact hx
  have he : G.moved (mkCtx i g s.curB) m pc l1
      = { G.advance s.curB pc m l1 with replay := replayAfter s g, xdone := doneAfter i s g } :=
    Gust.endReplay_kept h1 h2
  simp only
  rw [he]
  exact congrArg (fun B : Gust => { B with replay := replayAfter s g, xdone := doneAfter i s g }) hk

theorem State.gusts_setGust_eq (s : State) (k : Nat) (x : Gust) :
    s.setGust k x = { s with gusts := (s.setGust k x).gusts } := rfl

theorem onlyGust_setGust (s : State) (x : Gust) : OnlyGust s (s.setGust s.cur x) :=
  ⟨rfl, fun _ h => State.gust?_setGust_ne s x h⟩

/-- L1 after a shift. -/
theorem latch_one (ls : List Latch) (l1 : Latch) (x : Slot) :
    ({ x with latches := moveLatches .shift ls l1 } : Slot).latch 1 = l1 := by simp [Slot.latch, moveLatches]

/-- L2 to L8 after a shift. -/
theorem latch_shift (x y : Slot) (l1 : Latch) {n : Nat} (h1 : 1 ≤ n) (h7 : n ≤ 7) :
    ({ y with latches := moveLatches .shift x.latches l1 } : Slot).latch (n + 1) = x.latch n := by
  obtain ⟨m, rfl⟩ : ∃ m, n = m + 1 := ⟨n - 1, by omega⟩
  simp only [Slot.latch, moveLatches, Nat.add_sub_cancel]
  simp only [List.getD_eq_getElem?_getD, List.getElem?_cons_succ, List.getElem?_take]
  rw [if_pos (by omega)]

/-- A group whose body leaves a gust G with the slots of g and shifts: the next state, and all that is known of it. -/
theorem completes_shift {i : Instr} {s : State} {g G : Gust} {body : Body} {l1 : Latch} (h : Issues i s g)
    (hs : StaysApart s g (nextPc i s g)) (he : exec i s = runGroup i s body)
    (hb : body (mkCtx i g s.curB) s = .ok { s := s.putGust G, l1 := l1 }) (hG : ∀ b, G.slot b = g.slot b)
    (hp : G.replay = g.replay) (hx : G.xdone = g.xdone) :
    ∃ t k, exec i s = .next t ∧ t.gust? s.cur = some k ∧ OnlyGust s t ∧ GoesOn s g k (nextPc i s g) ∧ Shifted s g k
      ∧ (k.slot s.curB).latch 1 = l1
      ∧ k = { G with a := k.a, b := k.b, replay := replayAfter s g, xdone := doneAfter i s g } := by
  have hc : (mkCtx i g s.curB).b = s.curB := rfl
  have hfin : finish (mkCtx i g s.curB) s.cur { s := s.putGust G, l1 := l1 }
      = (s.putGust G).setGust s.cur (G.moved (mkCtx i g s.curB) .shift (mkCtx i g s.curB).next l1) :=
    finish_apart (State.gust?_setGust_self _ _ _) (by rw [hG, hc]; exact hs.1) (by rw [hG, hc]; exact hs.2)
  have m1 := G.moved_slot (mkCtx i g s.curB) .shift (mkCtx i g s.curB).next l1
  have m2 := G.moved_slot_not (mkCtx i g s.curB) .shift (mkCtx i g s.curB).next l1 (by decide)
  rw [hc, hG] at m1 m2
  refine ⟨_, G.moved (mkCtx i g s.curB) .shift (mkCtx i g s.curB).next l1, by rw [he, runGroup_done h hb, hfin], ?_, ?_, ?_,
    ?_, ?_, ?_⟩
  · exact State.gust?_setGust_self _ _ _
  · rw [State.putGust, State.setGust_setGust]; exact onlyGust_setGust s _
  · refine ⟨?_, ?_, ?_, ?_, ?_⟩
    · rw [m1]; rfl
    · rw [m1]
    · rw [m1]
    · rw [m1]
    · exact m2
  · intro n h1 h7
    rw [m1]
    exact latch_shift (g.slot s.curB) { g.slot s.curB with pc := _, wait := none, pages := none } l1 h1 h7
  · rw [m1]
    exact latch_one _ _ (g.slot s.curB)
  · exact Gust.moved_kept _ _ _ hp hx

/-! ## Results -/

theorem Gust.write1_slot (g : Gust) (wm : Word) (n : Nat) (v : Val) (b : Bool) : (g.write1 wm n v).slot b = g.slot b := by
  rw [Gust.write1_kept g wm n v]; cases b <;> rfl

theorem Gust.setFlags_slot (g : Gust) (wm : Word) (fl : Nat → Fl) (pc : BitVec 56) (dest : Word) (b : Bool) :
    (g.setFlags wm fl pc dest).slot b = g.slot b := by
  unfold Gust.setFlags; simp only; split <;> cases b <;> rfl

/-- putResult, with room: the register write or the latch alone (R18), and the flags. -/
theorem putResult_ok {c : Ctx} {s : State} {d : BitVec 7} {v : Val} {fl : Nat → Fl} (h : c.w = true ∨ Room c.g [d.toNat]) :
    putResult c s d v fl = .ok
      { s := s.putGust ((if c.w then c.g else c.g.write1 c.wm d.toNat v).setFlags c.wm fl c.pc
          (if c.w then 0x3FE else c.g.destCode d.toNat))
        l1 := .val (c.g.stored c.wm (c.g.reg d.toNat) v) } := by
  unfold putResult
  by_cases hw : c.w = true
  · simp [hw]
  · have hr : Room c.g [d.toNat] := by simpa [hw] using h
    have hb : c.g.overBudget c.wm [(d.toNat, v)] = false := Gust.overBudget_room _ (by simpa using hr)
    simp [hw, wrAll, hb, Gust.writeAll, State.putGust]

/-- What an instruction that ends in putResult does (R18, R22 to R25, R36, R93). -/
theorem result_of_putResult {i : Instr} {s : State} {g : Gust} {body : Body} {w : BitVec 1} {d : BitVec 7} {v : Val}
    {op : Nat → Word} {fl : Nat → Fl} (h : Issues i s g) (hs : StaysApart s g (nextPc i s g))
    (hr : w = 1 ∨ Room g [d.toNat]) (hw : i.view.w = w) (he : exec i s = runGroup i s body)
    (hb : body (mkCtx i g s.curB) s = putResult (mkCtx i g s.curB) s d v fl)
    (hv : ∀ l, inMask g.lmask l → inMask (active i s g) l → v.lane l = op l) (ht : v.tag = fullTag i s g) :
    let W := if w = 1 then g else g.write1 (active i s g) d.toNat v
    ∃ t k v', exec i s = .next t ∧ t.gust? s.cur = some k ∧ OnlyGust s t ∧ GoesOn s g k (nextPc i s g) ∧ Shifted s g k
      ∧ k = { W.setFlags (active i s g) fl (groupPc s g) (if w = 1 then 0x3FE else destOf g d.toNat) with
                a := k.a, b := k.b, replay := replayAfter s g, xdone := doneAfter i s g }
      ∧ RegsKept g k (if w = 1 then [] else [d.toNat])
      ∧ (k.slot s.curB).latch 1 = .val v' ∧ (w ≠ 1 → k.reg d.toNat = v')
      ∧ (∀ l, inMask g.lmask l → v'.lane l = if inMask (active i s g) l then op l else regLane g d l)
      ∧ v'.tag = tagAfter g (active i s g) (fullTag i s g) (g.reg d.toNat)
      ∧ GcntFollows g k (if w = 1 then [] else [d.toNat]) := by
  intro W
  have hcw : (mkCtx i g s.curB).w = (w == 1) := by rw [Ctx.w]; exact congrArg (· == 1) hw
  have hroom : (mkCtx i g s.curB).w = true ∨ Room (mkCtx i g s.curB).g [d.toNat] := by
    rcases hr with hr | hr
    · left; rw [hcw, hr]; rfl
    · right; exact hr
  have hdest : (if w = 1 then (0x3FE : Word) else destOf g d.toNat) = if (w == 1) = true then 0x3FE else g.destCode d.toNat := by
    by_cases hw1 : w = 1
    · simp [hw1]
    · simp only [hw1, if_false, destOf, Gust.destCode, beq_iff_eq]; split <;> rfl
  have hWif : (if (w == 1) = true then g else g.write1 (active i s g) d.toNat v) = W := by simp [W]
  rw [putResult_ok hroom, hcw] at hb
  change _ = (Except.ok { s := s.putGust ((if (w == 1) = true then g else g.write1 (active i s g) d.toNat v).setFlags
    (active i s g) fl (groupPc s g) (if (w == 1) = true then 0x3FE else g.destCode d.toNat)), l1 := _ } : Except Stop Done) at hb
  rw [hWif, ← hdest] at hb
  have hWk : W = { g with regs := W.regs, trapBank := W.trapBank, capTags := W.capTags, trapCapTags := W.trapCapTags } := by
    simp only [W]; split
    · rfl
    · exact Gust.write1_kept _ _ _ _
  have hWs : ∀ b, W.slot b = g.slot b := by intro b; rw [hWk]; cases b <;> rfl
  have hfk := Gust.setFlags_kept W (active i s g) fl (groupPc s g) (if w = 1 then 0x3FE else destOf g d.toNat)
  simp only at hfk
  obtain ⟨t, k, e, hk, ho, hg, hsh, h1, hkept⟩ := completes_shift h hs he hb
    (by intro b; rw [Gust.setFlags_slot, hWs]) (by rw [hfk, hWk]) (by rw [hfk, hWk])
  have hreg : ∀ n, k.reg n = W.reg n := by
    intro n
    rw [← Gust.reg_setFlags W (active i s g) fl (groupPc s g) (if w = 1 then 0x3FE else destOf g d.toNat) n, hkept]; rfl
  have hcap : ∀ n, k.capTag n = W.capTag n := by
    intro n
    rw [← Gust.capTag_setFlags W (active i s g) fl (groupPc s g) (if w = 1 then 0x3FE else destOf g d.toNat) n, hkept]; rfl
  have hcnt : k.gcnt = W.gcnt := by rw [hkept, hfk]; rfl
  refine ⟨t, k, _, e, hk, ho, hg, hsh, hkept, ⟨?_, ?_⟩, h1, ?_, ?_, ?_, ?_⟩
  · intro n hn
    rw [hreg]
    by_cases hw1 : w = 1
    · simp [W, hw1]
    · simp only [hw1, if_false, List.mem_singleton] at hn
      simp only [W]
      rw [if_neg hw1, Gust.reg_write1_ne _ _ _ hn]
  · intro n hn
    rw [hcap] at hn
    simp only [W] at hn
    split at hn
    · exact hn
    · exact Gust.capTag_write1 _ _ _ _ _ hn
  · intro hw1
    rw [hreg]; simp only [W]; rw [if_neg hw1, Gust.reg_write1_self]; rfl
  · intro l hl
    change (g.stored (active i s g) (g.reg d.toNat) v).lane l = _
    rw [Gust.lane_stored _ _ _ _ hl]
    split
    · exact hv l hl (by assumption)
    · simp [regLane, Gust.lane, hl]
  · change (g.stored (active i s g) (g.reg d.toNat) v).tag = _
    rw [Gust.tag_stored, ht]
  · by_cases hw1 : w = 1
    · rw [if_pos hw1]; exact gcntFollows_none (by rw [hcnt]; simp only [W, if_pos hw1])
    · rw [if_neg hw1]
      refine gcntFollows_write1 (active i s g) d.toNat v ?_ ?_
      · rw [hcnt]; simp only [W, if_neg hw1]
      · rw [hreg]; simp only [W, if_neg hw1]

/-- An instruction that ends in putResult and raises no flag writes one register (R93). -/
theorem writesReg_of_putResult {i : Instr} {s : State} {g : Gust} {body : Body} {w : BitVec 1} {d : BitVec 7} {v : Val}
    {op : Nat → Word} (h : Issues i s g) (hs : StaysApart s g (nextPc i s g)) (hr : w = 1 ∨ Room g [d.toNat])
    (hw : i.view.w = w) (he : exec i s = runGroup i s body)
    (hb : body (mkCtx i g s.curB) s = putResult (mkCtx i g s.curB) s d v)
    (hv : ∀ l, inMask g.lmask l → inMask (active i s g) l → v.lane l = op l) (ht : v.tag = fullTag i s g) :
    WritesReg i s g w d op := by
  obtain ⟨t, k, v', e, hk, ho, hg, hsh, hkept, hrest⟩ := result_of_putResult h hs hr hw he hb hv ht
  refine ⟨t, k, v', e, hk, ho, hg, hsh, ?_, hrest⟩
  rw [Gust.setFlags_none] at hkept
  rw [GustKept, hkept]
  split
  · rfl
  · conv_lhs => rw [Gust.write1_kept]

/-- A flag mask after flags were or-ed in (R36). -/
theorem inMask_orFlag (m wm : Word) (p : Nat → Bool) {l : Nat} (h : l < 32) :
    inMask (m ||| flagMask wm p) l = (inMask m l || (inMask wm l && p l)) := by
  simp [flagMask, h]

/-- Whether a group is the first to set a flag (R145), lane by lane. -/
theorem setsFirst_eq (i : Instr) (s : State) (g : Gust) (fl : Nat → Fl) :
    (g.flagsClear && (lanesOf (active i s g)).any fun l => (fl l).any) = setsFirst i s g fl := by
  have h1 : g.flagsClear = lanes.all fun l => !inMask g.lmask l
      || !(inMask g.fNX l || inMask g.fUF l || inMask g.fOF l || inMask g.fDZ l || inMask g.fNV l) := by
    rw [Bool.eq_iff_iff]
    simp only [Gust.flagsClear, beq_iff_eq, List.all_eq_true, mem_lanes]
    have hz : ∀ l, inMask 0 l = false := by intro l; simp [inMask]
    constructor
    · intro h l _
      have := congrArg (inMask · l) h
      simp only [inMask_and, inMask_or, hz] at this
      revert this; cases inMask g.lmask l <;> simp
    · intro h
      refine mask_ext fun l hl => ?_
      have := h l hl
      simp only [inMask_and, inMask_or, hz]
      revert this; cases inMask g.lmask l <;> simp
  have h2 : ((lanesOf (active i s g)).any fun l => (fl l).any) = lanes.any fun l => inMask (active i s g) l && (fl l).any := by
    rw [lanesOf, List.any_filter]
  rw [setsFirst, h1, h2]

/-- The flags of a group, and XFPC and XDEST (R36, R145). -/
theorem flagsRaised_setFlags {i : Instr} {s : State} {g W k : Gust} {dest : Word} {fl : Nat → Fl}
    (hW : W.fNX = g.fNX ∧ W.fUF = g.fUF ∧ W.fOF = g.fOF ∧ W.fDZ = g.fDZ ∧ W.fNV = g.fNV ∧ W.lmask = g.lmask
      ∧ W.xfpc = g.xfpc ∧ W.xdest = g.xdest)
    (hk : let X := W.setFlags (active i s g) fl (groupPc s g) dest
      k.fNX = X.fNX ∧ k.fUF = X.fUF ∧ k.fOF = X.fOF ∧ k.fDZ = X.fDZ ∧ k.fNV = X.fNV ∧ k.xfpc = X.xfpc ∧ k.xdest = X.xdest) :
    FlagsRaised i s g k dest fl := by
  obtain ⟨w1, w2, w3, w4, w5, w6, w7, w8⟩ := hW
  obtain ⟨k1, k2, k3, k4, k5, k6, k7⟩ := hk
  have hm := Gust.setFlags_masks W (active i s g) fl (groupPc s g) dest
  simp only at hm
  obtain ⟨m1, m2, m3, m4, m5⟩ := hm
  have hf : (W.flagsClear && (lanesOf (active i s g)).any fun l => (fl l).any) = setsFirst i s g fl := by
    rw [← setsFirst_eq]; simp only [Gust.flagsClear, w1, w2, w3, w4, w5, w6]
  refine ⟨?_, ?_, fun l hl _ => ?_⟩
  · rw [k6, Gust.setFlags, hf]
    split <;> simp_all [groupPc, Gust.orFlags]
  · rw [k7, Gust.setFlags, hf]
    split <;> simp_all [Gust.orFlags]
  · rw [k1, k2, k3, k4, k5, m1, m2, m3, m4, m5]
    simp only [Gust.orFlags, w1, w2, w3, w4, w5]
    refine ⟨?_, ?_, ?_, ?_, ?_⟩ <;> exact inMask_orFlag _ _ _ hl

/-- An instruction that ends in putResult writes one register and raises flags (R36, R93). -/
theorem writesRegFlags_of_putResult {i : Instr} {s : State} {g : Gust} {body : Body} {w : BitVec 1} {d : BitVec 7} {v : Val}
    {op : Nat → Word} {fl : Nat → Fl} (h : Issues i s g) (hs : StaysApart s g (nextPc i s g))
    (hr : w = 1 ∨ Room g [d.toNat]) (hw : i.view.w = w) (he : exec i s = runGroup i s body)
    (hb : body (mkCtx i g s.curB) s = putResult (mkCtx i g s.curB) s d v fl)
    (hv : ∀ l, inMask g.lmask l → inMask (active i s g) l → v.lane l = op l) (ht : v.tag = fullTag i s g) :
    WritesRegFlags i s g w d op fl := by
  obtain ⟨t, k, v', e, hk, ho, hg, hsh, hkept, hrk, h1, hd, hl, htag, hgc⟩ := result_of_putResult h hs hr hw he hb hv ht
  set W := if w = 1 then g else g.write1 (active i s g) d.toNat v with hW
  have hWk : W = { g with regs := W.regs, trapBank := W.trapBank, capTags := W.capTags, trapCapTags := W.trapCapTags } := by
    rw [hW]; split
    · rfl
    · exact Gust.write1_kept _ _ _ _
  have hfk := Gust.setFlags_kept W (active i s g) fl (groupPc s g) (if w = 1 then 0x3FE else destOf g d.toNat)
  simp only at hfk
  refine ⟨t, k, v', e, hk, ho, hg, hsh, ?_, hrk, h1, hd, hl, htag, hgc, flagsRaised_setFlags (W := W) ?_ ?_⟩
  · rw [GustKeptButFlags, hkept, hfk, hWk]
  · rw [hWk]; simp
  · rw [hkept]; simp

theorem Gust.writeAll_slot (g : Gust) (wm : Word) (ws : List (Nat × Val)) (b : Bool) : (g.writeAll wm ws).slot b = g.slot b := by
  induction ws generalizing g with
  | nil => rfl
  | cons w ws ih => rw [Gust.writeAll, ih, Gust.write1_slot]

theorem Gust.write1_lmask (g : Gust) (wm : Word) (n : Nat) (v : Val) : (g.write1 wm n v).lmask = g.lmask := by
  rw [Gust.write1_kept g wm n v]

theorem Gust.writeAll_kept (g : Gust) (wm : Word) (ws : List (Nat × Val)) :
    let h := g.writeAll wm ws
    h = { g with regs := h.regs, trapBank := h.trapBank, capTags := h.capTags, trapCapTags := h.trapCapTags } := by
  induction ws generalizing g with
  | nil => rfl
  | cons w ws ih =>
    obtain ⟨n, v⟩ := w
    simp only [Gust.writeAll] at ih ⊢
    refine (ih (g.write1 wm n v)).trans ?_
    generalize (g.write1 wm n v).writeAll wm ws = X
    rw [Gust.write1_kept g wm n v]

theorem Gust.reg_writeAll_out (g : Gust) (wm : Word) (ws : List (Nat × Val)) {n : Nat} (h : n ∉ ws.map (·.1)) :
    (g.writeAll wm ws).reg n = g.reg n := by
  induction ws generalizing g with
  | nil => rfl
  | cons w ws ih =>
    simp only [List.map_cons, List.mem_cons, not_or] at h
    rw [Gust.writeAll, ih _ h.2, Gust.reg_write1_ne _ _ _ h.1]

theorem Gust.capTag_writeAll (g : Gust) (wm : Word) (ws : List (Nat × Val)) (m : Nat)
    (h : (g.writeAll wm ws).capTag m = true) : g.capTag m = true := by
  induction ws generalizing g with
  | nil => exact h
  | cons w ws ih => exact Gust.capTag_write1 _ _ _ _ _ (ih _ h)

/-- An instruction that ends in putPair writes a pair (R16). -/
theorem writesPair_of_putPair {i : Instr} {s : State} {g : Gust} {body : Body} {d : BitVec 7} {lo hi : Val}
    {op : Nat → DWord} (h : Issues i s g) (hs : StaysApart s g (nextPc i s g)) (hr : Room g [d.toNat, d.toNat + 1])
    (he : exec i s = runGroup i s body) (hb : body (mkCtx i g s.curB) s = putPair (mkCtx i g s.curB) s d lo hi)
    (hv : ∀ l, inMask g.lmask l → inMask (active i s g) l → DWord.mk (hi.lane l) (lo.lane l) = op l)
    (ht : lo.tag = fullTag i s g ∧ hi.tag = fullTag i s g) : WritesPair i s g d op := by
  have hbud : g.overBudget (active i s g) [(d.toNat, lo), (d.toNat + 1, hi)] = false := Gust.overBudget_room _ hr
  have hp : putPair (mkCtx i g s.curB) s d lo hi = .ok
      { s := s.putGust (g.writeAll (active i s g) [(d.toNat, lo), (d.toNat + 1, hi)])
        l1 := .val (g.stored (active i s g) (g.reg d.toNat) lo) } := by
    have hw : wrAll (mkCtx i g s.curB) s [(d.toNat, lo), (d.toNat + 1, hi)]
        = .ok (s.putGust (g.writeAll (active i s g) [(d.toNat, lo), (d.toNat + 1, hi)]),
            .val (g.stored (active i s g) (g.reg d.toNat) lo)) := by
      unfold wrAll; exact if_neg (by rw [Bool.not_eq_true]; exact hbud)
    unfold putPair; rw [hw]
  rw [hp] at hb
  obtain ⟨t, k, e, hk, ho, hg, hsh, _, hkept⟩ := completes_shift h hs he hb (fun b => Gust.writeAll_slot _ _ _ b)
    (by rw [Gust.writeAll_kept g]) (by rw [Gust.writeAll_kept g])
  have hreg : ∀ n, k.reg n = (g.writeAll (active i s g) [(d.toNat, lo), (d.toNat + 1, hi)]).reg n := by
    intro n; rw [hkept]; rfl
  have r1 : k.reg d.toNat = g.stored (active i s g) (g.reg d.toNat) lo := by
    rw [hreg]
    simp only [Gust.writeAll]
    rw [Gust.reg_write1_ne _ _ _ (by omega), Gust.reg_write1_self]
  have r2 : k.reg (d.toNat + 1) = (g.write1 (active i s g) d.toNat lo).stored (active i s g) (g.reg (d.toNat + 1)) hi := by
    rw [hreg]
    simp only [Gust.writeAll]
    rw [Gust.reg_write1_self, Gust.reg_write1_ne _ _ _ (by omega)]
  refine ⟨t, k, e, hk, ho, hg, hsh, ?_, ⟨?_, ?_⟩, ⟨?_, ?_⟩, ?_⟩
  · rw [GustKept, hkept, Gust.writeAll_kept g]
  · intro n hn
    rw [hreg]; exact Gust.reg_writeAll_out _ _ _ (by simpa using hn)
  · intro n hn
    have : (g.writeAll (active i s g) [(d.toNat, lo), (d.toNat + 1, hi)]).capTag n = true := by
      rw [hkept] at hn; exact hn
    exact Gust.capTag_writeAll _ _ _ _ this
  · intro n hn
    simp only [List.mem_cons, List.not_mem_nil, or_false] at hn
    rcases hn with rfl | rfl
    · rw [r1, Gust.tag_stored, ht.1]
    · rw [r2, Gust.tag_stored, ht.2]; simp only [tagAfter, Gust.write1_lmask]
  · refine gcntFollows_writeAll2 (active i s g) lo hi (by omega) ?_ hreg
    rw [hkept]; rfl
  · intro l hl
    have hl2 : inMask (g.write1 (active i s g) d.toNat lo).lmask l = true := by rw [Gust.write1_lmask]; exact hl
    have hkl : k.lmask = g.lmask := by rw [hkept, Gust.writeAll_kept g]
    simp only [pairLane64, Gust.lane, hkl, hl, if_true, r1, r2]
    rw [Gust.lane_stored _ _ _ _ hl, Gust.lane_stored _ _ _ _ hl2]
    by_cases ha : inMask (active i s g) l = true
    · rw [if_pos ha, if_pos ha, if_pos ha]; exact hv l hl ha
    · rw [if_neg ha, if_neg ha, if_neg ha]

theorem inMask_replaceIn (wm old : Word) (p : Nat → Bool) {l : Nat} (h : l < 32) :
    inMask (replaceIn wm old p) l = if inMask wm l then p l else inMask old l := by
  have hn : inMask (~~~wm) l = !inMask wm l := by simp [inMask, h]
  simp only [replaceIn, inMask_or, inMask_and, hn, inMask_maskOf p h]
  cases inMask wm l <;> simp

/-- An instruction that ends in putMask and raises no flag writes one mask register (R99). -/
theorem writesMask_of_putMask {i : Instr} {s : State} {g : Gust} {body : Body} {d : BitVec 7} {op : Nat → Bool}
    (h : Issues i s g) (hs : StaysApart s g (nextPc i s g)) (hd : 1 ≤ d.toNat ∧ d.toNat ≤ 7) (hm : g.masks.length = 7)
    (he : exec i s = runGroup i s body) {p : Nat → Bool}
    (hb : body (mkCtx i g s.curB) s = putMask (mkCtx i g s.curB) s d p)
    (hp : ∀ l, inMask g.lmask l → inMask (active i s g) l → p l = op l) (hc : countsLanes i = false) :
    WritesMask i s g d op := by
  simp only [putMask, Gust.setFlags_none] at hb
  obtain ⟨t, k, e, hk, ho, hg, hsh, _, hkept⟩ := completes_shift (l1 := .empty 2) h hs he hb (fun b => by cases b <;> rfl)
    rfl rfl
  have hx : doneAfter i s g = g.xdone := by unfold doneAfter; split <;> simp [hc]
  have hkm : k.masks = listSet g.masks (d.toNat - 1) (replaceIn (active i s g) (g.maskReg d.toNat) p &&& g.lmask) := by
    rw [hkept]; rfl
  refine ⟨t, k, e, hk, ho, hg, hsh, ?_, ?_, ?_⟩
  · conv_lhs => rw [hkept]
    conv_rhs => rw [hkm]
    rw [hx]; rfl
  · intro n h1 h7 hn
    simp only [Gust.maskReg, hkm]
    rw [getD_listSet_ne _ _ _ _ _ (by omega)]
  · intro l hl
    have : k.maskReg d.toNat = replaceIn (active i s g) (g.maskReg d.toNat) p &&& g.lmask := by
      simp only [Gust.maskReg, hkm]
      rw [if_neg (by omega), getD_listSet_self _ _ _ _ (by omega)]
    rw [this, inMask_and, inMask_replaceIn _ _ _ hl]
    cases hL : inMask g.lmask l
    · simp
    · by_cases ha : inMask (active i s g) l = true
      · simp [ha, hp l hL ha]
      · simp [ha]

end Sys2Proof.Machine
end

