-- ==== Sys2Proof/Laws/Integer.lean ====
section
/-! SUPPORT. The value of an integer result with its tag (spec/01 R23), and the body shapes of the integer instructions
(spec/04 R93 to R103) as register writes. -/

namespace Sys2Proof.Machine

theorem inputs_affine {v : Val} (h : v.affine = true) (l : Nat) :
    v.lane l = v.lane 0 + BitVec.ofNat 32 l * (v.lane 1 - v.lane 0) := by
  cases v with
  | u x => simp [Val.lane]
  | l b t => simp [Val.lane]
  | g xs => simp [Val.affine] at h
  | d r xs => simp [Val.affine] at h

theorem uniform_lane {v : Val} (h : v.isU = true) (l : Nat) : v.lane l = v.lane 0 := by
  cases v <;> simp_all [Val.isU, Val.lane]

/-- Lane l of an integer result is the lane's value whatever the tag, when the function is affine in the lane for the inputs
that give L, and the same in all lanes for inputs that are all U. -/
theorem lane_resultOf {g : Gust} {r : TagRule} {ins : List Val} {f : Nat → Word} {l : Nat} (hl : inMask g.lmask l = true)
    (hu : ins.all Val.isU = true → f l = f 0)
    (ha : r.linear ins = true → f l = f 0 + BitVec.ofNat 32 l * (f 1 - f 0)) : (resultOf g r ins f).lane l = f l := by
  unfold resultOf
  split
  · rw [hu (by assumption)]; rfl
  · split
    · rw [ha (by assumption)]; rfl
    · exact Gust.lane_mkG g f hl

/-- The tag of an integer result (R23). -/
theorem tag_resultOf (g : Gust) (r : TagRule) (ins : List Val) (f : Nat → Word) :
    (resultOf g r ins f).tag = if ins.all Val.isU then 1 else if r.linear ins then 2 else 0 := by
  unfold resultOf
  split
  · rfl
  · split <;> rfl

/-- The inputs of a plain result are all U or give G (R23). -/
theorem tag_plain (g : Gust) (ins : List Val) (f : Nat → Word) : (resultOf g .plain ins f).tag = uniformTag ins := by
  have hu : ins.all Val.isU = ins.all fun v => v.tag == 1 :=
    congrArg ins.all (funext fun v => by cases v <;> rfl)
  rw [tag_resultOf, uniformTag, hu]
  simp [TagRule.linear]

/-- A two-source integer instruction on plain operands. -/
theorem int2_body {i : Instr} {s : State} {g : Gust} (f : RForm) (r : TagRule) (op : Word → Word → Word)
    (hd : NoDrift i s g) : int2 f r op (mkCtx i g s.curB) s
      = putResult (mkCtx i g s.curB) s f.d (resultOf g r [g.src s.curB f.sa.toNat, g.src s.curB f.sb.toNat]
          fun l => op ((g.src s.curB f.sa.toNat).lane l) ((g.src s.curB f.sb.toNat).lane l)) :=
  undrifted_body _ hd

/-- A one-source integer instruction on a plain operand. -/
theorem int1_body {i : Instr} {s : State} {g : Gust} (f : RForm) (op : Word → Word) (hd : NoDrift i s g) :
    int1 f op (mkCtx i g s.curB) s
      = putResult (mkCtx i g s.curB) s f.d (resultOf g .plain [g.src s.curB f.sa.toNat] fun l => op ((g.src s.curB f.sa.toNat).lane l)) :=
  undrifted_body _ hd

/-- A three-source integer instruction on plain operands. -/
theorem int3_body {i : Instr} {s : State} {g : Gust} (f : RForm) (r : TagRule) (op : Word → Word → Word → Word)
    (hd : NoDrift i s g) : int3 f r op (mkCtx i g s.curB) s
      = putResult (mkCtx i g s.curB) s f.d
          (resultOf g r [g.src s.curB f.sa.toNat, g.src s.curB f.sb.toNat, g.reg f.d.toNat]
            fun l => op ((g.src s.curB f.sa.toNat).lane l) ((g.src s.curB f.sb.toNat).lane l) ((g.reg f.d.toNat).lane l)) :=
  undrifted_body _ hd

/-- An integer instruction with an immediate on a plain operand. -/
theorem intI_body {i : Instr} {s : State} {g : Gust} (d sa : BitVec 7) (r : TagRule) (op : Word → Word → Word) (k : Word)
    (hd : NoDrift i s g) : intI d sa r op k (mkCtx i g s.curB) s
      = putResult (mkCtx i g s.curB) s d (resultOf g r [g.src s.curB sa.toNat, .u k] fun l => op ((g.src s.curB sa.toNat).lane l) k) :=
  undrifted_body _ hd

end Sys2Proof.Machine
end

