-- ==== Sys2Proof/Laws/Memory.lean ====
section
/-! SUPPORT. Memory: a read after a write, and that every memory operation keeps the canonical form. -/

namespace Sys2Proof.Machine

/-! ## Keys -/

variable {α : Type}

theorem mem_tabSet {t : Tab α} {n : Nat} {v : α} {c : Nat × α} (h : c ∈ tabSet t n v) : c = (n, v) ∨ c ∈ t := by
  induction t with
  | nil => simpa [tabSet] using h
  | cons e t ih =>
    obtain ⟨k, w⟩ := e
    simp only [tabSet] at h
    split at h
    · simpa using h
    · split at h
      · simp at h ⊢; tauto
      · simp at h ⊢; rcases h with h | h
        · tauto
        · rcases ih h with h | h <;> tauto

theorem mem_tabDel {t : Tab α} {n : Nat} {c : Nat × α} (h : c ∈ tabDel t n) : c ∈ t := by
  induction t with
  | nil => simp [tabDel] at h
  | cons e t ih =>
    obtain ⟨k, w⟩ := e
    simp only [tabDel] at h
    split at h
    · exact List.mem_cons_of_mem _ (ih h)
    · simp at h ⊢; rcases h with h | h
      · tauto
      · exact Or.inr (ih h)

theorem tabGet?_tabDel_self (t : Tab α) (n : Nat) : tabGet? (tabDel t n) n = none := by
  induction t with
  | nil => rfl
  | cons e t ih =>
    obtain ⟨k, w⟩ := e
    simp only [tabDel]
    split
    · exact ih
    · rw [tabGet?, if_neg (by assumption), ih]

theorem tabGet?_tabDel_ne (t : Tab α) {m n : Nat} (h : m ≠ n) : tabGet? (tabDel t n) m = tabGet? t m := by
  induction t with
  | nil => rfl
  | cons e t ih =>
    obtain ⟨k, w⟩ := e
    simp only [tabDel]
    split
    · subst_vars; rw [tabGet?, if_neg (Ne.symm h), ih]
    · simp only [tabGet?, ih]

/-! ## Bytes -/

/-- A read of the byte just written. -/
theorem memGet_memSet_self (m : List Host.Cell) (a : Nat) (b : Byte) : memGet (memSet m a b) a = b := by
  unfold memGet memSet
  split
  · next h => simp [tabGetD, tabGet?_tabDel_self, h]
  · simp

/-- A read of another byte. -/
theorem memGet_memSet_ne (m : List Host.Cell) {x a : Nat} (b : Byte) (h : x ≠ a) : memGet (memSet m a b) x = memGet m x := by
  unfold memGet memSet
  split
  · simp [tabGetD, tabGet?_tabDel_ne _ h]
  · exact tabGetD_tabSet_ne _ _ _ h

/-- A write keeps the canonical form. -/
theorem memSet_wf {m : List Host.Cell} (a : Nat) (b : Byte) (h : Memory.wf m = true) : Memory.wf (memSet m a b) = true := by
  simp only [Memory.wf, Bool.and_eq_true, List.all_eq_true] at h ⊢
  unfold memSet
  split
  · exact ⟨keysFrom_tabDel a h.1, fun c hc => h.2 c (mem_tabDel hc)⟩
  · refine ⟨keysFrom_tabSet a b h.1 (Nat.zero_le _), fun c hc => ?_⟩
    rcases mem_tabSet hc with rfl | hc
    · simpa using by assumption
    · exact h.2 c hc

theorem memSetBytes_wf {m : List Host.Cell} (a : Nat) (bs : List Byte) (h : Memory.wf m = true) :
    Memory.wf (memSetBytes m a bs) = true := by
  induction bs generalizing m a with
  | nil => exact h
  | cons b bs ih => exact ih _ (memSet_wf a b h)

/-- A write of bytes leaves every byte outside them alone. -/
theorem memGet_memSetBytes_out (m : List Host.Cell) (a : Nat) (bs : List Byte) {x : Nat} (h : x < a ∨ a + bs.length ≤ x) :
    memGet (memSetBytes m a bs) x = memGet m x := by
  induction bs generalizing m a with
  | nil => rfl
  | cons b bs ih =>
    simp only [List.length_cons] at h
    rw [memSetBytes, ih (memSet m a b) (a + 1) (by omega), memGet_memSet_ne m b (by omega)]

/-- A write of bytes stores each of them. -/
theorem memGet_memSetBytes_in (m : List Host.Cell) (a : Nat) (bs : List Byte) {j : Nat} (hj : j < bs.length) :
    memGet (memSetBytes m a bs) (a + j) = bs.getD j 0 := by
  induction bs generalizing m a j with
  | nil => simp at hj
  | cons b bs ih =>
    rw [memSetBytes]
    cases j with
    | zero => rw [memGet_memSetBytes_out _ _ _ (by omega), Nat.add_zero, memGet_memSet_self]; simp
    | succ j =>
      have := ih (memSet m a b) (a + 1) (j := j) (by simpa using hj)
      rw [show a + (j + 1) = a + 1 + j by omega, this]; simp

/-- The hub's write keeps the canonical form. -/
theorem hubWrite_wf {s : State} (d : Nat) (bs : List Byte) (h : Memory.wf s.mem = true) :
    Memory.wf (s.hubWrite d bs).mem = true := memSetBytes_wf d bs h

theorem storeByte_wf {s : State} (d : Nat) (b : Byte) (h : Memory.wf s.mem = true) :
    Memory.wf (s.storeByte d b).mem = true := by
  unfold State.storeByte
  split
  · exact h
  · exact memSet_wf d b h

theorem storeBytesRaw_wf {s : State} (d : Nat) (bs : List Byte) (h : Memory.wf s.mem = true) :
    Memory.wf (s.storeBytesRaw d bs).mem = true := by
  induction bs generalizing s d with
  | nil => exact h
  | cons b bs ih => exact ih _ (storeByte_wf d b h)

/-- A store keeps the canonical form. -/
theorem storeBytes_wf {s : State} (d : Nat) (bs : List Byte) (h : Memory.wf s.mem = true) :
    Memory.wf (s.storeBytes d bs).mem = true := storeBytesRaw_wf d bs h

/-- A write by the hub or the spill engine keeps the canonical form, and leaves every byte outside it alone. -/
theorem hubStore_wf {s : State} (d : Nat) (bs : List Byte) (h : Memory.wf s.mem = true) :
    Memory.wf (s.hubStore d bs).mem = true := memSetBytes_wf d bs h

theorem hubStore_out (s : State) (d : Nat) (bs : List Byte) {x : Nat} (h : x < d ∨ d + bs.length ≤ x) :
    memGet (s.hubStore d bs).mem x = memGet s.mem x := memGet_memSetBytes_out _ _ _ h

/-- Memory as lines of it have been seen keeps the canonical form (R335). -/
theorem seeing_wf {s : State} (xs : List SeenLine) (h : Memory.wf s.mem = true) : Memory.wf (s.seeing xs).mem = true := by
  unfold State.seeing
  induction xs generalizing s with
  | nil => exact h
  | cons x xs ih => exact ih (memSetBytes_wf _ _ h)

/-- A store leaves every byte outside it alone. -/
theorem storeBytesRaw_out (s : State) (d : Nat) (bs : List Byte) {x : Nat} (h : x < d ∨ d + bs.length ≤ x) :
    memGet (s.storeBytesRaw d bs).mem x = memGet s.mem x := by
  induction bs generalizing s d with
  | nil => rfl
  | cons b bs ih =>
    simp only [List.length_cons] at h
    rw [State.storeBytesRaw, ih (s.storeByte d b) (d + 1) (by omega)]
    unfold State.storeByte
    split
    · rfl
    · exact memGet_memSet_ne _ _ (by omega)

theorem storeBytes_out (s : State) (d : Nat) (bs : List Byte) {x : Nat} (h : x < d ∨ d + bs.length ≤ x) :
    memGet (s.storeBytes d bs).mem x = memGet s.mem x := storeBytesRaw_out s d bs h

theorem keysFrom_filter {lo : Nat} {t : Tab α} (p : Nat × α → Bool) (h : keysFrom lo t = true) :
    keysFrom lo (t.filter p) = true := by
  induction t generalizing lo with
  | nil => rfl
  | cons e t ih =>
    obtain ⟨k, w⟩ := e
    simp only [keysFrom, Bool.and_eq_true, decide_eq_true_eq] at h
    simp only [List.filter_cons]
    split
    · simp only [keysFrom, Bool.and_eq_true, decide_eq_true_eq]; exact ⟨h.1, ih h.2⟩
    · exact ih (keysFrom_mono (by omega) h.2)

/-- Memory with some of its bytes gone keeps the canonical form, as a reset leaves it (R381). -/
theorem filter_wf {m : List Host.Cell} (p : Host.Cell → Bool) (h : Memory.wf m = true) : Memory.wf (m.filter p) = true := by
  simp only [Memory.wf, Bool.and_eq_true, List.all_eq_true] at h ⊢
  exact ⟨keysFrom_filter p h.1, fun c hc => h.2 c (List.mem_filter.1 hc).1⟩

theorem keysFrom_append {lo mid : Nat} {t u : Tab α} (ht : keysFrom lo t = true) (hm : ∀ e ∈ t, e.1 < mid)
    (hu : keysFrom mid u = true) (hl : lo ≤ mid) : keysFrom lo (t ++ u) = true := by
  induction t generalizing lo with
  | nil => exact keysFrom_mono hl hu
  | cons e t ih =>
    obtain ⟨k, w⟩ := e
    simp only [keysFrom, Bool.and_eq_true, decide_eq_true_eq, List.cons_append] at ht ⊢
    have hk : k < mid := hm (k, w) (by simp)
    exact ⟨ht.1, ih ht.2 (fun e he => hm e (List.mem_cons_of_mem _ he)) (by omega)⟩

theorem keysFrom_shift {lo src dst : Nat} {t : Tab α} (ht : keysFrom lo t = true) (hs : ∀ e ∈ t, src ≤ e.1) :
    keysFrom (lo - src + dst) (t.map fun c => (c.1 - src + dst, c.2)) = true := by
  induction t generalizing lo with
  | nil => rfl
  | cons e t ih =>
    obtain ⟨k, w⟩ := e
    simp only [keysFrom, Bool.and_eq_true, decide_eq_true_eq, List.map_cons] at ht ⊢
    have hk : src ≤ k := hs (k, w) (by simp)
    have := ih ht.2 (fun e he => hs e (List.mem_cons_of_mem _ he))
    rw [show k + 1 - src + dst = k - src + dst + 1 by omega] at this
    exact ⟨by omega, this⟩

theorem keysFrom_raise {lo hi : Nat} {t : Tab α} (ht : keysFrom lo t = true) (h : ∀ e ∈ t, hi ≤ e.1) : keysFrom hi t = true := by
  cases t with
  | nil => rfl
  | cons e t =>
    obtain ⟨k, w⟩ := e
    simp only [keysFrom, Bool.and_eq_true, decide_eq_true_eq] at ht ⊢
    exact ⟨h (k, w) (by simp), ht.2⟩

/-- The copy of a page keeps the canonical form (R297). -/
theorem copyPage_wf {s : State} (src dst n : Nat) (h : Memory.wf s.mem = true) :
    Memory.wf (s.copyPage src dst n).mem = true := by
  simp only [Memory.wf, Bool.and_eq_true, List.all_eq_true] at h
  obtain ⟨hk, hd⟩ := h
  simp only [State.copyPage, Memory.wf, Bool.and_eq_true, List.all_eq_true]
  have hmid : keysFrom dst ((s.mem.filter fun c => decide (src ≤ c.1) && decide (c.1 < src + n)).map
      fun c => (c.1 - src + dst, c.2)) = true := by
    have := keysFrom_shift (src := src) (dst := dst)
      (keysFrom_filter (fun c => decide (src ≤ c.1) && decide (c.1 < src + n)) hk)
      (fun e he => by simpa using ((by simpa using (List.mem_filter.1 he).2 : src ≤ e.1 ∧ e.1 < src + n)).1)
    simpa using this
  refine ⟨keysFrom_append (mid := dst + n) ?_ ?_ ?_ (Nat.zero_le _), ?_⟩
  · refine keysFrom_append (mid := dst) (keysFrom_filter _ hk) ?_ hmid (Nat.zero_le _)
    intro e he; simpa using (List.mem_filter.1 he).2
  · intro e he
    rcases List.mem_append.1 he with he | he
    · have := (List.mem_filter.1 he).2; simp only [decide_eq_true_eq] at this; omega
    · obtain ⟨c, hc, rfl⟩ := List.mem_map.1 he
      have := (List.mem_filter.1 hc).2
      simp only [Bool.and_eq_true, decide_eq_true_eq] at this
      change c.1 - src + dst < dst + n
      omega
  · refine keysFrom_raise (keysFrom_filter _ hk) ?_
    intro e he; simpa using (List.mem_filter.1 he).2
  · intro c hc
    rcases List.mem_append.1 hc with hc | hc
    · rcases List.mem_append.1 hc with hc | hc
      · exact hd c (List.mem_filter.1 hc).1
      · obtain ⟨x, hx, rfl⟩ := List.mem_map.1 hc
        exact hd x (List.mem_filter.1 hx).1
    · exact hd c (List.mem_filter.1 hc).1

/-- What peers have written keeps the canonical form. -/
theorem takePeerMem_wf {s : State} (xs : List (Nat × Byte)) (h : Memory.wf s.mem = true) :
    Memory.wf (s.takePeerMem xs).mem = true := by
  have : ∀ m : List Host.Cell, Memory.wf m = true →
      Memory.wf (xs.foldl (fun m x => if peerOf x.1 = s.self then m else memSet m x.1 x.2) m) = true := by
    induction xs with
    | nil => exact fun m h => h
    | cons x xs ih =>
      intro m hm
      simp only [List.foldl_cons]
      refine ih _ ?_
      split
      · exact hm
      · exact memSet_wf _ _ hm
  exact this _ h

/-- Memory after reset has the canonical form. -/
theorem reset_memory_wf : Memory.wf State.reset.mem = true := rfl

end Sys2Proof.Machine
end

