-- ==== Sys2Proof/Tests/Slice0.lean ====
section
/-! SUPPORT. Tests: the decoder on words written out from the tables of spec/03, an ill-formed term for each check of
well-formedness, and for every statement a state that meets its hypotheses. -/

namespace Sys2Proof.Tests

open Sys2Proof Sys2Proof.Machine Sys2Proof.Claims

set_option maxRecDepth 100000
set_option Elab.async false

/-! ## Words of spec/opcode_table.json and spec/03: match value of the row plus each field shifted to its place -/

/-- Each word alone is a group of its instruction. -/
def gives (l : List (Word × Instr)) : Bool := l.all fun e => decide (decodeGroup [e.1] = ⟨e.2, 1⟩)

theorem test_decode_major_00 : gives
  [ (0x00000000, .illz {}) ] = true := by decide

theorem test_decode_major_01 : gives
  [ (0x04018284, .iadd {} ⟨0, 6, 5, 4⟩),
    (0x04218284, .isub {} ⟨0, 6, 5, 4⟩),
    (0x04418284, .imul {} ⟨0, 6, 5, 4⟩),
    (0x04618284, .imulh {} ⟨0, 6, 5, 4⟩),
    (0x04818284, .imulhn {} ⟨0, 6, 5, 4⟩),
    (0x04A18284, .imad {} ⟨0, 6, 5, 4⟩),
    (0x04C18284, .imin {} ⟨0, 6, 5, 4⟩),
    (0x04E18284, .imax {} ⟨0, 6, 5, 4⟩),
    (0x05018284, .iminn {} ⟨0, 6, 5, 4⟩),
    (0x05218284, .imaxn {} ⟨0, 6, 5, 4⟩),
    (0x05400284, .iabs {} ⟨0, 0, 5, 4⟩) ] = true := by decide

theorem test_decode_major_02 : gives
  [ (0x08018284, .and {} ⟨0, 6, 5, 4⟩),
    (0x08218284, .or {} ⟨0, 6, 5, 4⟩),
    (0x08418284, .xor {} ⟨0, 6, 5, 4⟩),
    (0x08618284, .andn {} ⟨0, 6, 5, 4⟩),
    (0x08818284, .shl {} ⟨0, 6, 5, 4⟩),
    (0x08A18284, .shr {} ⟨0, 6, 5, 4⟩),
    (0x08C18284, .sar {} ⟨0, 6, 5, 4⟩),
    (0x08E18284, .rotl {} ⟨0, 6, 5, 4⟩),
    (0x09000284, .popc {} ⟨0, 0, 5, 4⟩),
    (0x09200284, .clz {} ⟨0, 0, 5, 4⟩),
    (0x09400284, .ctz {} ⟨0, 0, 5, 4⟩),
    (0x09600284, .brev {} ⟨0, 0, 5, 4⟩),
    (0x09818284, .sel {} ⟨0, 6, 5, 4⟩),
    (0x09A18284, .bfx {} ⟨0, 6, 5, 4⟩),
    (0x09C18284, .bfxs {} ⟨0, 6, 5, 4⟩),
    (0x09E18284, .bfi {} ⟨0, 6, 5, 4⟩) ] = true := by decide

theorem test_decode_major_03 : gives
  [ (0x0C218281, .icmp {} 1 ⟨0, 6, 5, 1⟩) ] = true := by decide

theorem test_decode_major_04 : gives
  [ (0x1100C284, .iaddi {} ⟨0, 1027, 5, 4⟩) ] = true := by decide

theorem test_decode_major_05 : gives
  [ (0x1500C284, .andi {} ⟨0, 1027, 5, 4⟩) ] = true := by decide

theorem test_decode_major_06 : gives
  [ (0x1900C284, .ori {} ⟨0, 1027, 5, 4⟩) ] = true := by decide

theorem test_decode_major_07 : gives
  [ (0x1D00C284, .xori {} ⟨0, 1027, 5, 4⟩) ] = true := by decide

theorem test_decode_major_08 : gives
  [ (0x20004284, .shli {} ⟨0, 0, 1, 5, 4⟩),
    (0x20084284, .shri {} ⟨0, 0, 1, 5, 4⟩),
    (0x20104284, .sari {} ⟨0, 0, 1, 5, 4⟩) ] = true := by decide

theorem test_decode_major_09 : gives
  [ (0x2500C004, .ldi {} ⟨0, 1027, 0, 4⟩) ] = true := by decide

theorem test_decode_major_0a : gives
  [ (0x28030508, .add64 {} ⟨0, 12, 10, 8⟩),
    (0x28230508, .sub64 {} ⟨0, 12, 10, 8⟩),
    (0x28418288, .mad64 {} ⟨0, 6, 5, 8⟩),
    (0x28A30501, .cmp64 {} 2 ⟨0, 12, 10, 1⟩) ] = true := by decide

theorem test_decode_major_0b : gives
  [ (0x2D00C508, .add64i {} ⟨0, 1027, 10, 8⟩) ] = true := by decide

theorem test_decode_major_0c : gives
  [ (0x30018284, .fadd {} ⟨0, 6, 5, 4⟩),
    (0x30218284, .fsub {} ⟨0, 6, 5, 4⟩),
    (0x30418284, .fmul {} ⟨0, 6, 5, 4⟩),
    (0x30618284, .ffma {} ⟨0, 6, 5, 4⟩),
    (0x30818284, .fmin {} ⟨0, 6, 5, 4⟩),
    (0x30A18284, .fmax {} ⟨0, 6, 5, 4⟩),
    (0x30C00284, .fabs {} ⟨0, 0, 5, 4⟩),
    (0x30E00284, .fneg {} ⟨0, 0, 5, 4⟩),
    (0x31000284, .fclass {} ⟨0, 0, 5, 4⟩),
    (0x31200284, .frnd {} ⟨0, 0, 5, 4⟩),
    (0x31418284, .fscale {} ⟨0, 6, 5, 4⟩) ] = true := by decide

theorem test_decode_major_0d : gives
  [ (0x34218281, .fcmp {} 1 ⟨0, 6, 5, 1⟩) ] = true := by decide

theorem test_decode_major_0e : gives
  [ (0x38000284, .frcp {} ⟨0, 0, 5, 4⟩),
    (0x38200284, .frsq {} ⟨0, 0, 5, 4⟩),
    (0x38400284, .fsqrt {} ⟨0, 0, 5, 4⟩),
    (0x38600284, .fexp2 {} ⟨0, 0, 5, 4⟩),
    (0x38800284, .flog2 {} ⟨0, 0, 5, 4⟩),
    (0x38A00284, .ftanh {} ⟨0, 0, 5, 4⟩),
    (0x38C00284, .fsigm {} ⟨0, 0, 5, 4⟩) ] = true := by decide

theorem test_decode_major_0f : gives
  [ (0x3C000284, .cvtfi {} ⟨0, 0, 5, 4⟩),
    (0x3C200284, .cvtfiN {} ⟨0, 0, 5, 4⟩),
    (0x3C400284, .cvtif {} ⟨0, 0, 5, 4⟩),
    (0x3C600284, .cvtifN {} ⟨0, 0, 5, 4⟩),
    (0x3C800284, .cvtbf {} ⟨0, 0, 5, 4⟩),
    (0x3CA00284, .cvtfb {} ⟨0, 0, 5, 4⟩),
    (0x3CC00284, .cvte4 {} ⟨0, 0, 5, 4⟩),
    (0x3CE00284, .cvte4f {} ⟨0, 0, 5, 4⟩),
    (0x3D018284, .cvti4 {} ⟨0, 6, 5, 4⟩) ] = true := by decide

theorem test_decode_major_18 : gives
  [ (0x60018284, .shflIdx {} ⟨0, 6, 5, 4⟩),
    (0x60218284, .shflUp {} ⟨0, 6, 5, 4⟩),
    (0x60418284, .shflDown {} ⟨0, 6, 5, 4⟩),
    (0x60618284, .shflXor {} ⟨0, 6, 5, 4⟩) ] = true := by decide

theorem test_decode_major_19 : gives
  [ (0x64000284, .radd {} ⟨0, 0, 5, 4⟩),
    (0x64200284, .raddF {} ⟨0, 0, 5, 4⟩),
    (0x64400284, .rmax {} ⟨0, 0, 5, 4⟩),
    (0x64600284, .rmaxN {} ⟨0, 0, 5, 4⟩),
    (0x64800284, .rmaxF {} ⟨0, 0, 5, 4⟩),
    (0x64A00284, .rmin {} ⟨0, 0, 5, 4⟩),
    (0x64C00284, .rminN {} ⟨0, 0, 5, 4⟩),
    (0x64E00284, .rminF {} ⟨0, 0, 5, 4⟩),
    (0x65000284, .scana {} ⟨0, 0, 5, 4⟩),
    (0x65200284, .scanaF {} ⟨0, 0, 5, 4⟩) ] = true := by decide

theorem test_decode_major_1a : gives
  [ (0x68000284, .bcast {} ⟨0, 0, 5, 4⟩),
    (0x68218284, .mkl {} ⟨0, 6, 5, 4⟩),
    (0x68400284, .mkg {} ⟨0, 0, 5, 4⟩),
    (0x68600284, .tag {} ⟨0, 0, 5, 4⟩) ] = true := by decide

theorem test_decode_major_1b : gives
  [ (0x6C018284, .qplane {} ⟨0, 6, 5, 4⟩),
    (0x6C218284, .hadx {} ⟨0, 6, 5, 4⟩),
    (0x6C418284, .dqx {} ⟨0, 6, 5, 4⟩) ] = true := by decide

theorem test_decode_major_1c : gives
  [ (0x70030504, .rand {} ⟨0, 12, 10, 4⟩) ] = true := by decide

theorem test_decode_major_1e : gives
  [ (0x78080003, .bra {} ⟨0, 0, 524291⟩) ] = true := by decide

theorem test_decode_major_1f : gives
  [ (0x7C980003, .brc {} ⟨1, 1, 524291⟩) ] = true := by decide

theorem test_decode_major_20 : gives
  [ (0x80980003, .brd {} ⟨1, 1, 524291⟩) ] = true := by decide

theorem test_decode_major_21 : gives
  [ (0x84080003, .call {} ⟨0, 0, 524291⟩) ] = true := by decide

theorem test_decode_major_22 : gives
  [ (0x88000000, .recon {} ⟨0, 0, 0, 0⟩),
    (0x88200500, .ret {} ⟨0, 0, 10, 0⟩),
    (0x88400500, .jmpr {} ⟨0, 0, 10, 0⟩),
    (0x88600000, .exit {} ⟨0, 0, 0, 0⟩) ] = true := by decide

theorem test_decode_major_23 : gives
  [ (0x8C030284, .spawn {} ⟨0, 12, 5, 4⟩),
    (0x8C200284, .regroup {} ⟨0, 0, 5, 4⟩) ] = true := by decide

theorem test_decode_major_24 : gives
  [ (0x90000104, .voteAny {} ⟨0, 0, 2, 4⟩),
    (0x90200104, .voteAll {} ⟨0, 0, 2, 4⟩),
    (0x90400281, .voteBallot {} ⟨0, 0, 5, 1⟩),
    (0x90600104, .voteCount {} ⟨0, 0, 2, 4⟩),
    (0x90800104, .voteRank {} ⟨0, 0, 2, 4⟩),
    (0x90A00001, .elect {} ⟨0, 0, 0, 1⟩),
    (0x90C0C101, .mand {} ⟨0, 3, 2, 1⟩),
    (0x90E0C101, .mor {} ⟨0, 3, 2, 1⟩),
    (0x9100C101, .mxor {} ⟨0, 3, 2, 1⟩),
    (0x91200101, .mnot {} ⟨0, 0, 2, 1⟩),
    (0x91400101, .mmov {} ⟨0, 0, 2, 1⟩),
    (0x91600104, .mpopc {} ⟨0, 0, 2, 4⟩) ] = true := by decide

theorem test_decode_major_25 : gives
  [ (0x94000280, .bar {} ⟨0, 0, 5, 0⟩),
    (0x94200280, .bararr {} ⟨0, 0, 5, 0⟩),
    (0x94400280, .barwt {} ⟨0, 0, 5, 0⟩),
    (0x94600284, .cjoin {} ⟨0, 0, 5, 4⟩),
    (0x94800280, .cleave {} ⟨0, 0, 5, 0⟩) ] = true := by decide

theorem test_decode_major_26 : gives
  [ (0x98A18504, .ld {} ⟨1, 1, 6, 10, 4⟩),
    (0x98C18504, .ldDf {} ⟨1, 6, 10, 4⟩) ] = true := by decide

theorem test_decode_major_27 : gives
  [ (0x9CA18504, .ldu {} ⟨1, 1, 6, 10, 4⟩),
    (0x9CC18504, .lduDf {} ⟨1, 6, 10, 4⟩) ] = true := by decide

theorem test_decode_major_28 : gives
  [ (0xA0A18504, .ldx {} ⟨1, 1, 6, 10, 4⟩),
    (0xA0E18504, .ldraw {} ⟨1, 1, 6, 10, 4⟩) ] = true := by decide

theorem test_decode_major_29 : gives
  [ (0xA4A18504, .st {} ⟨1, 1, 6, 10, 4⟩) ] = true := by decide

theorem test_decode_major_2a : gives
  [ (0xA8818284, .spld {} ⟨1, 6, 5, 4⟩),
    (0xA8A18284, .spst {} ⟨1, 6, 5, 4⟩),
    (0xA8418284, .ldlk {} ⟨6, 5, 4⟩),
    (0xA8C18284, .stul {} ⟨6, 5, 4⟩),
    (0xA8E18284, .spa {} ⟨1, 6, 5, 4⟩) ] = true := by decide

theorem test_decode_major_2b : gives
  [ (0xACA18500, .atom {} ⟨1, 1, 6, 10, 0⟩) ] = true := by decide

theorem test_decode_major_2c : gives
  [ (0xB0A18504, .atomr {} ⟨1, 1, 6, 10, 4⟩) ] = true := by decide

theorem test_decode_major_2d : gives
  [ (0xB4218500, .atomXchg {} ⟨1, 6, 10, 0⟩),
    (0xB4A18504, .atomCas {} ⟨1, 6, 10, 4⟩),
    (0xB5218504, .atomrXchg {} ⟨1, 6, 10, 4⟩),
    (0xB5A18504, .atomrCas {} ⟨1, 6, 10, 4⟩),
    (0xB6230500, .atomAdd64 {} ⟨1, 12, 10, 0⟩),
    (0xB6A30508, .atomrAdd64 {} ⟨1, 12, 10, 8⟩),
    (0xB7230508, .atomrXchg64 {} ⟨1, 12, 10, 8⟩),
    (0xB7A30508, .atomrCas64 {} ⟨1, 12, 10, 8⟩) ] = true := by decide

theorem test_decode_major_2e : gives
  [ (0xB8000000, .fenceAcq {} ⟨0, 0, 0, 0⟩),
    (0xB8200000, .fenceRel {} ⟨0, 0, 0, 0⟩),
    (0xB8400000, .fenceAr {} ⟨0, 0, 0, 0⟩),
    (0xB8600000, .isync {} ⟨0, 0, 0, 0⟩),
    (0xB8818500, .isyncRange {} ⟨0, 6, 10, 0⟩),
    (0xB8A18500, .hflush {} ⟨0, 6, 10, 0⟩),
    (0xB8C18500, .pref {} ⟨0, 6, 10, 0⟩) ] = true := by decide

theorem test_decode_major_2f : gives
  [ (0xBC004504, .waittl {} ⟨1, 10, 4⟩) ] = true := by decide

theorem test_decode_major_30 : gives
  [ (0xC0018280, .waitsb {} ⟨0, 6, 5, 0⟩),
    (0xC0218284, .rsbq {} ⟨0, 6, 5, 4⟩),
    (0xC0400284, .awrd {} ⟨0, 0, 5, 4⟩) ] = true := by decide

theorem test_decode_major_31 : gives
  [ (0xC4101803, .braw {} ⟨1, 1, 2051⟩) ] = true := by decide

theorem test_decode_major_32 : gives
  [ (0xCB218510, .capld {} ⟨1, 6, 10, 16⟩) ] = true := by decide

theorem test_decode_major_33 : gives
  [ (0xCF218510, .capst {} ⟨1, 6, 10, 16⟩) ] = true := by decide

theorem test_decode_major_34 : gives
  [ (0xD0018A10, .capnar {} ⟨0, 6, 20, 16⟩),
    (0xD0218A04, .capchk {} ⟨0, 6, 20, 4⟩),
    (0xD0400A04, .captag {} ⟨0, 0, 20, 4⟩),
    (0xD0600A10, .capmk {} ⟨0, 0, 20, 16⟩) ] = true := by decide

theorem test_decode_major_36 : gives
  [ (0xD8004284, .push {} ⟨1, 5, 4⟩),
    (0xD8404284, .pushCore {} ⟨1, 5, 4⟩),
    (0xD8804284, .pushDie {} ⟨1, 5, 4⟩),
    (0xD8C04284, .pushPkg {} ⟨1, 5, 4⟩),
    (0xD9004004, .pushq {} ⟨1, 0, 4⟩),
    (0xD9404008, .tlrd {} ⟨1, 0, 8⟩) ] = true := by decide

theorem test_decode_major_37 : gives
  [ (0xDC018A08, .kvres {} ⟨0, 6, 20, 8⟩),
    (0xDC230A04, .kvapp {} ⟨0, 12, 20, 4⟩),
    (0xDC430A00, .kvpub {} ⟨0, 12, 20, 0⟩),
    (0xDC630A08, .kvacq {} ⟨0, 12, 20, 8⟩),
    (0xDC830A04, .kvseal {} ⟨0, 12, 20, 4⟩),
    (0xDCA30A08, .kvg {} ⟨0, 12, 20, 8⟩),
    (0xDCC30A04, .kvqk {} ⟨0, 12, 20, 4⟩),
    (0xDCE30A04, .kvav {} ⟨0, 12, 20, 4⟩),
    (0xDD030A04, .kvprom {} ⟨0, 12, 20, 4⟩),
    (0xDD230A04, .kvrm {} ⟨0, 12, 20, 4⟩) ] = true := by decide

theorem test_decode_major_38 : gives
  [ (0xE0018A04, .lqsend {} ⟨0, 6, 20, 4⟩),
    (0xE0218A04, .lqrecv {} ⟨0, 6, 20, 4⟩),
    (0xE0400A04, .lqpeek {} ⟨0, 0, 20, 4⟩) ] = true := by decide

theorem test_decode_major_39 : gives
  [ (0xE4018284, .heaprd {} ⟨0, 6, 5, 4⟩),
    (0xE4218284, .sdraw {} ⟨0, 6, 5, 4⟩),
    (0xE4418284, .pncommit {} ⟨0, 6, 5, 4⟩),
    (0xE4630508, .dlwait {} ⟨0, 12, 10, 8⟩) ] = true := by decide

theorem test_decode_major_3a : gives
  [ (0xE8018280, .pfmark {} ⟨0, 6, 5, 0⟩),
    (0xE8200004, .leaveq {} ⟨0, 0, 0, 4⟩) ] = true := by decide

theorem test_decode_major_3b : gives
  [ (0xEC80C004, .mfs {} ⟨515, 0, 4⟩),
    (0xED80C280, .mts {} ⟨515, 5, 0⟩),
    (0xEE000000, .nop {} ⟨0, 0⟩),
    (0xEE004000, .yield {} ⟨0, 0⟩),
    (0xEE008280, .wbase {} ⟨5, 0⟩),
    (0xEE00C280, .trap {} ⟨5, 0⟩),
    (0xEE010280, .tret {} ⟨5, 0⟩),
    (0xEE014280, .svc {} ⟨5, 0⟩),
    (0xEE018000, .tfence {} ⟨0, 0⟩),
    (0xEE01C000, .flclr {} ⟨0, 0⟩),
    (0xEE020280, .bkpt {} ⟨5, 0⟩) ] = true := by decide

theorem test_decode_major_3f : gives
  [ (0xFFFFFFFF, .ill {}) ] = true := by decide

/-- A PFX.I joins its 25 bits to the immediate (R83, Table 8 row 3); a PFX.M its fields (R81, rows 4, 7 and 8). -/
theorem test_decode_prefixed :
    decodeGroup [0xF602468A, 0x259E0008] = ⟨.ldi { i := some 0x2468A } ⟨0, 0x678, 0, 8⟩, 2⟩
    ∧ decodeGroup [0xF4410000, 0x3063058A] = ⟨.ffma { m := some ⟨1, 0, 0, 1, 0⟩ } ⟨0, 12, 11, 10⟩, 2⟩
    ∧ decodeGroup [0xF4100000, 0xA63FCA06] = ⟨.st { m := some ⟨0, 0, 4, 0, 0⟩ } ⟨4, 1, 127, 20, 6⟩, 2⟩
    ∧ decodeGroup [0xF400000C, 0x80200005] = ⟨.brd { m := some ⟨0, 0, 0, 0, 12⟩ } ⟨0, 2, 5⟩, 2⟩
    ∧ decodeGroup [0xF4410000, 0xF602468A, 0x10014082]
        = ⟨.iaddi { m := some ⟨1, 0, 0, 1, 0⟩, i := some 0x2468A } ⟨0, 5, 1, 2⟩, 3⟩ := by decide

/-- Bytes are little-endian, the first word at the lowest address (R71). -/
theorem test_decode_bytes : decode [0x84, 0x02, 0x1E, 0x04, 0xFF] = .ok (⟨.iadd {} ⟨0, 120, 5, 4⟩, 1⟩, [0xFF])
    ∧ decode [0x84, 0x02, 0x1E] = .error .truncated := by decide

/-- Unassigned values give no instruction: FN 11 of major 0x01, major 0x10, a fourth prefix word (R90). -/
theorem test_decode_unassigned : decodeGroup [0x05600000] = ⟨.illegalWord [0x05600000] 2, 1⟩
    ∧ decodeGroup [0x40000000] = ⟨.illegalWord [0x40000000] 1, 1⟩
    ∧ decodeGroup [0xF6000000, 0xF4000000] = ⟨.illegalWord [0xF6000000, 0xF4000000] 4, 2⟩ := by decide

/-! ## Ill-formed terms: each check of spec/03 Table 6 refuses one -/

theorem test_wf_accepts : (Instr.iadd {} ⟨0, 120, 5, 4⟩).wf = true := by decide

/-- Cause 4: a PFX.I where none is accepted, a PFX.M on a form without one, an indexed word under a PFX.I, BRD without
AUX. -/
theorem test_wf_prefix : (Instr.iadd { i := some 1 } ⟨0, 1, 2, 3⟩).wordCause = some 4
    ∧ (Instr.braw { m := some ⟨0, 0, 0, 0, 0⟩ } ⟨0, 1, 1⟩).wordCause = some 4
    ∧ (Instr.ld { i := some 1 } ⟨4, 0, 3, 20, 8⟩).wordCause = some 4
    ∧ (Instr.brd {} ⟨0, 1, 1⟩).wordCause = some 4 ∧ (Instr.brd { m := some ⟨0, 0, 0, 0, 0⟩ } ⟨0, 1, 1⟩).wordCause = some 4 := by
  decide

/-- Causes 8, 9 and 1: the words without an instruction. -/
theorem test_wf_words : (Instr.illz {}).wordCause = some 8 ∧ (Instr.ill {}).wordCause = some 9
    ∧ (Instr.illegalWord [0x40000000] 1).wordCause = some 1 := by decide

/-- Cause 2: an unassigned condition, size or queue. -/
theorem test_wf_assigned : (Instr.icmp {} 10 ⟨0, 1, 2, 3⟩).wordCause = some 2
    ∧ (Instr.st {} ⟨1, 0, 127, 20, 8⟩).wordCause = some 2 ∧ (Instr.push {} ⟨0xFF, 32, 5⟩).wordCause = some 2 := by decide

/-- Cause 3: a reserved field, a W bit that a row does not take, a field of kind zero, an unused PFX.M field. -/
theorem test_wf_reserved : (Instr.shli {} ⟨0, 1, 3, 2, 1⟩).wordCause = some 3
    ∧ (Instr.icmp {} 0 ⟨1, 1, 2, 3⟩).wordCause = some 3 ∧ (Instr.iabs {} ⟨0, 1, 2, 3⟩).wordCause = some 3
    ∧ (Instr.ldi {} ⟨0, 1, 2, 3⟩).wordCause = some 3 ∧ (Instr.iadd { m := some ⟨0, 0, 1, 0, 0⟩ } ⟨0, 1, 2, 3⟩).wordCause = some 3
    ∧ (Instr.iadd { m := some ⟨0, 0, 0, 1, 0⟩ } ⟨0, 1, 2, 3⟩).wordCause = some 3
    ∧ (Instr.iadd { m := some ⟨0, 0, 0, 0, 1⟩ } ⟨0, 1, 2, 3⟩).wordCause = some 3 := by decide

/-- Cause 5: a register outside its field's kind. -/
theorem test_wf_kinds : (Instr.iadd {} ⟨0, 1, 2, 120⟩).wordCause = some 5
    ∧ (Instr.add64 {} ⟨0, 1, 2, 4⟩).wordCause = some 5 ∧ (Instr.add64 {} ⟨0, 2, 4, 7⟩).wordCause = some 5
    ∧ (Instr.icmp {} 0 ⟨0, 1, 2, 0⟩).wordCause = some 5 ∧ (Instr.mand {} ⟨0, 8, 1, 1⟩).wordCause = some 5
    ∧ (Instr.push {} ⟨0x23, 105, 5⟩).wordCause = some 5 ∧ (Instr.capnar {} ⟨0, 1, 8, 8⟩).wordCause = some 5
    ∧ (Instr.hadx {} ⟨0, 1, 119, 4⟩).wordCause = some 5 := by decide

/-! ## A small machine: one gust in slot 0 of core 0, with a page of code and a page of data (log 12) -/

/-- The machine. -/
def s0 : State := { State.reset.withProgram [] with agenda := [] }
/-- Its gust. -/
def g0 : Gust := placedGust
/-- The machine with another gust in its place. -/
def on (g : Gust) : State := s0.setGust 0 g
/-- The gust with registers set. -/
def regs (rs : List (Nat × Val)) : Gust := { g0 with regs := rs }

/-- A step that answers a next state. -/
def goes (i : Instr) (s : State) : Bool := match exec i s with | .next _ => true | _ => false
/-- A step that refuses an event that cannot come about. -/
def refuses (i : Instr) (s : State) : Bool := match exec i s with | .refused .noSuchEvent => true | _ => false

def issuesB (i : Instr) (s : State) (g : Gust) : Bool :=
  decide (s.gust? s.cur = some g) && decide (s.leadOf i g = g) && decide (preFault i s g s.curB = none)
    && !((mkCtx i g s.curB).twinsDiffer s s.cur)

theorem issues_of {i : Instr} {s : State} {g : Gust} (h : issuesB i s g = true) : Issues i s g := by
  simp only [issuesB, Bool.and_eq_true, decide_eq_true_eq, Bool.not_eq_true'] at h
  exact ⟨h.1.1.1, h.1.2, h.2, h.1.1.2⟩

def plainB (i : Instr) (s : State) (g : Gust) : Bool := issuesB i s g && decide (NoDrift i s g ∧ StaysApart s g (nextPc i s g))

theorem plain_of {i : Instr} {s : State} {g : Gust} (h : plainB i s g = true) :
    Issues i s g ∧ NoDrift i s g ∧ StaysApart s g (nextPc i s g) := by
  simp only [plainB, Bool.and_eq_true, decide_eq_true_eq] at h
  exact ⟨issues_of h.1, h.2.1, h.2.2⟩

def readyB (i : Instr) (s : State) (g : Gust) (w : BitVec 1) (d : BitVec 7) : Bool :=
  plainB i s g && decide (w = 1 ∨ Room g [d.toNat]) && goes i s

theorem ready_of {i : Instr} {s : State} {g : Gust} {w : BitVec 1} {d : BitVec 7} (h : readyB i s g w d = true) :
    ReadyReg i s g w d := by
  simp only [readyB, Bool.and_eq_true, decide_eq_true_eq] at h
  exact ⟨(plain_of h.1.1).1, (plain_of h.1.1).2.1, (plain_of h.1.1).2.2, h.1.2⟩

theorem rows_of {α : Type} {l : List α} {p : α → Bool} (h : l.all p = true) : ∀ e ∈ l, p e = true := List.all_eq_true.mp h

def pairB (i : Instr) (s : State) (g : Gust) (d : BitVec 7) : Bool :=
  plainB i s g && decide (Room g [d.toNat, d.toNat + 1]) && goes i s

theorem pair_of {i : Instr} {s : State} {g : Gust} {d : BitVec 7} (h : pairB i s g d = true) : ReadyPair i s g d := by
  simp only [pairB, Bool.and_eq_true, decide_eq_true_eq] at h
  exact ⟨(plain_of h.1.1).1, (plain_of h.1.1).2.1, (plain_of h.1.1).2.2, h.1.2⟩

def maskB (i : Instr) (s : State) (g : Gust) : Bool := plainB i s g && decide (g.masks.length = 7) && goes i s

theorem mask_of {i : Instr} {s : State} {g : Gust} (h : maskB i s g = true) : ReadyMask i s g := by
  simp only [maskB, Bool.and_eq_true, decide_eq_true_eq] at h
  exact ⟨(plain_of h.1.1).1, (plain_of h.1.1).2.1, (plain_of h.1.1).2.2, h.1.2⟩

def runsB (i : Instr) (s : State) (g : Gust) : Bool := plainB i s g && decide (active i s g ≠ 0) && goes i s

theorem runs_of {i : Instr} {s : State} {g : Gust} (h : runsB i s g = true) : Runs i s g := by
  simp only [runsB, Bool.and_eq_true, decide_eq_true_eq] at h
  exact ⟨(plain_of h.1.1).1, (plain_of h.1.1).2.1, (plain_of h.1.1).2.2, h.1.2⟩

def quadB (i : Instr) (s : State) (g : Gust) (d : BitVec 7) : Bool :=
  plainB i s g && decide (Room g (runOf d 4)) && decide (active i s g ≠ 0) && goes i s

theorem quad_of {i : Instr} {s : State} {g : Gust} {d : BitVec 7} (h : quadB i s g d = true) : ReadyQuad i s g d := by
  simp only [quadB, Bool.and_eq_true, decide_eq_true_eq] at h
  exact ⟨(plain_of h.1.1.1).1, (plain_of h.1.1.1).2.1, (plain_of h.1.1.1).2.2, h.1.1.2, h.1.2⟩

def nearB (s : State) (ls : List Nat) (ea : Nat → DWord) (k : Checked) : Bool :=
  decide (k.faults = []) && decide (k.pages.absent = []) && ls.all fun l => decide (peerOf (k.dom (ea l)) = s.self)

theorem near_of {i : Instr} {s : State} {g : Gust} {a : Access} {n : Nat} {ls : List Nat} {ea : Nat → DWord}
    {sp : Xlat → Nat → List (Nat × Nat)}
    (h : nearB s ls ea (checkLanes (mkCtx i g s.curB) s a n ls ea (fun _ => 0) sp) = true) :
    Near i s g a n ls ea sp (checkLanes (mkCtx i g s.curB) s a n ls ea (fun _ => 0) sp) := by
  simp only [nearB, Bool.and_eq_true, decide_eq_true_eq, List.all_eq_true] at h
  exact ⟨rfl, h.1.1, h.1.2, h.2⟩

/-- The translations of addresses meet no malformed entry. -/
def soundB (s : State) (g : Gust) (vas : List Nat) : Bool :=
  vas.all fun va => match s.walk (s.frontOf g).part (s.frontOf g).asid va with
    | .malformed _ _ => false
    | _ => true

theorem sound_of {s : State} {g : Gust} {vas : List Nat} (h : soundB s g vas = true) : TablesSound s g vas := by
  intro va hv pa n e
  have := rows_of h va hv
  simp [e] at this

/-- A register word that is the same in every lane. -/
abbrev u (n : Nat) : Val := .u (BitVec.ofNat 32 n)

/-! ## Witnesses: integer and floating-point instructions -/

/-- Sources 40 (a shift past the width), 3 and the most negative number; fields in pairs. -/
def gi : Gust := regs [(8, u 0x80000000), (9, u 1), (12, u 40), (13, u 0xFFFFFFFF)]

theorem test_arith_goes : arithRows.all (fun e => readyB (e.1 {} ⟨0, 12, 8, 4⟩) (on gi) gi 0 4) = true := by decide +kernel
theorem test_logic_goes : logicRows.all (fun e => readyB (e.1 {} ⟨0, 12, 8, 4⟩) (on gi) gi 0 4) = true := by decide +kernel
theorem test_bits_goes : bitRows.all (fun e => readyB (e.1 {} ⟨0, 0, 8, 4⟩) (on gi) gi 0 4) = true := by decide +kernel
theorem test_fields_goes : fieldRows.all (fun e => readyB (e.1 {} ⟨0, 12, 8, 4⟩) (on gi) gi 0 4) = true := by decide +kernel

theorem witness_IntegerArithmetic :
    (∀ e ∈ arithRows, ReadyReg (e.1 {} ⟨0, 12, 8, 4⟩) (on gi) gi 0 4) ∧ ReadyReg (.iabs {} ⟨0, 0, 8, 4⟩) (on gi) gi 0 4
    ∧ ReadyReg (.imad {} ⟨1, 12, 8, 4⟩) (on gi) gi 1 4 :=
  ⟨fun e h => ready_of (rows_of test_arith_goes e h), ready_of (by decide +kernel), ready_of (by decide +kernel)⟩

theorem witness_LogicShiftsAndBitFields :
    (∀ e ∈ logicRows, ReadyReg (e.1 {} ⟨0, 12, 8, 4⟩) (on gi) gi 0 4) ∧ (∀ e ∈ bitRows, ReadyReg (e.1 {} ⟨0, 0, 8, 4⟩) (on gi) gi 0 4)
    ∧ ReadyReg (.sel {} ⟨0, 12, 8, 4⟩) (on gi) gi 0 4 ∧ (∀ e ∈ fieldRows, ReadyReg (e.1 {} ⟨0, 12, 8, 4⟩) (on gi) gi 0 4)
    ∧ ReadyReg (.bfi {} ⟨0, 12, 8, 4⟩) (on gi) gi 0 4 :=
  ⟨fun e h => ready_of (rows_of test_logic_goes e h), fun e h => ready_of (rows_of test_bits_goes e h),
    ready_of (by decide +kernel), fun e h => ready_of (rows_of test_fields_goes e h), ready_of (by decide +kernel)⟩

theorem witness_ImmediateForms :
    (∀ i ∈ [Instr.iaddi { i := some 0x1FFFFFF } ⟨0, 0x7FF, 8, 4⟩, .andi {} ⟨0, 0x7FF, 8, 4⟩, .ori {} ⟨0, 0x400, 8, 4⟩,
      .xori {} ⟨0, 1, 8, 4⟩, .ldi { i := some 0x2468A } ⟨0, 0x678, 0, 4⟩, .shli {} ⟨0, 0, 31, 8, 4⟩, .shri {} ⟨0, 0, 31, 8, 4⟩,
      .sari {} ⟨0, 0, 31, 8, 4⟩], ReadyReg i (on gi) gi 0 4) :=
  fun i h => ready_of (rows_of (p := fun i => readyB i (on gi) gi 0 4) (by decide +kernel) i h)

theorem witness_PairArithmetic :
    (∀ i ∈ [Instr.add64 {} ⟨0, 12, 8, 4⟩, .sub64 {} ⟨0, 12, 8, 4⟩, .mad64 {} ⟨0, 12, 8, 4⟩, .add64i {} ⟨0, 0x7FF, 8, 4⟩],
      ReadyPair i (on gi) gi 4) :=
  fun i h => pair_of (rows_of (p := fun i => pairB i (on gi) gi 4) (by decide +kernel) i h)

theorem witness_IntegerComparisons :
    (∀ i ∈ [Instr.icmp {} 9 ⟨0, 12, 8, 7⟩, .icmp {} 0 ⟨0, 12, 8, 1⟩, .cmp64 {} 9 ⟨0, 12, 8, 1⟩], ReadyMask i (on gi) gi) :=
  fun i h => mask_of (rows_of (p := fun i => maskB i (on gi) gi) (by decide +kernel) i h)

/-- FP32 sources 1, -2.5 and a signalling NaN. -/
def gf : Gust := regs [(8, u 0x3F800000), (12, u 0xC0200000), (4, u 0x7F800001)]

theorem test_float1_goes : floatRows1.all (fun e => readyB (e.1 {} ⟨0, 0, 8, 4⟩) (on gf) gf 0 4) = true := by decide +kernel
theorem test_float2_goes : floatRows2.all (fun e => readyB (e.1 {} ⟨0, 12, 8, 4⟩) (on gf) gf 0 4) = true := by decide +kernel

theorem witness_FloatInstructions :
    (∀ e ∈ floatRows1, ReadyReg (e.1 {} ⟨0, 0, 8, 4⟩) (on gf) gf 0 4) ∧ (∀ e ∈ floatRows2, ReadyReg (e.1 {} ⟨0, 12, 8, 4⟩) (on gf) gf 0 4)
    ∧ ReadyReg (.ffma { m := some ⟨0, 0, 0, 1, 0⟩ } ⟨0, 12, 8, 4⟩) (on gf) gf 0 4 :=
  ⟨fun e h => ready_of (rows_of test_float1_goes e h), fun e h => ready_of (rows_of test_float2_goes e h),
    ready_of (by decide +kernel)⟩

theorem witness_MinimumMaximumAndClass :
    (∀ i ∈ [Instr.fmin {} ⟨0, 12, 8, 4⟩, .fmax {} ⟨0, 4, 8, 4⟩, .fclass {} ⟨0, 0, 4, 5⟩], ReadyReg i (on gf) gf 0 (if i = .fclass {} ⟨0, 0, 4, 5⟩ then 5 else 4)) :=
  fun i h => ready_of (rows_of (p := fun i => readyB i (on gf) gf 0 (if i = .fclass {} ⟨0, 0, 4, 5⟩ then 5 else 4)) (by decide +kernel) i h)

theorem witness_FloatComparison : ReadyMask (.fcmp {} 7 ⟨0, 4, 8, 7⟩) (on gf) gf ∧ ReadyMask (.fcmp {} 0 ⟨0, 4, 8, 1⟩) (on gf) gf :=
  ⟨mask_of (by decide +kernel), mask_of (by decide +kernel)⟩

/-! ## Witnesses: lanes, votes, masks -/

/-- Lanes that differ, a mask, and pairs. -/
def gl : Gust := { regs [(8, .l 5 3), (9, u 1), (12, .l 0 1), (13, u 0), (16, u 0x3C000004), (17, u 7)] with
  masks := [0xF0, 0xFF00, 0, 0, 0, 0, 0xFFFFFFFF] }

theorem test_shuffle_goes : shuffleRows.all (fun e => readyB (e.1 {} ⟨0, 12, 8, 4⟩) (on gl) gl 0 4) = true := by decide +kernel
theorem test_reduce_goes : reduceRows.all (fun e => readyB (e.1 {} ⟨0, 0, 8, 4⟩) (on gl) gl 0 4) = true := by decide +kernel
theorem test_reduceF_goes : reduceRowsF.all (fun e => readyB (e.1 {} ⟨0, 0, 8, 4⟩) (on gl) gl 0 4) = true := by decide +kernel

theorem witness_ShufflesReductionsAndScans :
    (∀ e ∈ shuffleRows, ReadyReg (e.1 {} ⟨0, 12, 8, 4⟩) (on gl) gl 0 4) ∧ (∀ e ∈ reduceRows, ReadyReg (e.1 {} ⟨0, 0, 8, 4⟩) (on gl) gl 0 4)
    ∧ (∀ e ∈ reduceRowsF, ReadyReg (e.1 {} ⟨0, 0, 8, 4⟩) (on gl) gl 0 4)
    ∧ (ReadyReg (.scana {} ⟨0, 0, 8, 4⟩) (on gl) gl 0 4 ∧ ∃ n, n ≤ 32 ∧ gl.lmask = lowMask n)
    ∧ ReadyReg (.scanaF {} ⟨0, 0, 8, 4⟩) (on gl) gl 0 4 :=
  ⟨fun e x => ready_of (rows_of test_shuffle_goes e x), fun e x => ready_of (rows_of test_reduce_goes e x),
    fun e x => ready_of (rows_of test_reduceF_goes e x),
    ⟨ready_of (by decide +kernel), 32, by decide +kernel, by decide +kernel⟩, ready_of (by decide +kernel)⟩

theorem witness_TagControl :
    (∀ i ∈ [Instr.bcast {} ⟨0, 0, 8, 4⟩, .mkl {} ⟨0, 12, 8, 4⟩, .mkg {} ⟨0, 0, 8, 4⟩], ReadyReg i (on gl) gl 0 4)
    ∧ (Issues (.tag {} ⟨0, 0, 8, 4⟩) (on gl) gl ∧ StaysApart (on gl) gl (nextPc (.tag {} ⟨0, 0, 8, 4⟩) (on gl) gl) ∧ Room gl [4]
      ∧ (gl.reg 4).tag ≠ 3) :=
  ⟨fun i h => ready_of (rows_of (p := fun i => readyB i (on gl) gl 0 4) (by decide +kernel) i h),
    issues_of (by decide +kernel), by decide +kernel⟩

theorem witness_QuantiseRotateDecodeAndDraw :
    (∀ i ∈ [Instr.qplane {} ⟨0, 16, 8, 4⟩, .dqx {} ⟨0, 16, 8, 4⟩, .rand {} ⟨0, 12, 8, 4⟩], ReadyReg i (on gl) gl 0 4)
    ∧ (∀ b ∈ [1, 2, 3], plainB (.hadx {} ⟨0, b, 8, 24⟩) (on gl) gl = true ∧ goes (.hadx {} ⟨0, b, 8, 24⟩) (on gl) = true
        ∧ Room gl ((List.range (hadBlock b.toNat)).map (24 + ·))) :=
  ⟨fun i h => ready_of (rows_of (p := fun i => readyB i (on gl) gl 0 4) (by decide +kernel) i h), by decide +kernel⟩

theorem witness_Votes :
    (∀ i ∈ [Instr.voteAny {} ⟨0, 0, 1, 4⟩, .voteAll {} ⟨0, 0, 7, 4⟩, .voteCount {} ⟨0, 0, 2, 4⟩, .voteRank {} ⟨0, 0, 1, 4⟩,
      .mpopc {} ⟨0, 0, 0, 4⟩], ReadyReg i (on gl) gl 0 4) :=
  fun i h => ready_of (rows_of (p := fun i => readyB i (on gl) gl 0 4) (by decide +kernel) i h)

theorem witness_MaskInstructions :
    (∀ i ∈ [Instr.mand {} ⟨0, 1, 2, 3⟩, .mor {} ⟨0, 1, 2, 3⟩, .mxor {} ⟨0, 1, 7, 1⟩, .mnot {} ⟨0, 0, 0, 3⟩, .mmov {} ⟨0, 0, 1, 7⟩,
      .voteBallot {} ⟨0, 0, 8, 3⟩, .elect {} ⟨0, 0, 0, 3⟩], ReadyMask i (on gl) gl) :=
  fun i h => mask_of (rows_of (p := fun i => maskB i (on gl) gl) (by decide +kernel) i h)

/-! ## Witnesses: control flow, barriers, cohorts -/

/-- A gust whose slot A waits at its next group's join, and one that stands apart. -/
def gc : Gust := { regs [(8, u 0x400010), (12, u 0x400011), (14, u 0), (15, u 0x1000000), (16, u 0xFFFFFFFC)] with masks := [0xF0, 0xFFFFFFFF, 0, 0, 0, 0, 0] }
/-- With a live slot B. -/
def gAB : Gust := { gc with b := { pc := 0x400040, mask := 0xF, join := 0x400080 }, a := { gc.a with mask := 0xFFFFFFF0, join := 0x400080 } }

theorem witness_BranchesCallsAndJumps :
    (Issues (.bra {} ⟨0, 0, 5⟩) (on gc) gc ∧ StaysApart (on gc) gc (branchTarget (on gc) gc 5))
    ∧ (∀ i ∈ [Instr.brc {} ⟨0, 1, 5⟩, .brc {} ⟨1, 2, 5⟩, .brc {} ⟨2, 3, 5⟩, .brc {} ⟨3, 7, 5⟩],
        Issues i (on gc) gc ∧ goes i (on gc) = true)
    ∧ (Issues (.call {} ⟨0, 0, 5⟩) (on gc) gc ∧ (gc.windowOk 118 = true ∧ gc.windowOk 119 = true)
      ∧ ((gc.reg 118).sym? = none ∧ (gc.reg 119).sym? = none) ∧ Room gc [118, 119])
    ∧ (Issues (.call {} ⟨0, 0, 5⟩) (on { gc with alloc := 64 }) { gc with alloc := 64 } ∧ { gc with alloc := 64 }.windowOk 118 = false)
    ∧ (plainB (.ret {} ⟨0, 0, 8, 0⟩) (on gc) gc = true ∧ (pairLane64 gc 8 0).toNat % 4 = 0 ∧ goes (.ret {} ⟨0, 0, 8, 0⟩) (on gc) = true)
    ∧ (plainB (.jmpr {} ⟨0, 0, 12, 0⟩) (on gc) gc = true ∧ (pairLane64 gc 12 0).toNat % 4 ≠ 0)
    ∧ (plainB (.ret {} ⟨0, 0, 14, 0⟩) (on gc) gc = true ∧ (pairLane64 gc 14 0).toNat = 2 ^ 56)
    ∧ plainB (.recon {} ⟨0, 0, 0, 0⟩) (on gc) gc = true :=
  ⟨⟨issues_of (by decide +kernel), by decide +kernel⟩,
    fun i h => by
      have := rows_of (p := fun i => issuesB i (on gc) gc && goes i (on gc)) (l := [Instr.brc {} ⟨0, 1, 5⟩, .brc {} ⟨1, 2, 5⟩, .brc {} ⟨2, 3, 5⟩, .brc {} ⟨3, 7, 5⟩]) (by decide +kernel) i h
      simp only [Bool.and_eq_true] at this
      exact ⟨issues_of this.1, this.2⟩,
    ⟨issues_of (by decide +kernel), by decide +kernel⟩, ⟨issues_of (by decide +kernel), by decide +kernel⟩, by decide +kernel,
    by decide +kernel, by decide +kernel, by decide +kernel⟩

/-- BRD with AUX 12. -/
def brd12 (f : BForm) : Instr := .brd { m := some ⟨0, 0, 0, 0, 12⟩ } f
/-- The frame address translates to the page of data. -/
def gFull : Gust := { gAB with dsp := 64 }

theorem witness_DivergentBranches :
    (Issues (brd12 ⟨0, 3, 5⟩) (on gc) gc ∧ brdTaken (on gc) gc ⟨0, 3, 5⟩ = 0 ∧ goes (brd12 ⟨0, 3, 5⟩) (on gc) = true)
    ∧ (Issues (brd12 ⟨0, 2, 5⟩) (on gc) gc ∧ brdRest (on gc) gc ⟨0, 2, 5⟩ = 0 ∧ brdTaken (on gc) gc ⟨0, 2, 5⟩ ≠ 0)
    ∧ (Issues (brd12 ⟨0, 1, 5⟩) (on gc) gc ∧ brdTaken (on gc) gc ⟨0, 1, 5⟩ ≠ 0 ∧ brdRest (on gc) gc ⟨0, 1, 5⟩ ≠ 0
      ∧ (gc.slot true).mask = 0 ∧ goes (brd12 ⟨0, 1, 5⟩) (on gc) = true)
    ∧ (Issues (brd12 ⟨0, 1, 5⟩) (on gFull) gFull ∧ (gFull.slot true).mask ≠ 0 ∧ 64 ≤ gFull.dsp ∧ brdRest (on gFull) gFull ⟨0, 1, 5⟩ ≠ 0
      ∧ brdTaken (on gFull) gFull ⟨0, 1, 5⟩ ≠ 0)
    ∧ (Issues (brd12 ⟨0, 1, 5⟩) (on gAB) gAB ∧ (gAB.slot true).wait = none ∧ gAB.dsp < 64
      ∧ (match (on gAB).translate 0 0 0 0x410000 with
        | (s1, some x) => decide (laneFault s1 .store 16 0x410000 0 (some x) [] = none)
            && (List.range 16).all fun j => hubOnly (localPa (x.domain 0x410000 + j)) == false
        | _ => false) = true
      ∧ goes (brd12 ⟨0, 1, 5⟩) (on gAB) = true) :=
  ⟨⟨issues_of (by decide +kernel), by decide +kernel⟩, ⟨issues_of (by decide +kernel), by decide +kernel⟩,
    ⟨issues_of (by decide +kernel), by decide +kernel⟩, ⟨issues_of (by decide +kernel), by decide +kernel⟩,
    issues_of (by decide +kernel), by decide +kernel⟩

/-- Both slots at one join. -/
def gJoin : Gust := { gc with a := { pc := 0x400080, mask := 0xF, join := 0x400080 }, b := { pc := 0x400080, mask := 0xF0, join := 0x400080 } }
/-- The same with one entry on the stack, whose join is 0, and slot A alone at its join with that entry. -/
def gJoin1 : Gust := { gJoin with dsp := 1 }
def gAlone : Gust := { gJoin with b := {}, dsp := 1 }
/-- What reading the top of the stack gives. -/
def topB (s : State) (g : Gust) (p : BitVec 56 → Word → BitVec 56 → Bool) : Bool :=
  match (s.readEntry 0 g 0).2 with | .ok (pc, m, j) => p pc m j | _ => false
/-- The stack's entry has the join of the slot that stands there. -/
def sTop : State := ((on gAlone).pokeWord 0x410000 0x400040).pokeWord 0x410008 0x400000000F

/-- No path left but one entry of the stack, and none at all. -/
def gPop : Gust := { gc with a := {}, dsp := 1 }
def gNone : Gust := { gc with a := {} }

theorem witness_Settle :
    (gJoin.a.atJoin = true ∧ gJoin.b.atJoin = true ∧ gJoin.a.join = gJoin.b.join ∧ gJoin.dsp = 0)
    ∧ (gJoin1.a.atJoin = true ∧ gJoin1.b.atJoin = true ∧ 0 < gJoin1.dsp ∧ topB (on gJoin1) gJoin1 (fun _ _ _ => true) = true)
    ∧ (gAlone.a.atJoin = true ∧ gAlone.b.mask = 0 ∧ sTop.gust? 0 = some gAlone
      ∧ topB sTop gAlone (fun pc _ j => pc == 0x400040 && j == gAlone.a.join) = true)
    ∧ (gAlone.a.atJoin = true ∧ topB (on gAlone) gAlone (fun _ _ j => j != gAlone.a.join) = true)
    ∧ (gPop.a.mask = 0 ∧ gPop.b.mask = 0 ∧ 0 < gPop.dsp ∧ topB (on gPop) gPop (fun _ _ _ => true) = true)
    ∧ ({ gJoin with b := {} }.a.atJoin = true ∧ { gJoin with b := {} }.b.mask = 0)
    ∧ (gNone.a.mask = 0 ∧ gNone.b.mask = 0 ∧ gNone.dsp = 0) := by decide +kernel

theorem witness_ExitAndRetirement :
    (Issues (.exit {} ⟨0, 0, 0, 0⟩) (on gAB) gAB ∧ (gAB.slot true).mask ≠ 0 ∧ (gAB.slot true).atJoin = false)
    ∧ (Issues (.exit {} ⟨0, 0, 0, 0⟩) (on gc) gc ∧ (gc.slot true).mask = 0 ∧ gc.dsp = 0)
    ∧ (let g := { gNone with retiring := true }
       (on g).gust? 0 = some g ∧ g.retiring = true ∧ (∀ y ∈ g.syms, y.state = 0) ∧ (∀ j, j < 4 → g.memberOf j = none)
        ∧ ((on g).front? g.front).isSome = true ∧ ((on g).core 0).locks.all (fun e => e.2 != 0) = true
        ∧ goes (.gustRetire 0) (on g) = true) :=
  ⟨⟨issues_of (by decide +kernel), by decide +kernel⟩, ⟨issues_of (by decide +kernel), by decide +kernel⟩, by decide +kernel⟩

/-- SPAWN: the entry in v8 and v9; v12 misaligned. -/
def spn (sb : BitVec 7) : Instr := .spawn {} ⟨0, sb, 24, 4⟩

theorem witness_Spawn :
    (ReadyReg (spn 12) (on gc) gc 0 4 ∧ spawnCode {} ⟨0, 12, 24, 4⟩ (on gc) gc (spawnEntry {} ⟨0, 12, 24, 4⟩ (on gc) gc) = 4)
    ∧ (ReadyReg (spn 8) (on { gc with alloc := 64, gbud := 8 }) { gc with alloc := 64, gbud := 8 } 0 4
      ∧ (let g := { gc with alloc := 64, gbud := 8 }
         spawnCode {} ⟨0, 8, 24, 4⟩ (on g) g (spawnEntry {} ⟨0, 8, 24, 4⟩ (on g) g) = 0
          ∧ (freeSlot ((on g).slotsUsed 0 0) g.twin.isSome).isSome = true ∧ ((on g).front? g.front).isSome = true)) :=
  ⟨⟨ready_of (by decide +kernel), by decide +kernel⟩, ready_of (by decide +kernel), by decide +kernel⟩

/-- A front with an open cohort 0 (counter 0 of die 0), a closed one, and a gust that is a member of cohort 0 in slot 0. -/
def frC : Front := { placedFront with cohorts := [⟨true, 0, 0, 0, 1, 0⟩, ⟨false, 1, 0, 0, 1, 0⟩] }
def gm : Gust := { regs [(8, u 0), (9, u 1), (12, u 2), (16, u 1)] with members := [0x8000, 0, 0, 0] }
/-- A gust of the front with counter 0 holding x. -/
def coh (g : Gust) (x : Counter) : State :=
  let s := { on g with fronts := [(0, frC)] }
  s.setDie 0 { s.die 0 with counters := [(0, x)] }
/-- E = 2 and nothing has arrived; one has arrived and E = 1. -/
def x2 : Counter := { front := 0, e := 2 }
def x1 : Counter := { front := 0, e := 1 }
/-- A load of symbol 0 is outstanding. -/
def gLoad : Gust := { gm with syms := [{ state := 1, mask := 1 }, {}, {}, {}, {}, {}, {}, {}] }
/-- Another gust, whose slot A waits at the barrier. -/
def gw : Gust := { g0 with gustId := 1, a := { g0.a with wait := some (.barrier 0 0 0), waitNext := 0x400020 } }
def cohW : State := (coh gm { x1 with waiters := [(1, false, 0)] }).setGust 1 gw

theorem witness_Barriers :
    (Issues (.bar {} ⟨0, 0, 3, 0⟩) (coh gm x2) gm ∧ gm.memberOf 3 = none ∧ goes (.bar {} ⟨0, 0, 3, 0⟩) (coh gm x2) = true)
    ∧ (Issues (.bar {} ⟨0, 0, 0, 0⟩) (coh gm x2) gm ∧ counterOf (coh gm x2) gm 0 = some (0, 0, x2) ∧ x2.a + 1 < x2.e
      ∧ gm.loadsDone = true ∧ x2.arrived = [] ∧ resident 0 = true)
    ∧ (Issues (.bar {} ⟨0, 0, 0, 0⟩) (coh gLoad x2) gLoad ∧ gLoad.loadsDone = false ∧ (counterOf (coh gLoad x2) gLoad 0).isSome = true)
    ∧ (Issues (.bar {} ⟨0, 0, 0, 0⟩) (coh gm { x2 with a := 1, arrived := [0] }) gm
      ∧ (counterOf (coh gm { x2 with a := 1, arrived := [0] }) gm 0).isSome = true)
    ∧ (Issues (.bar {} ⟨0, 0, 0, 0⟩) (coh gm x1) gm ∧ counterOf (coh gm x1) gm 0 = some (0, 0, x1) ∧ x1.e ≤ x1.a + 1 ∧ x1.s = 0
      ∧ x1.waiters = [] ∧ StaysApart (coh gm x1) gm (nextPc (.bar {} ⟨0, 0, 0, 0⟩) (coh gm x1) gm))
    ∧ (Issues (.bar {} ⟨0, 0, 0, 0⟩) cohW gm ∧ (counterOf cohW gm 0).map (fun p => p.2.2.waiters) = some [(1, false, 0)]
      ∧ cohW.gust? 1 = some gw ∧ (gw.slot false).mask ≠ 0 ∧ (gw.slot false).join = 0 ∧ goes (.bar {} ⟨0, 0, 0, 0⟩) cohW = true)
    ∧ (Issues (.bar {} ⟨0, 0, 0, 0⟩) (coh gm { x2 with drain := true }) gm
      ∧ counterOf (coh gm { x2 with drain := true }) gm 0 = some (0, 0, { x2 with drain := true }))
    ∧ (Issues (.bararr {} ⟨0, 0, 0, 0⟩) (coh gm x2) gm ∧ goes (.bararr {} ⟨0, 0, 0, 0⟩) (coh gm x2) = true)
    ∧ (Issues (.bararr {} ⟨0, 0, 3, 0⟩) (coh gm x2) gm ∧ gm.memberOf 3 = none)
    ∧ (Issues (.bararr {} ⟨0, 0, 0, 0⟩) (coh gLoad x2) gLoad ∧ goes (.bararr {} ⟨0, 0, 0, 0⟩) (coh gLoad x2) = true
      ∧ StaysApart (coh gLoad x2) gLoad (nextPc (.bararr {} ⟨0, 0, 0, 0⟩) (coh gLoad x2) gLoad))
    ∧ (Issues (.barwt {} ⟨0, 0, 3, 0⟩) (coh gm x2) gm ∧ goes (.barwt {} ⟨0, 0, 3, 0⟩) (coh gm x2) = true)
    ∧ (Issues (.barwt {} ⟨0, 0, 0, 0⟩) (coh gm x2) gm ∧ x2.s = 0 ∧ goes (.barwt {} ⟨0, 0, 0, 0⟩) (coh gm x2) = true)
    ∧ (Issues (.barwt {} ⟨0, 0, 0, 0⟩) (coh gm { x2 with s := 1 }) gm
      ∧ counterOf (coh gm { x2 with s := 1 }) gm 0 = some (0, 0, { x2 with s := 1 }))
    ∧ (Issues (.barwt {} ⟨0, 0, 0, 0⟩) (coh gm { x2 with s := 1, drain := true }) gm
      ∧ goes (.barwt {} ⟨0, 0, 0, 0⟩) (coh gm { x2 with s := 1, drain := true }) = true) :=
  ⟨⟨issues_of (by decide +kernel), by decide +kernel⟩, ⟨issues_of (by decide +kernel), by decide +kernel⟩,
    ⟨issues_of (by decide +kernel), by decide +kernel⟩, ⟨issues_of (by decide +kernel), by decide +kernel⟩,
    ⟨issues_of (by decide +kernel), by decide +kernel⟩, ⟨issues_of (by decide +kernel), by decide +kernel⟩,
    ⟨issues_of (by decide +kernel), by decide +kernel⟩, ⟨issues_of (by decide +kernel), by decide +kernel⟩,
    ⟨issues_of (by decide +kernel), by decide +kernel⟩, ⟨issues_of (by decide +kernel), by decide +kernel⟩,
    ⟨issues_of (by decide +kernel), by decide +kernel⟩, ⟨issues_of (by decide +kernel), by decide +kernel⟩,
    ⟨issues_of (by decide +kernel), by decide +kernel⟩, issues_of (by decide +kernel), by decide +kernel⟩

/-- A REGROUP with descriptor 0 in v8 (slot 0), 1 in v9 (slot 1); one lane less live for a partial write. -/
def gPart : Gust := { gm with a := { gm.a with mask := 0xFFFF }, gbud := 0 }
def gOut : Gust := { gm with posted := [⟨0, some 0, 0, []⟩] }

theorem witness_Regroup :
    (Issues (.regroup {} ⟨0, 0, 8, 4⟩) (coh gPart x2) gPart ∧ flagNeedsRoom (coh gPart x2) gPart ⟨0, 0, 8, 4⟩ ∧ gPart.gbud < gPart.gcnt + 1)
    ∧ (plainB (.regroup {} ⟨0, 0, 9, 4⟩) (coh gm x2) gm = true ∧ Room gm [4]
      ∧ gm.memberOf (regroupDesc {} ⟨0, 0, 9, 4⟩ (coh gm x2) gm % 4) = none ∧ goes (.regroup {} ⟨0, 0, 9, 4⟩) (coh gm x2) = true)
    ∧ (plainB (.regroup {} ⟨0, 0, 8, 4⟩) (coh gOut x2) gOut = true ∧ Room gOut [4] ∧ gOut.posted.any (fun q => q.counter.isSome) = true
      ∧ goes (.regroup {} ⟨0, 0, 8, 4⟩) (coh gOut x2) = true)
    ∧ (plainB (.regroup {} ⟨0, 0, 8, 4⟩) (coh gm x2) gm = true ∧ gm.noDrift = true ∧ gm.posted.all (fun q => q.counter.isNone) = true
      ∧ x2.drain = false ∧ x2.held = [] ∧ x2.a + 1 < x2.e ∧ gm.flagReserved = [] ∧ gm.regroup = []
      ∧ counterOf (coh gm x2) gm (regroupDesc {} ⟨0, 0, 8, 4⟩ (coh gm x2) gm % 4) = some (0, 0, x2)) :=
  ⟨⟨issues_of (by decide +kernel), by decide +kernel⟩, by decide +kernel⟩

/-- All four membership slots taken by other cohorts. -/
def gFour : Gust := { gm with members := [0x8002, 0x8002, 0x8002, 0x8002] }
def gFree : Gust := { gm with members := [0, 0, 0, 0] }

theorem witness_Cohorts :
    (ReadyReg (.cjoin {} ⟨0, 0, 8, 4⟩) (coh gFree x2) gFree 0 4 ∧ frC.isOpen 0 = true ∧ (∀ k, k < 4 → gFree.memberOf k ≠ some 0)
      ∧ (coh gFree x2).cohortCounter gFree 0 = some (0, 0) ∧ (coh gFree x2).counter? 0 0 = some x2)
    ∧ (ReadyReg (.cjoin {} ⟨0, 0, 12, 4⟩) (coh gm x2) gm 0 4 ∧ frC.cohorts.length ≤ 2)
    ∧ (ReadyReg (.cjoin {} ⟨0, 0, 9, 4⟩) (coh gm x2) gm 0 4 ∧ frC.isOpen 1 = false)
    ∧ (ReadyReg (.cjoin {} ⟨0, 0, 8, 4⟩) (coh gm x2) gm 0 4 ∧ gm.memberOf 0 = some 0)
    ∧ (ReadyReg (.cjoin {} ⟨0, 0, 8, 4⟩) (coh gFour x2) gFour 0 4 ∧ ∀ k, k < 4 → gFour.memberOf k = some 2)
    ∧ (Issues (.cleave {} ⟨0, 0, 3, 0⟩) (coh gm x2) gm ∧ gm.memberOf 3 = none)
    ∧ (Issues (.cleave {} ⟨0, 0, 0, 0⟩) (coh gm x2) gm ∧ counterOf (coh gm x2) gm 0 = some (0, 0, x2)
      ∧ goes (.cleave {} ⟨0, 0, 0, 0⟩) (coh gm x2) = true)
    ∧ (Issues (.cleave {} ⟨0, 0, 0, 0⟩) (coh gm { x2 with drain := true }) gm
      ∧ goes (.cleave {} ⟨0, 0, 0, 0⟩) (coh gm { x2 with drain := true }) = true) :=
  ⟨⟨ready_of (by decide +kernel), by decide +kernel⟩, ⟨ready_of (by decide +kernel), by decide +kernel⟩,
    ⟨ready_of (by decide +kernel), by decide +kernel⟩, ⟨ready_of (by decide +kernel), by decide +kernel⟩,
    ⟨ready_of (by decide +kernel), by decide +kernel⟩, ⟨issues_of (by decide +kernel), by decide +kernel⟩,
    ⟨issues_of (by decide +kernel), by decide +kernel⟩, issues_of (by decide +kernel), by decide +kernel⟩

/-! ## Witnesses: memory -/

/-- The page of data with the permissions R, W, A and CAP, and as a page of plane tiles that is only read. -/
def sFull : State := s0.pokeWord 0x18010 0x41018F
def sTile : State := (s0.pokeWord 0x18010 0x410103).pokeWord 0x18018 0x1401
def onS (s : State) (g : Gust) : State := s.setGust 0 g
/-- v8:v9 the data page, v10:v11 a misaligned address in it, v12 the lane's offset, v16 operands. -/
def gmem : Gust := regs [(8, u 0x410000), (10, u 0x410001), (12, .l 0 8), (14, u 5), (16, .l 7 1), (17, u 0)]
/-- As gmem with a masked lane set. -/
def ghalf : Gust := { gmem with a := { gmem.a with mask := 0xFFFF } }

/-- What a load's statement asks of it, at its translations. -/
def loadB (i : Instr) (s : State) (g : Gust) (a : Access) (p : Pfx) (n : Nat) (sa sb d : BitVec 7) (k : Nat) : Bool :=
  plainB i s g && decide (runLanes i s g ≠ 0) && decide (AcquiresAtOnce p s g)
    && nearB s (lanesOf (runLanes i s g)) (eaOf p s g sa sb) (checkLanes (mkCtx i g s.curB) s a n (lanesOf (runLanes i s g)) (eaOf p s g sa sb)
        (fun _ => 0) (plainSpan n (eaOf p s g sa sb)))
    && decide (Room g (runOf d k)) && goes i s

theorem witness_Loads :
    (∀ f ∈ [(⟨4, 0, 127, 8, 4⟩ : MForm), ⟨0, 0, 12, 8, 4⟩, ⟨2, 1, 12, 8, 4⟩, ⟨3, 0, 12, 8, 4⟩, ⟨5, 0, 12, 8, 4⟩, ⟨6, 1, 127, 8, 20⟩],
      loadB (.ld {} f) (on gmem) gmem .load {} (Machine.sizeOf f.k.toNat) f.sa f.sb f.d (regsOf f.k.toNat) = true)
    ∧ loadB (.ldraw {} ⟨4, 0, 12, 8, 4⟩) (on gmem) gmem .raw {} 4 8 12 4 1 = true
    ∧ loadB (.ld { i := some 1 } ⟨4, 0, 127, 8, 4⟩) (on gmem) gmem .load { i := some 1 } 4 8 127 4 1 = true
    ∧ (Issues (.ld { m := some ⟨1, 0, 0, 0, 0⟩ } ⟨4, 0, 127, 8, 4⟩) (on gmem) gmem
      ∧ runLanes (.ld { m := some ⟨1, 0, 0, 0, 0⟩ } ⟨4, 0, 127, 8, 4⟩) (on gmem) gmem = 0) :=
  ⟨by decide +kernel, by decide +kernel, by decide +kernel, issues_of (by decide +kernel), by decide +kernel⟩

theorem witness_MisalignedLoads :
    (∀ k ∈ [(2 : BitVec 3), 4, 5, 6], plainB (.ld {} ⟨k, 0, 127, 10, 4⟩) (on gmem) gmem = true
      ∧ runLanes (.ld {} ⟨k, 0, 127, 10, 4⟩) (on gmem) gmem ≠ 0 ∧ gmem.replay = []
      ∧ ((lanesOf (runLanes (.ld {} ⟨k, 0, 127, 10, 4⟩) (on gmem) gmem)).all fun l =>
          (eaOf {} (on gmem) gmem 10 127 l).toNat % Machine.sizeOf k.toNat != 0) = true) := by decide +kernel

/-- v8:v9 the last 64 bytes of the data page and what lies behind it: lanes 0 to 7 are in the page. v14 the register stored. -/
def gedge : Gust := { gmem with regs := [(8, .l 0x41FFC0 8), (9, u 0), (12, u 0), (14, u 5), (16, .l 7 1), (17, u 0), (18, u 0x1000)] }

/-- What the checks of an access find when some lanes fault and some do not. -/
def faultB (i : Instr) (s : State) (g : Gust) (a : Access) (n : Nat) (ea : Nat → DWord) (idx : Nat → Nat)
    (sp : Xlat → Nat → List (Nat × Nat)) : Bool :=
  let ls := lanesOf (runLanes i s g)
  let k := checkLanes (mkCtx i g s.curB) s a n ls ea idx sp
  let ok := soundLanes ls (causes k a n ea idx sp)
  issuesB i s g && decide (NoDrift i s g) && decide (g.loadsDone = true) && k.pages.found.all (fun x => !k.s.lacksFeature x)
    && soundB s g (ls.map fun l => (ea l).toNat) && ok != [] && ok != ls && ok.all (fun l => peerOf (k.dom (ea l)) == s.self) && goes i s

theorem witness_FaultingLanes :
    (∀ i ∈ [Instr.ld {} ⟨4, 0, 12, 8, 4⟩, .ldraw {} ⟨4, 0, 12, 8, 4⟩],
      faultB i (on gedge) gedge (if i = .ldraw {} ⟨4, 0, 12, 8, 4⟩ then .raw else .load) 4 (eaOf {} (on gedge) gedge 8 12) (fun _ => 0)
        (plainSpan 4 (eaOf {} (on gedge) gedge 8 12)) = true ∧ Room gedge (runOf 4 1) ∧ NoRoom { gedge with gbud := gedge.gcnt } (runOf 4 1))
    ∧ (let g := { gmem with regs := [(8, u 0x410000), (9, u 0), (12, .l 1000 1)] }
       let s := onS sTile g
       faultB (.ldx {} ⟨0, 0, 12, 8, 4⟩) s g .ldx 1 (pairLane64 g 8) (elemIndexOf {} s g 12)
        (ldxSpans 0 (pairLane64 g 8) (elemIndexOf {} s g 12) s) = true)
    ∧ faultB (.atomr {} ⟨0, 0, 16, 8, 4⟩) (onS sFull gedge) gedge .atomicR 4 (eaOfAtomic {} gedge 8) (fun _ => 0)
        (plainSpan 4 (eaOfAtomic {} gedge 8)) = true
    ∧ faultB (.st {} ⟨4, 0, 12, 8, 14⟩) (on gedge) gedge .store 4 (eaOf {} (on gedge) gedge 8 12) (fun _ => 0) (fun _ _ => []) = true
    ∧ faultB (.atom {} ⟨0, 0, 16, 8, 0⟩) (onS sFull gedge) gedge .atomic 4 (eaOfAtomic {} gedge 8) (fun _ => 0) (fun _ _ => []) = true
    ∧ faultB (.ldDf {} ⟨4, 12, 8, 4⟩) (on gedge) gedge .load 4 (eaOf {} (on gedge) gedge 8 12) (fun _ => 0) (fun _ _ => []) = true
    ∧ gedge.freeSym.isSome = true ∧ gedge.driftRegs < 16 := by decide +kernel

/-- The four loads, stores and capability moves that perform no lane, at a misaligned address. -/
def gmis : Gust := { gmem with regs := [(8, u 0x410001), (12, u 0), (14, u 5), (16, .l 7 1), (18, u 0x20000)] }

theorem witness_WholeFaults :
    (∀ i ∈ [Instr.ldu {} ⟨4, 0, 12, 8, 4⟩, .lduDf {} ⟨4, 12, 8, 4⟩, .capld {} ⟨0, 12, 8, 4⟩, .capst {} ⟨0, 12, 8, 4⟩],
      issuesB i (on gmis) gmis = true ∧ NoDrift i (on gmis) gmis ∧ runLanes i (on gmis) gmis ≠ 0 ∧ gmis.loadsDone = true
      ∧ (oneAccess i).isSome = true ∧ goes i (on gmis) = true
      ∧ (match oneAccess i with
        | some (a, p, n, sa, sb, _) =>
          let ea := eaOf p (on gmis) gmis sa sb
          let k := checkLanes (mkCtx i gmis false) (on gmis) a n [lowestOf (runLanes i (on gmis) gmis)] ea (fun _ => 0) (oneSpan i n ea)
          k.pages.found.all (fun x => !k.s.lacksFeature x)
            && soundB (on gmis) gmis [(ea (lowestOf (runLanes i (on gmis) gmis))).toNat] && (causes k a n ea (fun _ => 0) (oneSpan i n ea) (lowestOf (runLanes i (on gmis) gmis))).isSome
        | none => false) = true)
    ∧ ∀ i ∈ [Instr.isyncRange {} ⟨0, 18, 8, 0⟩, .hflush {} ⟨0, 18, 8, 0⟩],
      (let g := gmis
       let start := (pairLane64 g 8 (lowestOf (runLanes i (on g) g))).toNat
       let len := (operand (on g) g 18 (lowestOf (runLanes i (on g) g))).toNat
       let x := (on g).pagesOf 0 ((on g).frontOf g).part ((on g).frontOf g).asid (rangePages start len) {}
       issuesB i (on g) g = true ∧ NoDrift i (on g) g ∧ runLanes i (on g) g ≠ 0 ∧ (g.slot false).wait = none
        ∧ soundB (on g) g (rangePages start len) = true ∧ x.2.found.all (fun y => !x.1.lacksFeature y) = true
        ∧ (rangePages start len).filterMap (rangeFault x.2) = [2, 2] ∧ goes i (on g) = true) := by decide +kernel

theorem witness_UniformAndPlaneTileLoads :
    (plainB (.ldu {} ⟨4, 0, 12, 8, 4⟩) (on gmem) gmem = true ∧ runLanes (.ldu {} ⟨4, 0, 12, 8, 4⟩) (on gmem) gmem ≠ 0
      ∧ nearB (on gmem) [lowestOf (runLanes (.ldu {} ⟨4, 0, 12, 8, 4⟩) (on gmem) gmem)] (eaOf {} (on gmem) gmem 8 12)
        (checkLanes (mkCtx (.ldu {} ⟨4, 0, 12, 8, 4⟩) gmem false) (on gmem) .load 4 [lowestOf (runLanes (.ldu {} ⟨4, 0, 12, 8, 4⟩) (on gmem) gmem)]
          (eaOf {} (on gmem) gmem 8 12) (fun _ => 0) (plainSpan 4 (eaOf {} (on gmem) gmem 8 12))) = true
      ∧ goes (.ldu {} ⟨4, 0, 12, 8, 4⟩) (on gmem) = true)
    ∧ (let s := onS sTile ghalf
       let i := Instr.ldx {} ⟨0, 0, 12, 8, 4⟩
       let k := checkLanes (mkCtx i ghalf false) s .ldx 1 (lanesOf (runLanes i s ghalf)) (pairLane64 ghalf 8)
          (elemIndexOf {} s ghalf 12) (ldxSpans 0 (pairLane64 ghalf 8) (elemIndexOf {} s ghalf 12) s)
       plainB i s ghalf = true ∧ runLanes i s ghalf ≠ 0 ∧ k.faults = [] ∧ k.pages.absent = [] ∧ goes i s = true
        ∧ (match k.pages.find 0x410000 with
          | some x => (lanesOf (runLanes i s ghalf)).all fun l =>
              (ldxSpans 0 (pairLane64 ghalf 8) (elemIndexOf {} s ghalf 12) s x l).all fun r => peerOf r.1 == s.self
          | none => false) = true) := by decide +kernel

/-- Symbols 0 and 1 are taken. -/
def gsym : Gust := { gmem with syms := [{ state := 1, mask := 1 }, { state := 1, mask := 1 }, {}, {}, {}, {}, {}, {}] }

theorem witness_DriftLoads :
    (∀ e ∈ [(gmem, 0), (gsym, 2)], ∀ i ∈ [Instr.ldDf {} ⟨4, 12, 8, 4⟩, .lduDf {} ⟨4, 12, 8, 4⟩],
      plainB i (on e.1) e.1 = true ∧ runLanes i (on e.1) e.1 ≠ 0 ∧ e.1.symFree e.2 = true ∧ (∀ n, n < e.2 → e.1.symFree n = false)
      ∧ e.1.driftRegs < 16 ∧ e.1.syms.length = 8 ∧ Room e.1 [4] ∧ goes i (on e.1) = true
      ∧ nearB (on e.1) (lanesOf (runLanes i (on e.1) e.1)) (eaOf {} (on e.1) e.1 8 12)
          (checkLanes (mkCtx i e.1 false) (on e.1) .load 4 (lanesOf (runLanes i (on e.1) e.1)) (eaOf {} (on e.1) e.1 8 12) (fun _ => 0)
            (fun _ _ => [])) = true) := by decide +kernel

/-- v4 and v5 hold records of symbol 0, whose words have been loaded in lanes 0 and 1. -/
def gdrift : Gust := { gmem with
  regs := [(4, .d ⟨0, 0, 1, 0⟩ (List.replicate 32 0)), (5, .d ⟨0, 1, 3, 7⟩ (List.replicate 32 0)), (6, .d ⟨0, 3, 3, 7⟩ (List.replicate 32 9))]
  syms := [{ state := 1, mask := 3, raw := [5, 6] }, {}, {}, {}, {}, {}, {}, {}] }
def gdriftU : Gust := { gdrift with syms := [{ state := 1, mask := 3, uniform := true, raw := [5, 5] }, {}, {}, {}, {}, {}, {}, {}] }

/-- Operands of Table 8 beside the records: v7 a uniform word, v8:v9 a uniform pair. -/
def gtr : Gust := { gdrift with
  regs := [(4, .d ⟨0, 0, 1, 0⟩ (List.replicate 32 0)), (5, .d ⟨0, 1, 3, 7⟩ (List.replicate 32 0)), (6, .d ⟨0, 2, 0x40000000, 0⟩ (List.replicate 32 0)),
    (7, u 9), (8, u 5), (9, u 0), (12, .d ⟨1, 0, 1, 0⟩ (List.replicate 32 0))]
  syms := [{ state := 1, mask := 0xFFFFFFFF, raw := [5, 6] }, { state := 1, mask := 1 }, {}, {}, {}, {}, {}, {}] }

/-- What a transform asks. -/
def transB (i : Instr) (g : Gust) : Bool :=
  match tableEight i (on g) g with
  | some (r, ws) => issuesB i (on g) g && decide (active i (on g) g = (g.syms.getD r.sym {}).mask)
      && decide (StaysApart (on g) g (nextPc i (on g) g)) && decide (Room g (ws.map Prod.fst)) && goes i (on g)
      && ws.all fun e => (g.reg e.1).sym? == none || (g.reg e.1).sym? == some r.sym
  | none => false

/-- PFX.M with the drift-permit modifier. -/
def permitPfx : Pfx := { m := some ⟨0, 0, 0, 0, 1⟩ }

theorem witness_DriftTransforms :
    (∀ i ∈ [Instr.iadd {} ⟨0, 7, 4, 16⟩, .iadd {} ⟨0, 4, 7, 16⟩, .iaddi {} ⟨0, 0x7FF, 5, 16⟩, .isub {} ⟨0, 7, 4, 16⟩, .isub {} ⟨0, 4, 7, 16⟩,
        .imul {} ⟨0, 7, 5, 16⟩, .fadd permitPfx ⟨0, 7, 6, 16⟩, .fsub permitPfx ⟨0, 7, 6, 16⟩, .fmul permitPfx ⟨0, 7, 4, 16⟩,
        .add64 {} ⟨0, 4, 8, 16⟩, .add64i {} ⟨0, 0x7FF, 4, 16⟩, .mad64 {} ⟨0, 7, 4, 8⟩], transB i gtr = true)
    ∧ (∀ i ∈ [Instr.iadd {} ⟨0, 7, 4, 12⟩, .mad64 {} ⟨0, 7, 4, 12⟩], issuesB i (on gtr) gtr = true ∧ goes i (on gtr) = true)
    ∧ (tableEight (.iadd {} ⟨0, 7, 4, 12⟩) (on gtr) gtr).isSome = true ∧ (gtr.reg 12).sym? = some 1
    ∧ ∀ i ∈ [Instr.iadd {} ⟨0, 5, 4, 16⟩, .ffma {} ⟨0, 7, 4, 16⟩, .fadd {} ⟨0, 7, 4, 16⟩, .icmp {} 0 ⟨0, 7, 4, 1⟩, .ret {} ⟨0, 0, 4, 0⟩,
        .ld {} ⟨4, 0, 127, 4, 16⟩, .spst {} ⟨4, 127, 7, 4⟩, .bcast {} ⟨0, 0, 4, 16⟩],
      issuesB i (on gtr) gtr = true ∧ usesPlain i (on gtr) gtr = true ∧ gtr.driftOf false i = some 0 ∧ tableEight i (on gtr) gtr = none
        ∧ goes i (on gtr) = true := by decide +kernel

theorem witness_Arrivals :
    ∀ g ∈ [gdrift, gdriftU], (on g).gust? 0 = some g ∧ inActive 0 = true
      ∧ g.unitOps = [] ∧ g.a.wait = none ∧ g.b.wait = none ∧ (on g).poison = []
      ∧ (match g.syms[0]? with
        | some y => decide (y.state = 1) && !y.held && y.lines.isEmpty && y.seen.isEmpty && decide (y.poison = 0) && (!y.uniform || ((lanesOf y.mask).all fun l =>
            laneGet y.raw l == laneGet y.raw (lowestOf y.mask)))
        | none => false) = true
      ∧ goes (.driftArrival 0 0) (on g) = true := by decide +kernel

/-- A tracked, released store in lanes 0 to 15, at addresses that differ, and one where all lanes meet. -/
def relPfx : Pfx := { m := some ⟨0, 0, 3, 0, 2⟩ }

theorem witness_Stores :
    (∀ e ∈ [(({} : Pfx), (⟨4, 0, 12, 8, 16⟩ : MForm)), ({}, ⟨0, 0, 127, 8, 16⟩), (relPfx, ⟨5, 1, 12, 8, 16⟩), ({}, ⟨6, 0, 127, 8, 16⟩)],
      plainB (.st e.1 e.2) (on ghalf) ghalf = true ∧ runLanes (.st e.1 e.2) (on ghalf) ghalf ≠ 0
      ∧ PostsAtOnce e.1 (on ghalf) ghalf (e.2.o == 1) ∧ goes (.st e.1 e.2) (on ghalf) = true
      ∧ (let k := checkLanes (mkCtx (.st e.1 e.2) ghalf false) (on ghalf) .store (Machine.sizeOf e.2.k.toNat) (lanesOf (runLanes (.st e.1 e.2) (on ghalf) ghalf))
            (eaOf e.1 (on ghalf) ghalf e.2.sa e.2.sb) (fun _ => 0) (fun _ _ => [])
         nearB (on ghalf) (lanesOf (runLanes (.st e.1 e.2) (on ghalf) ghalf)) (eaOf e.1 (on ghalf) ghalf e.2.sa e.2.sb) k = true
          ∧ ((lanesOf (runLanes (.st e.1 e.2) (on ghalf) ghalf)).all fun l =>
              (on ghalf).poisoned (k.dom (eaOf e.1 (on ghalf) ghalf e.2.sa e.2.sb l)) (Machine.sizeOf e.2.k.toNat) == false) = true)) := by
  decide +kernel

/-- What an atomic's statement asks of it. -/
def atomicB (i : Instr) (n : Nat) (a : Access) (ret : Bool) : Bool :=
  let s := onS sFull ghalf
  let ea := eaOfAtomic {} ghalf 8
  let ls := lanesOf (runLanes i s ghalf)
  let k := checkLanes (mkCtx i ghalf false) s a n ls ea (fun _ => 0) (if ret then plainSpan n ea else fun _ _ => [])
  plainB i s ghalf && decide (runLanes i s ghalf ≠ 0) && decide (PostsAtOnce {} s ghalf true) && decide (ReleasesAtOnce {} s ghalf)
    && nearB s ls ea k && goes i s
    && ls.all fun l => s.poisoned (k.dom (ea l)) n == false && popWord? (localPa (k.dom (ea l))) == none

theorem witness_PostedAtomics :
    (∀ i ∈ [Instr.atom {} ⟨0, 0, 16, 8, 0⟩, .atom {} ⟨7, 1, 16, 8, 0⟩, .atomXchg {} ⟨0, 16, 8, 0⟩, .atomCas {} ⟨0, 16, 8, 14⟩],
      atomicB i 4 .atomic false = true ∧ (postedAtomic i).isSome = true)
    ∧ atomicB (.atomAdd64 {} ⟨0, 16, 8, 0⟩) 8 .atomic false = true := by decide +kernel

theorem witness_ReturningAtomics :
    (∀ i ∈ [Instr.atomr {} ⟨0, 0, 16, 8, 4⟩, .atomr {} ⟨7, 1, 16, 8, 4⟩, .atomrXchg {} ⟨0, 16, 8, 4⟩, .atomrCas {} ⟨0, 16, 8, 14⟩],
      atomicB i 4 .atomicR true = true ∧ (returningAtomic i).isSome = true)
    ∧ ∀ i ∈ [Instr.atomrAdd64 {} ⟨0, 16, 8, 4⟩, .atomrXchg64 {} ⟨0, 16, 8, 4⟩, .atomrCas64 {} ⟨0, 16, 8, 14⟩],
      atomicB i 8 .atomicR true = true ∧ (returningAtomic i).isSome = true := by decide +kernel

/-- A front with 4 KiB of scratchpad at 0x100 of core 0; v20 an offset, v12 the lane's. -/
def frS : Front := { placedFront with scratch := 4096, scratchBase := [(0, 256)] }
def gs : Gust := regs [(20, u 64), (12, .l 0 16), (16, .l 7 1), (17, u 2)]
def sS : State := { on gs with fronts := [(0, frS)] }
/-- Another gust holds the lock of the word at the offset. -/
def sLocked : State := sS.setCore 0 { sS.core 0 with locks := [(lockOf (256 + 64), 5)] }

def spB (i : Instr) (p : Pfx) (sa sb : BitVec 7) (n : Nat) : Bool := plainB i sS gs && decide (SpReady i p sS gs sa sb n) && goes i sS

theorem witness_Scratchpad :
    (∀ f ∈ [(⟨4, 12, 20, 4⟩ : KForm), ⟨0, 127, 20, 4⟩, ⟨6, 12, 20, 24⟩], spB (.spld {} f) {} f.sa f.sb (Machine.sizeOf f.k.toNat) = true
      ∧ Room gs (runOf f.d (regsOf f.k.toNat)))
    ∧ (∀ f ∈ [(⟨4, 12, 20, 16⟩ : KForm), ⟨0, 127, 20, 16⟩, ⟨6, 12, 20, 16⟩], spB (.spst {} f) {} f.sa f.sb (Machine.sizeOf f.k.toNat) = true)
    ∧ spB (.stul {} ⟨12, 20, 16⟩) {} 20 12 4 = true ∧ spB (.ldlk {} ⟨12, 20, 4⟩) {} 20 12 4 = true
    ∧ (∀ l ∈ lanesOf (runLanes (.ldlk {} ⟨12, 20, 4⟩) sS gs), lockFree sS (spBaseOf sS gs + spOf {} sS gs 20 12 l))
    ∧ keysFrom 0 (sS.core 0).locks = true
    ∧ (plainB (.ldlk {} ⟨12, 20, 4⟩) sLocked gs = true ∧ ¬ lockFree sLocked (spBaseOf sLocked gs + spOf {} sLocked gs 20 12 0)
      ∧ (sLocked.core 0).locks.all (fun e => e.2 != 0) = true ∧ goes (.ldlk {} ⟨12, 20, 4⟩) sLocked = true)
    ∧ ∀ k ∈ [(0 : BitVec 3), 4], spB (.spa {} ⟨k, 12, 20, 16⟩) {} 20 12 4 = true := by decide +kernel

/-! ## Witnesses: fences, waits and capabilities -/

/-- A load of symbol 0 is outstanding; posted operation 1 of counter 0 has a line still out. -/
def gout : Gust := { gmem with syms := [{ state := 1, mask := 1 }, {}, {}, {}, {}, {}, {}, {}] }
def gline : Gust := { gmem with posted := [⟨1, some 0, 0, [(0, 0x410000, 1)]⟩] }

def fenceB (i : Instr) (g : Gust) : Bool := issuesB i (on g) g && decide (StaysApart (on g) g (nextPc i (on g) g)) && goes i (on g)

/-- A prefix that names a scope. -/
def atScope (n : BitVec 3) : Pfx := { m := some ⟨0, 0, n, 0, 0⟩ }

/-- A buffered line of peer 5 in the core's buffer; a request whose acknowledgement a fence waits for; a slot that waits in a
domain fence. -/
def sBuf : State := let s := on gmem; s.setCore 0 { s.core 0 with wcb := [{ peer := 5, addr := 5 * 2 ^ 44 + 0x1000, atomic := none }] }
def wantAck : Request :=
  { id := 7, peer := 5, part := 0, plane := 0, line := 9, core := 0, unit := true, posters := [] }
def gfence (ids : List Nat) : Gust := { gmem with a := { gmem.a with wait := some (.fence 4 ids), waitNext := 0x400004 } }

theorem witness_Fences :
    (∀ i ∈ [Instr.fenceAcq (atScope 1) ⟨0, 0, 0, 0⟩, .fenceRel (atScope 1) ⟨0, 0, 0, 0⟩, .fenceAr (atScope 3) ⟨0, 0, 0, 0⟩],
      fenceB i gmem = true ∧ gmem.loadsDone = true ∧ fenceB i gout = true ∧ gout.loadsDone = false)
    ∧ (∀ i ∈ [Instr.fenceRel (atScope 4) ⟨0, 0, 0, 0⟩, .fenceAr (atScope 4) ⟨0, 0, 0, 0⟩],
      fenceB i gmem = true ∧ gmem.posted = [] ∧ fenceB i gline = true ∧ gline.posted.any (fun q => q.lines != []) = true
      ∧ (s0.core 0).wcb = [])
    ∧ (fenceB (.fenceAcq (atScope 4) ⟨0, 0, 0, 0⟩) gmem = true ∧ fenceB (.fenceAcq (atScope 4) ⟨0, 0, 0, 0⟩) gout = true)
    ∧ ∀ i ∈ [Instr.fenceRel (atScope 4) ⟨0, 0, 0, 0⟩, .fenceAr (atScope 4) ⟨0, 0, 0, 0⟩],
      (issuesB i sBuf gmem = true ∧ (sBuf.core 0).wcb.length = 1 ∧ goes i sBuf = true)
      ∧ (fenceB i (gfence []) = true ∧ (gfence []).a.wait = some (.fence 4 []))
      ∧ issuesB i { on (gfence [7]) with hub := { s0.hub with requests := [wantAck] } } (gfence [7]) = true
      ∧ goes i { on (gfence [7]) with hub := { s0.hub with requests := [wantAck] } } = true := by decide +kernel

/-- v18 the length of a range. -/
def grange : Gust := { gmem with regs := (18, u 0x1000) :: gmem.regs, prefetch := [(0x410000, [1])] }

theorem witness_Synchronisation :
    (fenceB (.isync {} ⟨0, 0, 0, 0⟩) gmem = true ∧ plainB (.pref {} ⟨0, 0, 8, 0⟩) (on gmem) gmem = true ∧ goes (.pref {} ⟨0, 0, 8, 0⟩) (on gmem) = true)
    ∧ ∀ i ∈ [Instr.isyncRange {} ⟨0, 18, 8, 0⟩, .hflush {} ⟨0, 18, 8, 0⟩],
      plainB i (on grange) grange = true ∧ goes i (on grange) = true
      ∧ (let start := (pairLane64 grange 8 (lowestOf (runLanes i (on grange) grange))).toNat
         let len := (operand (on grange) grange 18 (lowestOf (runLanes i (on grange) grange))).toNat
         let x := (on grange).pagesOf 0 ((on grange).frontOf grange).part ((on grange).frontOf grange).asid (rangePages start len) {}
         len = 0x1000 ∧ x.2.absent = [] ∧ (rangePages start len).all (fun va => rangeFault x.2 va == none) = true) := by decide +kernel

/-- v14:v15 a timeline's target. -/
def gtl : Gust := regs [(14, u 3), (20, u 0x100), (21, u 64)]
/-- Its own queue of attention context 0 as an engine context. -/
def sTl (e : Eng) : State := { on gtl with engs := [(ownKey 0 0, e)] }
def engOf (t a : Nat) (f : Bool) : Eng := { front := 0, cls := 2, ctx := 0, timeline := t, accepted := a, faulted := f }

def tlB (s : State) (q : BitVec 8) : Bool :=
  plainB (.waittl {} ⟨q, 14, 4⟩) s gtl && decide (Room gtl [4]) && goes (.waittl {} ⟨q, 14, 4⟩) s
    && decide ((pairLane64 gtl 14 (lowestOf (active (.waittl {} ⟨q, 14, 4⟩) s gtl))).toNat = 3)

theorem witness_CountersAndTimelines :
    (issuesB (.waitsb {} ⟨0, 0, 0, 0⟩) (on gmem) gmem = true ∧ gmem.counter 0 ≤ 0 ∧ goes (.waitsb {} ⟨0, 0, 0, 0⟩) (on gmem) = true)
    ∧ (issuesB (.waitsb {} ⟨0, 0, 0, 0⟩) (on gline) gline = true ∧ 0 < gline.counter 0 ∧ goes (.waitsb {} ⟨0, 0, 0, 0⟩) (on gline) = true)
    ∧ (∀ e ∈ [engOf 3 3 false, engOf 1 2 false, engOf 1 3 true, engOf 1 3 false],
      tlB (sTl e) 64 = true ∧ (sTl e).engKey? 0 0 64 = some (ownKey 0 0) ∧ (sTl e).engAt 0 (ownKey 0 0) 64 = e)
    ∧ (tlB (on gtl) 0 = true ∧ (on gtl).engKey? 0 0 0 = none)
    ∧ readyB (.rsbq {} ⟨0, 21, 20, 4⟩) (on gtl) gtl 0 4 = true
    ∧ readyB (.awrd {} ⟨0, 0, 14, 4⟩) (on gtl) gtl 0 4 = true
    ∧ fenceB (.braw {} ⟨1, 0, 3⟩) gmem = true ∧ fenceB (.braw {} ⟨1, 255, 3⟩) gmem = true := by decide +kernel

/-- Capability words in v20 to v23 and request words in v24 to v27; v28 the mask of permissions. -/
def gcap (x y : List Nat) (tags : List Nat) : Gust :=
  { gmem with regs := ((List.range 4).map (fun j => (20 + j, u (x.getD j 0)))
      ++ (List.range 4).map (fun j => (24 + j, u (y.getD j 0))) ++ [(28, u 0x10)]), capTags := tags }
/-- A byte range of 4096 bytes, a record range of positions 8 to 40, a queue and a quad with a reserved bit. -/
def capB : List Nat := [0x30, 0x410000, 0, 64]
def capR : List Nat := [0x32, 0x00000400, 8, 40]
def capQ : List Nat := [0x33, 0, 0, 0]
def capX : List Nat := [0x1030, 0x410000, 0, 64]

def narB (x y : List Nat) (tags : List Nat) : Bool :=
  quadB (.capnar {} ⟨0, 28, 20, 24⟩) (on (gcap x y tags)) (gcap x y tags) 24

theorem witness_CapabilitiesOnlyNarrow :
    (narB capB [0x410000, 0, 0x41003F, 0] [] = true ∧ (gcap capB [] []).capTag 20 = false)
    ∧ (narB capX [0x410000, 0, 0x41003F, 0] [5] = true ∧ (gcap capX [] [5]).capTag 20 = true
      ∧ capMalformed (quadOf (gcap capX [] [5]) 20 0) = true)
    ∧ (∀ y ∈ [[0x40FFC0, 0, 0x41003F, 0], [0x410FC0, 0, 0x41103F, 0], [0x410080, 0, 0x41003F, 0], [0x410001, 0, 0x41003F, 0],
        [0x410000, 0, 0x410040, 0]], narB capB y [5] = true)
    ∧ (narB capB [0x410000, 0, 0x41003F, 0] [5] = true ∧ capMalformed (quadOf (gcap capB [] [5]) 20 0) = false
      ∧ capBase (quadOf (gcap capB [] [5]) 20 0) = 0x410000 ∧ capLen (quadOf (gcap capB [] [5]) 20 0) = 4096)
    ∧ (narB capR [8, 0, 39, 0] [5] = true ∧ capMalformed (quadOf (gcap capR [] [5]) 20 0) = false
      ∧ capKind (quadOf (gcap capR [] [5]) 20 0) = 2 ∧ capPosLo (quadOf (gcap capR [] [5]) 20 0) = 8
      ∧ capPosHi (quadOf (gcap capR [] [5]) 20 0) = 40)
    ∧ (narB capQ [] [5] = true ∧ capMalformed (quadOf (gcap capQ [] [5]) 20 0) = false
      ∧ capKind (quadOf (gcap capQ [] [5]) 20 0) = 3) := by decide +kernel

/-- A supervisor handler. -/
def gsup (x : List Nat) : Gust := { gcap x [] [] with handler := 2 }
def gquad : Gust := { gcap capB [] [5] with regs := [(8, u 0x410000)] ++ (gcap capB [] [5]).regs, a := gmem.a }
def capSt : State := onS sFull gquad

theorem witness_CapabilitiesAreMadeMovedAndChecked :
    (∀ e ∈ [(capB, []), (capB, [5]), (capR, [5])], readyB (.capchk {} ⟨0, 28, 20, 4⟩) (on (gcap e.1 [] e.2)) (gcap e.1 [] e.2) 0 4 = true
      ∧ readyB (.captag {} ⟨0, 0, 20, 4⟩) (on (gcap e.1 [] e.2)) (gcap e.1 [] e.2) 0 4 = true)
    ∧ (∀ x ∈ [capB, capX], quadB (.capmk {} ⟨0, 0, 20, 24⟩) (on (gsup x)) (gsup x) 24 = true)
    ∧ (∀ o ∈ [(0 : BitVec 2), 1], let i := Instr.capld {} ⟨o, 127, 8, 24⟩
       (plainB i capSt gquad && decide (runLanes i capSt gquad ≠ 0) && decide (AcquiresAtOnce {} capSt gquad) && decide (Room gquad (runOf 24 4))
         && goes i capSt) = true
       ∧ nearB capSt [lowestOf (runLanes i capSt gquad)] (eaOf {} capSt gquad 8 127)
          (checkLanes (mkCtx i gquad false) capSt .capLoad 16 [lowestOf (runLanes i capSt gquad)] (eaOf {} capSt gquad 8 127)
            (fun _ => 0) (plainSpan 16 (eaOf {} capSt gquad 8 127))) = true)
    ∧ ∀ o ∈ [(0 : BitVec 2), 1], let i := Instr.capst {} ⟨o, 127, 8, 20⟩
       let k := checkLanes (mkCtx i gquad false) capSt .capStore 16 [lowestOf (runLanes i capSt gquad)] (eaOf {} capSt gquad 8 127)
            (fun _ => 0) (fun _ _ => [])
       (plainB i capSt gquad && decide (runLanes i capSt gquad ≠ 0) && decide (PostsAtOnce {} capSt gquad true) && goes i capSt) = true
       ∧ nearB capSt [lowestOf (runLanes i capSt gquad)] (eaOf {} capSt gquad 8 127) k = true
       ∧ capSt.poisoned (k.dom 0x410000) 16 = false ∧ k.dom 0x410000 % 16 = 0
       ∧ ((List.range 16).all fun j => hubOnly (localPa (k.dom 0x410000 + j)) == false) = true := by decide +kernel

/-! ## Witnesses: pushes, attention, loop queues, sampling -/

/-- v40 up the words of a command; in sPush contexts of the front: matrix context 0 and the handler's on core 0, copy context
0; sFull8 a full queue. -/
def frP : Front := { frS with mxctx := 1, mxPhys := [(0, [0, 1])], cpctx := 1, cpPhys := [3] }
def gpush : Gust := gs
def sPush (es : List (Nat × Eng)) : State := { on gpush with fronts := [(0, frP)], engs := es }
def someCmd : Cmd := { num := 1, bytes := List.replicate 64 0, core := 0, supervisor := false }

def pushB (i : Instr) (es : List (Nat × Eng)) : Bool :=
  runsB i (sPush es) gpush && decide (Room gpush [4]) && gpush.loadsDone

theorem witness_Pushes :
    (∀ i ∈ [Instr.push {} ⟨0, 40, 4⟩, .pushCore {} ⟨32, 40, 4⟩, .pushDie {} ⟨0, 40, 4⟩, .pushPkg {} ⟨64, 40, 4⟩],
      pushB i [] = true ∧ (pushOf i).isSome = true)
    ∧ (pushB (.push {} ⟨5, 40, 4⟩) [] = true ∧ (sPush []).engKey? 0 0 5 = none)
    ∧ (pushB (.push {} ⟨15, 40, 4⟩) [] = true ∧ pushAllowed gpush.handler 15 = false)
    ∧ (∀ e ∈ [{ engOf 0 1 true with cls := 1 }, { engOf 0 1 false with cls := 1 },
        { engOf 0 1 false with cls := 1, queue := List.replicate 32 someCmd }],
      pushB (.push {} ⟨32, 40, 4⟩) [(cpKey 0 3, e)] = true ∧ (sPush [(cpKey 0 3, e)]).engKey? 0 0 32 = some (cpKey 0 3)
      ∧ (sPush [(cpKey 0 3, e)]).engAt 0 (cpKey 0 3) 32 = e
      ∧ plainB (.pushq {} ⟨32, 0, 4⟩) (sPush [(cpKey 0 3, e)]) gpush = true ∧ goes (.pushq {} ⟨32, 0, 4⟩) (sPush [(cpKey 0 3, e)]) = true
      ∧ pairB (.tlrd {} ⟨32, 0, 4⟩) (sPush [(cpKey 0 3, e)]) gpush 4 = true) := by decide +kernel

/-- The context descriptor at 0x41_1000: one layer of two heads of 64 channels, head 1 privileged, one block; its map
at 0x41_2000, its publication array at 0x41_3000; frames at 0x41_4000 up. w0 the entry of head 0, w1 and w2 the entry of head
1, pub the package word of block 0. -/
def sCtx (w0 w1 w2 pub : Nat) : State :=
  let s := ([(0x411000, 0x101000001), (0x411010, 2), (0x411018, 0x412000), (0x411020, 0x413000), (0x411028, 1),
    (0x412000, w0), (0x412010, w1), (0x412018, w2), (0x413020, pub)] : List (Nat × Nat)).foldl (fun t e => t.pokeWord e.1 e.2) s0
  { s with fronts := [(0, frS)], dies := listSet s.dies 0 { s.die 0 with leave :=
      [{ part := 0, eng := 1000000, num := 0, core := 0, cost := 1, granted := true }] } }
/-- Both heads resident, head 1 staged; and head 1 sealed. -/
def sLive (pub : Nat) : State := sCtx 0x414001 0x416001 0x41B000 pub
def sSealed : State := sCtx 0x414001 0x416005 0x41B000 0

/-- v20 to v23 the capability on positions 0 to 63, v30:v31 the control pair, v34:v35 a sequence of nodes at 0x41_E000, v43 to
v46 scratchpad addresses. -/
def gatt (even ctl : Nat) : Gust := regs [(20, u 0x041100F2), (23, u 63), (30, u even), (31, u ctl), (34, u 0x41E000), (36, u 1024),
  (42, u 64), (43, u 512), (44, u 64)]
def att (g : Gust) : Gust := { g with capTags := [5] }

/-- An attention form opens its context and holds k; the form goes on to a next state. -/
def opensB (i : Instr) (s : State) (g : Gust) (k : State → Cap → Desc → Bool) : Bool :=
  runsB i s g && match (mkCtx i g s.curB).openContext s 20 with
    | .ok (v, x, e) => k v x e
    | .error _ => false


theorem witness_PositionsReservedPublishedAcquired :
    (∀ n ∈ [3, 65, 200], opensB (.kvres (atScope 3) ⟨0, 30, 20, 4⟩) (onS (sLive 0) (att (gatt n 0))) (att (gatt n 0)) (fun u x e =>
        decide (Room (att (gatt n 0)) [4, 5]) && decide (capPerm x / 2 % 2 = 1) && decide (e.home = 0)
          && u.homeDom 0 0 e (e.va + 8) (e.dom + 8) true == some (0x411008, none)
          && decide (OwnLines u [(e.dom, 256), (0x411008, 8)]) && decide (Storable 0x411008 8)) = true
      ∧ goes (.kvres (atScope 3) ⟨0, 30, 20, 4⟩) (onS (sLive 0) (att (gatt n 0))) = true)
    ∧ (∀ k ∈ [(2 : BitVec 3), 3, 4],
        (let i := Instr.kvpub (atScope k) ⟨0, 30, 20, 0⟩
         let g := att (gatt 60 0x40000)
         opensB i (onS (sLive 0) g) g (fun u x e => decide (capPerm x / 4 % 2 = 1) && decide (ctlLayer (ctlOf i (onS (sLive 0) g) g 30) ≤ e.nlayer)
           && posIn x e 60 4 && decide (ctlCount (ctlOf i (onS (sLive 0) g) g 30) = 4) && decide (posOf i (onS (sLive 0) g) g 30 = 60)
           && match (mkCtx i g false).reach u (e.group 0 0) 64 true true with
             | .ok (v, d) => decide (Storable d 64) && g.loadsDone && decide (e.homeAt = v.self) && decide (OwnLines v [(e.dom, 256), (d, 64)])
             | .error _ => false) = true ∧ goes i (onS (sLive 0) g) = true))
    ∧ (∀ k ∈ [(2 : BitVec 3), 3, 4],
        (let i := Instr.kvacq (atScope k) ⟨0, 30, 20, 4⟩
         let g := att (gatt 0 0)
         opensB i (onS (sLive 0) g) g (fun u x e => decide (capPerm x / 8 % 2 = 1) && capBlock x e 0 && g.loadsDone && decide (Room g [4, 5])
           && match (mkCtx i g false).reach u (e.group 0 0) 64 true false with
             | .ok (v, d) => match v.homeDom 0 0 e (e.group 0 0) d false with
               | some (m, none) => decide (OwnLines v [(e.dom, 256), (m + 0x28, 8)]) && decide (OwnLines v [(e.dom, 256), (d + 0x20, 8)])
               | _ => false
             | .error _ => false) = true ∧ goes i (onS (sLive 0) g) = true)) := by decide +kernel

theorem witness_Append :
    (let i := Instr.kvapp {} ⟨0, 30, 20, 48⟩
     let g := att (gatt 9 0x20000)
     opensB i (onS (sLive 0) g) g (fun u x e => decide (2 * e.g ≤ 32 ∧ 0 + 2 ≤ e.nhead + 1) && posIn x e 9 1 && decide (capPerm x / 2 % 2 = 1)
       && decide ((mkCtx i g false).extent u 48 (2 * 2 * e.g) = none)
       && match (mkCtx i g false).blocks u e 0 [(0, 0), (1, 0)] true false with
         | .ok (v, rs) => decide (OwnLines v ((e.dom, 256) :: (List.zip (List.range 2) rs).flatMap fun t => t.2.spans e t.1 false))
         | .error _ => false) = true
     ∧ goes i (onS (sLive 0) g) = true) := by decide +kernel

def sealB (s : State) (none' all0 : Bool) : Bool :=
  let i := Instr.kvseal {} ⟨0, 30, 20, 4⟩
  let g := att (gatt 0 0)
  decide (Room g [4]) && opensB i (onS s g) g (fun u x e => decide (capPerm x / 2 % 2 = 1) && capBlock x e 0
    && match (mkCtx i g false).blocks u e 0 (e.privHeads.map fun h => (h, 0)) true true with
      | .ok (v, rs) => rs.all (fun r => r.sealFault == none) && (rs.isEmpty == none') && (rs.all (fun r => r.isSealed) == all0)
          && decide (rs.length ≤ 16)
          && match (mkCtx i g false).reach v (e.group 0 0) 64 true false with
            | .ok (w, d) => decide (OwnLines w ((e.dom, 256) :: (d, 64) :: (List.zip e.privHeads rs).flatMap fun t => t.2.spans e t.1 true))
            | .error _ => false
      | .error _ => false) && goes i (onS s g)

/-- The descriptor without a privileged head. -/
def sPlain : State := (sLive 0).pokeWord 0x411010 0

theorem witness_Seal : sealB sPlain true true = true ∧ sealB sSealed false true = true ∧ sealB (sLive 0) false false = true := by
  decide +kernel

theorem witness_SealNow : sealB (sLive (2 ^ 64 - 1)) false false = true := by decide +kernel

/-- Lanes 0 up read positions 60 up, of which those above 63 lie outside; and blocks 0 up. -/
def glanes (n : Nat) (h : Nat) : Gust := att { gatt 0 0 with regs := [(20, u 0x041100F2), (23, u 63), (30, .l (BitVec.ofNat 32 n) 1),
  (31, u (h * 256))] }

theorem witness_Gather : ∀ h ∈ [0, 1], ∀ i ∈ [Instr.kvg {} ⟨0, 30, 20, 4⟩, .kvrm {} ⟨0, 30, 20, 4⟩],
    opensB i (onS (sLive 0) (glanes 60 h)) (glanes 60 h) (fun u x e => decide (capPerm x % 2 = 1) && decide (h ≤ e.nhead)
      && posIn x e 63 1 && !(posIn x e 64 1) && decide (Room (glanes 60 h) [4, 5])
      && let rb := (mkCtx i (glanes 60 h) false).laneBlocks u e 0 h [0]
        rb.2 != [] && decide (OwnLines rb.1 ((e.dom, 256) :: rb.2.flatMap fun t => (t.2.entry, 16) :: t.2.spans e h false))) = true
    ∧ goes i (onS (sLive 0) (glanes 60 h)) = true := by decide +kernel

theorem witness_ScoresAndSums :
    (let i := Instr.kvqk {} ⟨0, 30, 20, 40⟩
     let g := att (gatt 0 0)
     opensB i (onS (sLive 0) g) g (fun u x e => decide (capPerm x % 2 = 1) && decide ((mkCtx i g false).extent u 40 (e.g + 3) = none)
       && decide ((mkCtx i g false).spOperand u 8 8 512 = none) && decide ((mkCtx i g false).spOperand u 4 256 64 = none)
       && decide (OwnLines u [(e.dom, 256)])
       && (List.range 8).all fun j => spByte u (spBaseOf u g + 512 + j) == 0) = true ∧ goes i (onS (sLive 0) g) = true)
    ∧ (let i := Instr.kvqk {} ⟨0, 30, 20, 40⟩
       let g := att (gatt 0 0x10000)
       let s := onS (sLive 0) g
       let t := s.setCore 0 { s.core 0 with scratch := [(256 + 512, 5)] }
       opensB i t g (fun u x e => decide (capPerm x % 2 = 1)
         && match (mkCtx i g false).readBlocks u e 0 0 ((mkCtx i g false).bitmaps u x e 512 0 1) with
           | .ok (_, rs) => rs != []
           | .error _ => false) = true ∧ goes i t = true)
    ∧ (let i := Instr.kvav {} ⟨0, 30, 20, 40⟩
       let g := att (gatt 0 0)
       opensB i (onS (sLive 0) g) g (fun u x e => decide (capPerm x % 2 = 1) && decide ((mkCtx i g false).extent u 40 (e.g + 2) = none)
         && decide ((mkCtx i g false).spOperand u 4 256 64 = none) && decide ((mkCtx i g false).spOperand u 8 8 512 = none)
         && decide (Room g (runOf 40 e.g))
         && match (mkCtx i g false).readBlocks u e 0 0 ((mkCtx i g false).bitmaps u x e 512 0 1) with | .ok _ => true | .error _ => false) = true
       ∧ goes i (onS (sLive 0) g) = true) := by decide +kernel

theorem witness_Promote :
    (let i := Instr.kvprom {} ⟨0, 30, 20, 34⟩
     let g := att (gatt 9 0x10000)
     opensB i (onS (sLive 0) g) g (fun u x e => decide ((mkCtx i g false).extent (onS (sLive 0) g) 34 3 = none)
       && decide (capPerm x / 2 % 2 = 1) && posIn x e 9 1
       && decide ((mkCtx i g false).spOperand u 1 1 1024 = none) && ((mkCtx i g false).spGet u 1024 1).all (fun b => b == 0)
       && match (mkCtx i g false).blocks u e 0 [(0, 0), (1, 0)] true false with
         | .ok (v, _) =>
           match (mkCtx i g false).nodes v e 0x41E000 0 [(0, 0, 0), (0, 0, 1)] with
           | .ok (w, _) => decide (OwnLines w ((e.dom, 256) :: w.nodeSpans e 0x41E000 0 [0]))
             && match (mkCtx i g false).leave w with | .ok _ => true | .error _ => false
           | .error _ => false
         | .error _ => false) = true
     ∧ goes i (onS (sLive 0) g) = true) := by decide +kernel

/-- v20 to v23 the capability of loop queue pair 1, v30 a scratchpad address. -/
def glq : Gust := att (regs [(20, u 0x10033), (30, u 128)])
def sLq (q : Nat) (x : LoopQueue) : State :=
  let s := { on glq with fronts := [(0, frS)] }
  { s with hub := { s.hub with lqOwn := [(1, 0)], lq := [(q, x)] } }
/-- An entry of 512 bytes whose sequence number is 1. -/
def entry1 : List Byte := 1 :: List.replicate 511 0

def lqB (i : Instr) (s : State) (perm : Nat) (yields : Bool) : Bool :=
  runsB i s glq && decide (Room glq [4]) && glq.loadsDone
    && (match (mkCtx i glq false).queueCap s 20 perm with | .ok q => q == 1 | .error _ => false)
    && (!yields || decide ((mkCtx i glq false).spOperand s 64 512 128 = none))

theorem witness_LoopQueues :
    (∀ x ∈ [({ stopped := true } : LoopQueue), { entries := List.replicate 32 entry1 }, { inFlight := [entry1] }],
      lqB (.lqsend {} ⟨0, 30, 20, 4⟩) (sLq 3 x) 0 true = true)
    ∧ (∀ x ∈ [({ stopped := true } : LoopQueue), {}, { entries := [entry1] }], lqB (.lqrecv {} ⟨0, 30, 20, 4⟩) (sLq 2 x) 1 true = true
      ∧ lqB (.lqpeek {} ⟨0, 0, 20, 4⟩) (sLq 2 x) 1 false = true)
    ∧ entry1.length = 512
    ∧ ∀ x ∈ [({ stopped := true, inFlight := [entry1] } : LoopQueue), { inFlight := [entry1] }, { inFlight := [entry1], e := 2 }],
      ((sLq 0 x).lq (sLq 0 x).input.which).inFlight = [entry1] ∧ goes .lqEntryArrival (sLq 0 x) = true := by decide +kernel

/-- v20 the heap list at 0x40, v30 the draw of 0.5, v4 the parameters at 0x80 (temperature 1), v31 the path at 0xC0. -/
def gsam : Gust := regs [(20, u 0x40), (30, u 0x3F000000), (4, u 0x80), (31, u 0xC0)]
def sSam (n : Nat) : State :=
  let s := { on gsam with fronts := [(0, frS)] }
  s.setCore 0 { s.core 0 with
    heaps := [{ pairs := [(0x3F800000, 7), (0, 9)] }]
    scratch := [(256 + 0x40, BitVec.ofNat 8 n), (256 + 0x50 + 4, 7), (256 + 0x58 + 4, 9), (256 + 0x82, 0x80), (256 + 0x83, 0x3F)] }
/-- A vocabulary task whose block at scratchpad offset 0 names heap unit 0 is unfinished. -/
def sBusy : State :=
  let e : Eng := { front := 0, cls := 0, ctx := 0, queue := [{ someCmd with bytes := listSet (List.replicate 64 0) 0x17 6 }] }
  let s := { on gsam with fronts := [(0, frS)], engs := [(1, e)] }
  s.setCore 0 { s.core 0 with scratch := [(257, 1)], tasks := [(1, 1)] }
/-- A base list of one token 5 counted twice at 0x40, a path of the tokens 5 and 6 at 0xC0. -/
def sPn (n : Nat) : State :=
  let s := { on gsam with fronts := [(0, frS)] }
  s.setCore 0 { s.core 0 with
    scratch := [(256 + 0x40, BitVec.ofNat 8 n), (256 + 0x41, BitVec.ofNat 8 (n / 256)), (256 + 0x48, 5), (256 + 0x4C, 2), (256 + 0xC0, 2),
      (256 + 0xC4, 5), (256 + 0xC8, 6)] }

theorem witness_HeapsAndDraws :
    (runsB (.heaprd {} ⟨0, 20, 0, 4⟩) (sSam 2) gsam = true ∧ (sSam 2).heapBusy 0 0 = false ∧ Room gsam [4]
      ∧ (mkCtx (.heaprd {} ⟨0, 20, 0, 4⟩) gsam false).spOperand (sSam 2) 16 32 0x40 = none)
    ∧ (runsB (.heaprd {} ⟨0, 20, 0, 4⟩) sBusy gsam = true ∧ sBusy.heapBusy 0 0 = true)
    ∧ ∀ n ∈ [0, 2], runsB (.sdraw {} ⟨0, 30, 20, 4⟩) (sSam n) gsam = true
      ∧ (mkCtx (.sdraw {} ⟨0, 30, 20, 4⟩) gsam false).spOperand (sSam n) 16 16 0x40 = none
      ∧ (mkCtx (.sdraw {} ⟨0, 30, 20, 4⟩) gsam false).spOperand (sSam n) 16 16 0x80 = none
      ∧ memNat ((sSam n).core 0).scratch (256 + 0x40) 4 = n
      ∧ drawRefused n 0x3F000000 (drawParams (memGetBytes ((sSam n).core 0).scratch (256 + 0x80) 16)).temp = decide (n = 0)
      ∧ (mkCtx (.sdraw {} ⟨0, 30, 20, 4⟩) gsam false).spOperand (sSam n) 16 (16 + 8 * n) 0x40 = none := by decide +kernel

theorem witness_Paths :
    (∀ n ∈ [1, 1025], runsB (.pncommit {} ⟨0, 31, 20, 4⟩) (sPn n) gsam = true
      ∧ (mkCtx (.pncommit {} ⟨0, 31, 20, 4⟩) gsam false).spOperand (sPn n) 8 8 0x40 = none
      ∧ (mkCtx (.pncommit {} ⟨0, 31, 20, 4⟩) gsam false).spOperand (sPn n) 4 4 0xC0 = none
      ∧ memNat ((sPn n).core 0).scratch (256 + 0x40) 4 = n ∧ Room gsam [4])
    ∧ baseList (fun o n => memGetBytes ((sPn 1).core 0).scratch (256 + o) n) 0x40 = some [(5, 2)]
    ∧ pathList (fun o n => memGetBytes ((sPn 1).core 0).scratch (256 + o) n) 0xC0 = some [5, 6]
    ∧ (mkCtx (.pncommit {} ⟨0, 31, 20, 4⟩) gsam false).spOperand (sPn 1) 8 24 0x40 = none
    ∧ (mkCtx (.pncommit {} ⟨0, 31, 20, 4⟩) gsam false).spOperand (sPn 1) 4 12 0xC0 = none := by decide +kernel

/-- v8:v9 the word, v12:v13 the target, v14:v15 the deadline. -/
def gdl (target : Nat) (limit : Nat) : Gust := regs [(8, u 0x410000), (12, u target), (14, u limit)]
def dlB (target limit : Nat) : Bool :=
  let i := Instr.dlwait {} ⟨0, 12, 8, 14⟩
  let g := gdl target limit
  runsB i (on g) g && decide (Room g [14, 15])
    && match dlwaitRead (mkCtx i g false) (on g) (pairLane64 g 8 (lowestOf (active i (on g) g))).toNat with
      | (t, .ok v) => v == 0 && t.hub.now == 0 && g.loadsDone && decide ((g.slot false).pages = none)
      | _ => false
/-- The program DLWAIT in slot 0, which waits. -/
def sWait (l : Nat) : State :=
  let s := { State.reset.withProgram ((encode (.dlwait {} ⟨0, 12, 8, 14⟩)).flatMap fun w => bytesOf 4 w.toNat) with agenda := [] }
  s.setGust 0 { gdl 5 l with a := { g0.a with wait := some (.dlwait 0x410000 5 l), waitNext := 0x400004 } }

theorem witness_Deadlines :
    dlB 0 9 = true ∧ dlB 5 0 = true ∧ dlB 5 9 = true
    ∧ (((sWait 0).gust? 0).map fun g => ((g.slot false).wait, (sWait 0).ready 0 g false)) = some (some (.dlwait 0x410000 5 0), true)
    ∧ ((sWait 0).fetchInstr 0 false).2 = .dlwait {} ⟨0, 12, 8, 14⟩ ∧ goes (.dlwaitDeadline 0 false) (sWait 0) = true := by decide +kernel

/-- v20 layer 2, v30 schedule 0, whose records are one for layer 2, the last, at 0x41_0000. -/
def gmark : Gust := regs [(20, u 2)]
def sMark (on' : Bool) : State :=
  let s := (on gmark).pokeWord 0x410000 0x102
  let s1 := s.setPart 0 { s.part 0 with pfBase := 0x410000 :: List.replicate 7 0 }
  if on' then s1 else { s1 with sec := { s1.sec with featSet := 0 } }
/-- The same without a schedule, and with the layer marked last. -/
def sMark0 : State := (sMark true).setPart 0 { (sMark true).part 0 with pfBase := List.replicate 8 0 }
def sMark2 : State := (sMark true).setPart 0 { (sMark true).part 0 with pfLast := 2 :: List.replicate 7 256 }

theorem witness_MarksAndLeaves :
    (∀ s ∈ [sMark true, sMark0, sMark2], plainB (.pfmark {} ⟨0, 30, 20, 0⟩) s gmark = true ∧ goes (.pfmark {} ⟨0, 30, 20, 0⟩) s = true)
    ∧ (Instr.pfmark {} ⟨0, 30, 20, 0⟩).wf = true ∧ (sMark false).gust? 0 = some gmark ∧ (acceptedSet (sMark false)).getLsbD 6 = false
    ∧ (match (sMark true).pfWalk 0 0 0x410000 65536 0 0 with | (_, .ok es) => es == [⟨2, true, 0, 0, 0, 0, true⟩] | _ => false) = true
    ∧ ((sMark true).part 0).pfLast.getD 0 256 ≠ 2 ∧ ((sMark true).part 0).pfLast.length = 8 ∧ 0 < (sMark true).parts.length
    ∧ readyB (.leaveq {} ⟨0, 0, 0, 4⟩) (on gmark) gmark 0 4 = true := by decide +kernel

/-! ## Witnesses: system instructions and traps -/

def passB (i : Instr) (s : State) (g : Gust) : Bool := issuesB i s g && decide (StaysApart s g (nextPc i s g)) && goes i s

/-- v20 a word, v22:v23 a pair; flags are set in lanes 0 and 1, NX is enabled in gflag. -/
def gsys : Gust := { regs [(20, u 64), (22, u 12), (23, u 0)] with fNX := 3, fNV := 1 }
def gflag : Gust := { gsys with ten := 1 }
def gin : Gust := { gsys with handler := 1 }
def gsuper : Gust := { gsys with handler := 2 }
def ghalt : Gust := { gsys with halted := true }

def sysB (i : Instr) (g : Gust) (ds : List Nat) (k : Bool) : Bool :=
  plainB i (on g) g && goes i (on g) && decide (Room g ds) && decide (active i (on g) g ≠ 0) && k

theorem witness_ReadSystemRegisters :
    (∀ o ∈ [(0x000 : BitVec 10), 0x001, 0x002, 0x003, 0x004, 0x005, 0x006, 0x007, 0x008, 0x009, 0x00C, 0x00D, 0x00E, 0x00F, 0x013, 0x014,
        0x015, 0x016, 0x017, 0x019], sysB (.mfs {} ⟨o, 0, 4⟩) gsys [4] (sysWord (on gsys) gsys o.toNat 0).isSome = true)
    ∧ (∀ o ∈ [(0x010 : BitVec 10), 0x011, 0x012, 0x018], sysB (.mfs {} ⟨o, 0, 4⟩) gsys [4, 5] (sysDWord gsys o.toNat 0).isSome = true)
    ∧ sysB (.mfs {} ⟨0x00A, 0, 4⟩) gsys [4, 5] (decide ((on gsys).hub.now.toNat < 2 ^ 63)) = true := by decide +kernel

theorem witness_WriteSystemRegisters :
    (∀ o ∈ [(0x005 : BitVec 10), 0x008, 0x009], sysB (.mts {} ⟨o, 20, 0⟩) gsuper [] true = true)
    ∧ (∀ o ∈ [(0x010 : BitVec 10), 0x011, 0x012, 0x013, 0x014, 0x015, 0x016, 0x017], sysB (.mts {} ⟨o, 22, 0⟩) gin [] true = true)
    ∧ (gsuper.gcnt ≤ 64 ∧ 64 ≤ gsuper.gbud ∧ 64 ≤ gsuper.alloc ∧ (on gsuper).committed 0 0 ≤ bankBytes) := by decide +kernel

theorem witness_SystemFunctions :
    (∀ i ∈ [Instr.nop {} ⟨0, 0⟩, .yield {} ⟨0, 0⟩, .flclr {} ⟨0, 0⟩, .tfence {} ⟨0, 0⟩], passB i (on gsys) gsys = true)
    ∧ gsys.ten = 0
    ∧ (plainB (.wbase {} ⟨20, 0⟩) (on gsys) gsys = true ∧ goes (.wbase {} ⟨20, 0⟩) (on gsys) = true
      ∧ (operand (on gsys) gsys 20 0).toNat = 64 ∧ 72 ≤ gsys.alloc)
    ∧ (plainB (.wbase {} ⟨22, 0⟩) (on gsys) gsys = true ∧ (operand (on gsys) gsys 22 0).toNat % 8 ≠ 0) := by decide +kernel

/-- A debugger has set HALTEN. -/
def sHalten : State := (on gsys).setPart 0 { (on gsys).part 0 with haltEn := true }
def gsmall : Gust := { gsys with alloc := 8 }

theorem witness_InstructionsThatTrap :
    (∀ i ∈ [Instr.trap {} ⟨5, 0⟩, .svc {} ⟨5, 0⟩, .bkpt {} ⟨5, 0⟩], passB i (on gsys) gsys = true)
    ∧ passB (.bkpt {} ⟨5, 0⟩) sHalten gsys = true
    ∧ (preFault (.iadd {} ⟨0, 20, 20, 9⟩) (on gsmall) gsmall false = some (0x02, 1) ∧ (Instr.iadd {} ⟨0, 20, 20, 9⟩).wf = true)
    ∧ (goes (.illz { i := some 0 }) (on gsys) = true ∧ goes (.ill { i := some 0 }) (on gsys) = true)
    ∧ (illegalCause (.illegalWord [0x08000000] 1) (on gsys) gsys = some 1)
    ∧ (decodeGroup [0xFC000000]).instr.wordCause ≠ none
    ∧ (issuesB (.tfence {} ⟨0, 0⟩) (on gflag) gflag = true ∧ gflag.handler = 0 ∧ goes (.tfence {} ⟨0, 0⟩) (on gflag) = true
      ∧ (inMask (gflag.slot false).mask 0 && inMask gflag.fNX 0 && gflag.ten.getLsbD 0) = true) := by decide +kernel

/-- Nothing holds the entry of a trap of the current slot. -/
def entersB (s : State) (g : Gust) (code : Nat) : Bool :=
  (g.slot s.curB).live && g.handler == 0 && g.pending == 0 && !g.halted && !s.cut && inActive s.cur
    && decide (vectorOf s g (kindOf code) ≠ 0)
/-- A gust released from its BKPT. -/
def gpassed : Gust := { gsys with bkptAt := some (false, groupPc (on gsys) gsys) }
/-- A gust whose budget holds no further register. -/
def gtight : Gust := { gsys with gbud := 0, a := { gsys.a with mask := 1 } }

theorem witness_TrapsThatEnterAtOnce :
    (∀ i ∈ [Instr.trap {} ⟨5, 0⟩, .svc {} ⟨5, 0⟩, .illz {}, .ill {}, .fetchFault 0x08 1 64],
      (match softTrap i with | some (code, _, _) => entersB (on gsys) gsys code && goes i (on gsys) | none => false) = true)
    ∧ (∀ i ∈ [Instr.trap {} ⟨5, 0⟩, .svc {} ⟨5, 0⟩], preFault i (on gsys) gsys false = none)
    ∧ issuesB (.bkpt {} ⟨5, 0⟩) sHalten gsys = true ∧ gsys.bkptAt = none ∧ gpassed.bkptAt = some (false, groupPc (on gpassed) gpassed)
    ∧ passB (.bkpt {} ⟨5, 0⟩) (on gpassed) gpassed = true := by decide +kernel

theorem witness_NoRoom :
    (∀ e ∈ [(Instr.iadd {} ⟨0, 20, 20, 4⟩, [4]), (.ldi {} ⟨0, 5, 0, 4⟩, [4]), (.add64 {} ⟨0, 22, 22, 4⟩, [4, 5])],
      issuesB e.1 (on gtight) gtight = true ∧ NoDrift e.1 (on gtight) gtight ∧ active e.1 (on gtight) gtight ≠ 0
        ∧ active e.1 (on gtight) gtight ≠ gtight.lmask ∧ NoRoom gtight e.2 ∧ goes e.1 (on gtight) = true) := by decide +kernel

theorem witness_IllegalWords :
    (issuesB (.illz {}) (on gsys) gsys = false ∧ goes (.illz {}) (on gsys) = true)
    ∧ (issuesB (.ill {}) (on gsys) gsys = false ∧ goes (.ill {}) (on gsys) = true) := by decide +kernel

/-- A divide by zero is reported for lane 3. -/
def aFault : TrapReq := { code := 0x05, cause := 1, xmask := 8 }
/-- A gust halted, one with a pending entry, one in its handler. -/
def gpend : Gust := { gsys with pending := 1, trapRet := some ⟨false, 0x400000, 8, 0, 1, none⟩, xmask := 8 }
/-- The front without a vector. -/
def sNoVec : State := { on gsys with fronts := [(0, { placedFront with uvec := 0 })] }

theorem witness_TrapEntry :
    (∀ g ∈ [gsys, ghalt], (on g).gust? 0 = some g ∧ (g.slot false).live = true ∧ g.handler = 0 ∧ g.pending = 0
      ∧ vectorOf (on g) g (kindOf aFault.code) ≠ 0 ∧ goes (.trapEntry 0 false aFault) (on g) = true)
    ∧ (∀ e ∈ [(on ghalt, ghalt, 0), ({ on gsys with cut := true }, gsys, 0), (s0.setGust 64 gsys, gsys, 64)],
      e.1.gust? e.2.2 = some e.2.1 ∧ (e.2.1.halted = true ∨ e.1.cut = true ∨ inActive e.2.2 = false)
        ∧ vectorOf e.1 e.2.1 1 ≠ 0)
    ∧ entersB (on gsys) gsys aFault.code = true
    ∧ ((on gpend).gust? 0 = some gpend ∧ gpend.pending ≠ 0 ∧ inActive 0 = true ∧ gpend.halted = false
      ∧ (gpend.slot false).wait = none ∧ goes (.pendingEntryComplete 0) (on gpend) = true)
    ∧ (∀ e ∈ [(on gin, gin), (on gpend, gpend), (sNoVec, gsys)], e.1.gust? 0 = some e.2 ∧ (e.1.front? 0).map Front.ended = some false
      ∧ (e.2.handler ≠ 0 ∨ e.2.pending ≠ 0 ∨ vectorOf e.1 e.2 1 = 0)) := by decide +kernel

/-- In a handler: the trapped slot goes back to xpc. -/
def gret (xpc : DWord) : Gust := { gsys with handler := 1, xpc := xpc, trapRet := some ⟨false, 0x400000, 8, 0, 1, none⟩ }

def retB (x : DWord) (a : BitVec 7) : Bool := issuesB (.tret {} ⟨a, 0⟩) (on (gret x)) (gret x) && goes (.tret {} ⟨a, 0⟩) (on (gret x))
/-- The group at 0x40_0000 is one word. -/
def oneWord : Bool := match (on (gret 0x400000)).fetchGroup 0 false 0x400000 3 [] false with | (_, .ok (ws, l)) => ws.length == 1 && !l | _ => false

theorem witness_Returns : (retB 0x400002 0 && retB 0x100000000000000 0 && retB 0x400000 0 && retB 0x400000 1 && oneWord) = true := by
  decide +kernel

/-- A reply that fills lanes 0 and 1 of v4; a completed posted operation, of a gust and of a retired one; a line 600 ns old. -/
def awaited : Reply := { writes := [⟨4, 3, [7, 8], false⟩], capQuad := none, done := 3, nv := 0, lines := [] }
def gwait : Gust := { gsys with a := { gsys.a with wait := some (.reply awaited), waitNext := 0x400004 } }
def gdone : Gust := { gsys with posted := [⟨3, some 0, 0, []⟩] }
def sOld : State :=
  let s := on gsys
  let c := s.core 0
  { s.setCore 0 { c with wcb := [⟨0, 0x8200, none, [(4, 9)], [], 0, 0, 0, 0, [(0, 1)]⟩] } with hub := { s.hub with now := 5000 } }

theorem witness_Replies :
    ((on gwait).gust? 0 = some gwait ∧ gwait.a.waitNext ≠ gwait.a.join ∧ (gwait.slot false).mask ≠ 0 ∧ goes (.loadReply 0 false) (on gwait) = true)
    ∧ ((on gdone).gust? 0 = some gdone ∧ goes (.postedCompletion 0 3) (on gdone) = true)
    ∧ (let s := { s0 with gusts := [], fronts := [(0, { placedFront with posted := gdone.posted })] }
       s.gust? 0 = none ∧ goes (.postedCompletion 0 3) s = true)
    ∧ (((sOld.core 0).wcb[0]?).isSome = true ∧ goes (.wcAgeDrain 0 0) sOld = true)
    ∧ (((on gwait).serveReply awaited).2.capQuad = none ∧ ((on gwait).serveReply awaited).2.nv = 0)
    ∧ (on gsys).gust? 0 = some gsys ∧ gsys.a.wait = none ∧ refuses (.loadReply 0 false) (on gsys) = true
    ∧ goes (.loadReply 0 false) { on gsys with input := { s0.input with stale := true }, hub := { s0.hub with lost := 1 } } = true := by decide +kernel
/-! ## Witnesses: commands, swaps and pages -/

/-- A command whose fields, as (offset, bytes, value), are set. -/
def cmdOf (fs : List (Nat × Nat × Nat)) : Cmd :=
  { someCmd with bytes := fs.foldl (fun bs f => (List.range f.2.1).foldl (fun t i => listSet t (f.1 + i)
      (BitVec.ofNat 8 (f.2.2 / 256 ^ i))) bs) (List.replicate 64 0) }
/-- The front with 16 KiB of scratchpad and accumulators, matrix context 0 and copy context 0. -/
def frE : Front := { frP with scratch := 16384, accum := 16384, accumBase := [(0, 0)] }
/-- An engine context of a class with a queue and started commands. -/
def engW (cls : Nat) (q : List Cmd) (st : List Started) : Eng :=
  { front := 0, cls := cls, ctx := 0, accepted := 1, queue := q, started := st }
def sEng (key : Nat) (e : Eng) : State := { on gs with fronts := [(0, frE)], engs := [(key, e)] }
/-- With leave requests of die 0. -/
def withLeave (s : State) (rs : List LeaveReq) : State := { s with dies := listSet s.dies 0 { s.die 0 with leave := rs } }
def jobOf (key : Nat) (e : Eng) (c : Cmd) : Job := { key := key, eng := e, fr := frE, cmd := c }

/-- The head of context key may start. -/
def headsB (s : State) (key : Nat) (e : Eng) (c : Cmd) : Bool :=
  decide (s.eng? key = some e) && decide (s.front? e.front = some frE) && decide (e.queue = [c]) && !e.faulted && e.started.isEmpty
    && decide (s.dies.length = 4)

theorem heads_of {s : State} {key : Nat} {e : Eng} {c : Cmd} (h : headsB s key e c = true) : Heads s key e frE c [] := by
  simp only [headsB, Bool.and_eq_true, decide_eq_true_eq, Bool.not_eq_true', List.isEmpty_iff] at h
  exact ⟨h.1.1.1.1.1, h.1.1.1.1.2, h.1.1.1.2, by simp, h.1.1.2, fun _ => h.1.2, fun _ => by simp [h.1.2]⟩

/-- FILL of n bytes of the data page, and a command of an unknown type. -/
def cFill (n : Nat) : Cmd := cmdOf [(0, 1, 0x14), (8, 8, 0x410000), (0x18, 4, n), (0x1C, 4, 0x04030201)]
def cBad : Cmd := cmdOf [(0, 1, 0x7F)]
def ask (g : Bool) : LeaveReq := { part := 0, eng := 5123, num := 1, core := 0, cost := 2, granted := g }

def startB (c : Cmd) (rs : List LeaveReq) (typed free : Bool) (lv : Option Bool) : Bool :=
  let e := engW 1 [c] []
  let s := withLeave (sEng 5123 e) rs
  let j := jobOf 5123 e c
  headsB s 5123 e c && (s.typeOk 1 j.type == typed) && ((s.leaveCost j == 0) == free) && (s.leaveOf j.die 5123 1 == lv)
    && (if lv = some false then refuses (.commandStart 5123) s else goes (.commandStart 5123) s)

/-- A timeline at 0 with its command 1 done. -/
def eDone : Eng := engW 1 [] [{ cmd := cFill 64, done := true }]

theorem witness_CommandsStart :
    (startB cBad [] false true none && startB (cFill 64) [] true true none && startB (cFill 0x20000) [] true false none
      && startB (cFill 0x20000) [ask false] true false (some false) && startB (cFill 0x20000) [ask true] true false (some true)) = true
    ∧ (eDone.run? 1).map (·.done) = some true ∧ (sEng 5123 eDone).eng? 5123 = some eDone
    ∧ goes (.commandComplete 5123 1) (sEng 5123 eDone) = true := by decide +kernel

/-- MXTASK on tiles of two planes at 0 and 384 of the scratchpad, EPI e, output or sampling block at 1024. -/
def cMx (type e : Nat) : Cmd := cmdOf [(0, 1, type), (0x0C, 4, 384), (0x14, 1, 0x22), (0x15, 1, 0x22), (0x16, 1, 0x10), (0x17, 1, 2 * e),
  (0x2C, 4, 0x3F800000), (0x30, 4, 0xFFFFFFFF), (0x34, 4, 1024), (0x38, 4, if e = 2 then 0x18012 else 128)]
/-- Task 1 of matrix context 0, and a second one in another context. -/
def sTask (c : Cmd) (rs : List LeaveReq) : State :=
  let s := withLeave (sEng 0 (engW 0 [c] [])) rs
  s.setCore 0 { s.core 0 with tasks := [(0, 1)] }
def askMx (g : Bool) (key : Nat) : LeaveReq := { part := 0, eng := key, num := 1, core := 0, cost := 1, granted := g }
/-- A task issued in context 1 writes accumulators from a on. -/
def sTwo (a : Nat) : State :=
  let s := withLeave (sEng 0 (engW 0 [cMx 1 0] [])) [askMx true 0]
  let c := { cMx 1 0 with bytes := listSet (cMx 1 0).bytes 0x11 (BitVec.ofNat 8 (a / 256)) }
  { s.setCore 0 { s.core 0 with tasks := [(1, 1), (0, 1)] } with engs := [(0, engW 0 [cMx 1 0] []), (1, engW 0 [] [{ cmd := c }])] }
/-- The vocabulary task whose sampling block asks for a mask; its timeline word lies at 0x41_0000. -/
def sHeld (word target : Nat) : State :=
  let s := (sTask (cMx 1 3) []).pokeWord 0x410000 word
  s.setCore 0 { s.core 0 with scratch := [(256 + 1025, 0x21), (256 + 1024 + 0x3A, 0x41), (256 + 1024 + 0x40, BitVec.ofNat 8 target)] }

def taskB (s : State) (held : Bool) (lv : Option Bool) : Bool :=
  match s.coreTasks 0 with
  | [(j, false)] => decide (s.headJob? j.key = some j) && s.typeOk 0 j.type && (s.maskHeld j == held)
      && (s.leaveOf j.die j.key j.cmd.num == lv) && (if held then refuses (.taskIssue 0) s else goes (.taskIssue 0) s)
  | _ => false
def twoB (s : State) (con : Bool) : Bool :=
  match s.coreTasks 0 with
  | [(i, true), (j, false)] => decide (s.headJob? j.key = some j) && s.typeOk 0 j.type && !(s.maskHeld j)
      && (s.leaveOf j.die j.key j.cmd.num == some true) && ((s.hazardOf i).conflicts (s.hazardOf j) == con)
      && (if con then refuses (.taskIssue 0) s else goes (.taskIssue 0) s)
  | _ => false
def heldB (s : State) (r : Bool) : Bool :=
  let e := engW 0 [cMx 1 3] []
  let j := jobOf 0 e (cMx 1 3)
  headsB s 0 e (cMx 1 3) && s.maskHeld j && decide ((s.sampling j).deadline ≤ s.hub.now.toNat)
    && (match s.maskReached j with | (_, .ok b) => b == r | _ => false)
    && (if r then goes (.maskHoldRelease 0 1) s else refuses (.maskHoldRelease 0 1) s) && goes (.maskDeadline 0 1) s

theorem witness_TasksAndMasks :
    (taskB (sTask (cMx 1 0) []) false none && taskB (sTask (cMx 1 0) [askMx true 0]) false (some true) && taskB (sHeld 0 0) true none
      && twoB (sTwo 0) true && twoB (sTwo 4096) false && heldB (sHeld 5 3) true && heldB (sHeld 2 3) false) = true := by decide +kernel

/-- Leave is asked of die 0, whose budget is b, of which n is spent; partition 0 has a share. -/
def sLeave (b n : Nat) : State :=
  let s := sEng 5123 (engW 1 [cFill 0x20000] [])
  { s with hub := { s.hub with leaveShare := 1 :: s.hub.leaveShare.drop 1 },
           dies := listSet s.dies 0 { s.die 0 with budget := b, spent := n, leave := [ask false] } }

theorem witness_LeaveGrants :
    (∀ e ∈ [(4, 0), (0, 0), (4, 3)], ((sLeave e.1 e.2).leaveWaiting 0).find? (fun x => x.part == 0) = some (ask false)
      ∧ (sLeave e.1 e.2).leaveShare 0 ≠ 0 ∧ (sLeave e.1 e.2).dies.length = 4)
    ∧ goes (.leaveGrant 0) (sLeave 4 0) = true ∧ goes (.leaveGrant 0) (sLeave 0 0) = true ∧ refuses (.leaveGrant 0) (sLeave 4 3) = true := by
  decide +kernel

/-- A started command whose effect is outstanding, of which the pieces l are left (R327). -/
def sLeft (key cls : Nat) (c : Cmd) (l : Option (Bool × List Nat)) : State := sEng key (engW cls [] [{ cmd := c, left := l }])
def sWork (key cls : Nat) (c : Cmd) : State := sLeft key cls c none
/-- It is at work and its engine's next turn is its context's; instruction i, if any, answers. -/
def workIn (s : State) (key cls : Nat) (c : Cmd) (i : Option Instr) (k : State → Job → Bool) : Bool :=
  match s.eng? key with
  | some e => (match e.run? 1 with
    | some st => (match s.job? key st.cmd with
      | some j => !st.done && (cls != 1 || s.copyTurn key) && k s j && (match i with | some x => goes x s | none => true) && st.cmd.num == c.num
      | none => false)
    | none => false)
  | none => false
def workB (key cls : Nat) (c : Cmd) (i : Instr) (k : State → Job → Bool) : Bool := workIn (sWork key cls c) key cls c (some i) k
/-- A place of an address field. -/
def placeB (s : State) (j : Job) (off : Nat) (a : Int) (n : Nat) (wr : Bool) : Bool :=
  match s.fieldPlace j off a n wr with
  | (_, .ok p) => (match p with
    | .mem d => decide (0 < n) && (!wr || (List.range n).all fun i => hubOnly (localPa (d + i)) == false && popWord? (localPa (d + i)) == none)
    | .scratch _ _ => true
    | .win _ => false)
  | _ => false

/-- Space 1 of an address field: the scratchpad. -/
def sp1 : Nat := 2 ^ 56

/-- CPY2D of two rows of 16 bytes within the scratchpad. -/
def cTwo : Cmd := cmdOf [(0, 1, 0x11), (8, 8, sp1), (16, 8, sp1 + 256), (0x18, 4, 16), (0x1C, 4, 2), (0x20, 8, 32), (0x28, 8, 16)]
def twoOk (j : Job) : Bool := decide (InOrder j [(0x30, 16)] [0x08, 0x10] []) && decide (InSpad j 8 0 16) && decide (InSpad j 8 32 16)
  && decide (InSpad j 16 256 16) && decide (InSpad j 16 272 16)

theorem witness_CopyAndFill :
    workB 5123 1 (cmdOf [(0, 1, 0x10), (8, 8, 0x410000), (16, 8, sp1 + 64), (0x18, 4, 32)]) (.cpy 5123 1) (fun s j =>
        decide (InOrder j [(0x1C, 36)] [0x08, 0x10] [(0x18, true)]) && placeB s j 8 0x410000 32 false && placeB s j 16 64 32 true) = true
    ∧ workIn (sLeft 5123 1 cTwo none) 5123 1 cTwo none (fun _ j => twoOk j) = true
    ∧ workIn (sLeft 5123 1 cTwo (some (false, [1]))) 5123 1 cTwo (some (.cpy2d 5123 1)) (fun s j =>
        twoOk j && placeB s j 8 32 16 false && placeB s j 16 272 16 true) = true
    ∧ workB 5123 1 (cFill 64) (.fill 5123 1) (fun s j =>
        decide (InOrder j [(0x10, 8), (0x20, 32)] [0x08] []) && placeB s j 8 0x410000 64 true) = true
    ∧ workB 5123 1 (cmdOf [(0, 1, 0x17), (8, 8, 0x410000), (0x18, 4, 64)]) (.hostfl 5123 1) (fun s j =>
        decide (InOrder j [(0x10, 8), (0x1C, 36)] [0x08] []) && placeB s j 8 0x410000 64 false) = true
    ∧ OnePiece 0x410000 32 ∧ OnePiece 64 32 ∧ OnePiece 272 16 := by decide +kernel

/-- Contexts 0 and 3 of an engine each have a command at work: it serves one of them next, and not the other. -/
theorem witness_CopyTurns :
    (let s := { sWork 5123 1 (cFill 64) with engs := [(5120, engW 1 [] [{ cmd := cFill 64 }]), (5123, engW 1 [] [{ cmd := cFill 64 }])] }
     (s.copyTurn 5120 != s.copyTurn 5123 && refuses (.fill 5120 1) s != refuses (.fill 5123 1) s)) = true := by decide +kernel

/-- GATHER and SCATTER of one 4-byte element: index at scratchpad 0, base address a, packed at 64, status at 80. -/
def cIx (type a : Nat) : Cmd := cmdOf [(0, 1, type), (8, 8, sp1), (16, 8, a), (24, 8, sp1 + 64), (32, 8, sp1 + 80), (0x28, 4, 1), (0x2C, 1, 2)]
def ixB (type a : Nat) (i : Instr) (good : Bool) : Bool :=
  workB 5123 1 (cIx type a) i fun s j => decide (firstFault j.indexChecks = none) && elemSize (j.f 0x2C 1) == 4
    && (match s.fieldRead j 8 (j.addr 8) 4 with
      | (s1, .ok ix) => natOfBytes ix == 0
          && (a % 2 ^ 56 % 4 != 0 || match s1.engPlace j (j.space 16) (j.addr 16) 4 (type == 0x13) with
            | (_, .ok _) => good
            | (_, .error _) => !good)
          && (match s1.fieldRead j 24 (j.addr 24) 4 with | (_, .ok _) => true | _ => false)
          && (match s1.fieldWrite j 24 (j.addr 24) [0, 0, 0, 0] with
            | (s2, none) => (match s2.fieldWrite j 32 (j.addr 32) [0] with | (_, none) => true | _ => false)
            | _ => false)
      | _ => false)

theorem witness_GatherAndScatter :
    (ixB 0x12 0x410000 (.gather 5123 1) true && ixB 0x12 0x410002 (.gather 5123 1) true && ixB 0x12 0x900000 (.gather 5123 1) false
      && ixB 0x13 0x410000 (.scatter 5123 1) true && ixB 0x13 0x900000 (.scatter 5123 1) false) = true := by decide +kernel

/-- XPOSE of 32 by 32 bytes at scratchpad 0 to a slot of two planes at 1024; RINGX of one triple at 0 onto 1024. -/
theorem witness_TilesAndTriples :
    (workB 5123 1 (cmdOf [(0, 1, 0x16), (8, 8, sp1), (16, 8, sp1 + 4096), (0x18, 4, 32), (0x1C, 4, 32), (0x20, 8, 128), (0x28, 1, 0), (0x29, 1, 2),
          (0x2A, 1, 1)]) (.xpose 5123 1) (fun _ j =>
        decide (InOrder j [(0x2B, 21)] [0x08, 0x10] [(0x18, true), (0x1C, true), (0x28, decide (j.f 0x28 1 < 3)), (0x29, true), (0x2A, true)])
          && decide (InSpad j 8 (0 + 31 * 128) 128) && decide (InSpad j 16 4096 384))
      && workB 5123 1 (cmdOf [(0, 1, 0x18), (8, 8, sp1), (16, 8, sp1 + 1024), (0x18, 4, 1), (0x1C, 4, 1)]) (.ringx 5123 1) (fun _ j =>
        decide (InOrder j [(0x20, 32)] [0x08, 0x10] [(0x18, true), (0x1C, true)]) && decide (InSpad j 8 0 264) && decide (InSpad j 16 1024 264)
          && !(State.engineWaits (sWork 5123 1 (cmdOf [(0, 1, 0x18), (8, 8, sp1), (16, 8, sp1 + 1024), (0x18, 4, 1), (0x1C, 4, 1)])) 5123 1))) = true
    ∧ (let c := cmdOf [(0, 1, 0x18), (8, 8, sp1), (16, 8, sp1 + 1024), (0x18, 4, 1), (0x1C, 4, 1)]
       workIn (sLeft 5123 1 c (some (false, []))) 5123 1 c (some (.ringx 5123 1)) (fun _ _ => true) = true)
    ∧ OnePiece 4096 384 ∧ OnePiece 1024 264 := by decide +kernel

/-- LQFWD of 512 bytes of the data page to pair 1, with the pair's owner and its queue. -/
def sFwd (own : Byte) (x : LoopQueue) : State :=
  let s := sWork 5123 1 (cmdOf [(0, 1, 0x19), (8, 8, 0x410000), (0x10, 1, 1)])
  { s with hub := { s.hub with lqOwn := [(1, own)], lq := [(3, x)] } }

theorem witness_Forwarding :
    (placeB (sFwd 0 {}) (jobOf 5123 (engW 1 [] []) (cmdOf [(0, 1, 0x19), (8, 8, 0x410000), (0x10, 1, 1)])) 8 0x410000 512 false
      && goes (.lqfwd 5123 1) (sFwd 7 {}) && goes (.lqfwd 5123 1) (sFwd 0 { stopped := true })
      && refuses (.lqfwd 5123 1) (sFwd 0 { entries := List.replicate 32 entry1 }) && goes (.lqfwd 5123 1) (sFwd 0 {})) = true := by
  decide +kernel

/-- MIGRATE to tier 1 and REQNT to three planes of n pages of the data page, with BUMP b. -/
def cMig (n b : Nat) : Cmd := cmdOf [(0, 1, 0x20), (8, 8, 0x410000), (16, 4, n), (0x14, 1, 1), (0x15, 1, b)]
def cReq (n b : Nat) : Cmd := cmdOf [(0, 1, 0x15), (8, 8, 0x410000), (16, 4, n), (0x14, 1, 1), (0x15, 1, 3), (0x16, 1, 1), (0x17, 1, b)]
/-- A swap in a phase, with pools of partition 0, on a page whose entry is a word 0 with its word 1. -/
def sSwap (key cls : Nat) (c : Cmd) (phase pages gen : Nat) (pool : List Nat) (w0 w1 : Nat) : State :=
  let s := ((sEng key (engW cls [] [{ cmd := c, phase := phase, pages := pages, gen := gen }])).pokeWord 0x18010 w0).pokeWord 0x18018 w1
  s.setPart 0 { s.part 0 with pools := [pool, [], [], pool, [], []] }
def swapB (s : State) (key type : Nat) (i : Instr) (ends : Bool) (k : Job → Started → PageAt → Bool) : Bool :=
  match s.eng? key with
  | some e => (match e.run? 1 with
    | some st => (match s.job? key st.cmd with
      | some j => (match s.walk 0 0 0x410000 with
        | .leaf x en _ => decide (SwapInOrder j type) && !st.done && j.type == type && (if ends then goes i s else refuses i s)
            && k j st { x := x, entry := en, w0 := memNat s.mem (s.own en) 8, w1 := memNat s.mem (s.own (en + 8)) 8 }
        | _ => false)
      | none => false)
    | none => false)
  | none => false
def rw : Nat := 0x410107
def ro : Nat := 0x410103
def tile : Nat := 0x1401
def mayB (s : State) (f : Option TileFmt) (wa : Bool) (p : PageAt) : Bool := decide (MaySwap s 0x410000 p f) && (p.x.w || p.x.a) == wa

theorem witness_SwapsBegin :
    (swapB (sSwap 10000 2 (cMig 0 0) 0 0 0 [] rw 0) 10000 0x20 (.migrate 10000 1) true (fun _ _ _ => true)
      && swapB (sSwap 10000 2 (cMig 0 1) 0 0 0 [] rw 0) 10000 0x20 (.migrate 10000 1) true (fun j _ _ => (s0.raiseGen? 0 0).isSome && j.f 0x15 1 == 1)
      && swapB (sSwap 10000 2 (cMig 1 0) 0 0 0 [] (rw + 512) 0) 10000 0x20 (.migrate 10000 1) true (fun _ _ p => p.x.mig != 0)
      && swapB (sSwap 10000 2 (cMig 1 0) 0 0 0 [] ro 0) 10000 0x20 (.migrate 10000 1) true
        (fun _ _ p => mayB (sSwap 10000 2 (cMig 1 0) 0 0 0 [] ro 0) none false p)
      && swapB (sSwap 10000 2 (cMig 1 0) 0 0 0 [] rw 0) 10000 0x20 (.migrate 10000 1) true
        (fun _ _ p => mayB (sSwap 10000 2 (cMig 1 0) 0 0 0 [] rw 0) none true p)
      && swapB (sSwap 5123 1 (cReq 1 0) 0 0 0 [] ro tile) 5123 0x15 (.reqnt 5123 1) true
        (fun _ _ p => mayB (sSwap 5123 1 (cReq 1 0) 0 0 0 [] ro tile) (some ⟨3, 1⟩) false p)) = true := by decide +kernel

theorem witness_SwapsGoOn :
    (swapB (sSwap 10000 2 (cMig 1 0) 1 0 1 [] rw 0) 10000 0x20 (.migrate 10000 1) false
        (fun _ st _ => genOlder ((sSwap 10000 2 (cMig 1 0) 1 0 1 [] rw 0).oldest 0 0) st.gen)
      && swapB (sSwap 10000 2 (cMig 1 0) 1 0 0 [] rw 0) 10000 0x20 (.migrate 10000 1) true
        (fun _ st _ => !(genOlder ((sSwap 10000 2 (cMig 1 0) 1 0 0 [] rw 0).oldest 0 0) st.gen))
      && swapB (sSwap 10000 2 (cMig 1 0) 2 1 0 [] rw 0) 10000 0x20 (.migrate 10000 1) true (fun _ _ _ => true)
      && swapB (sSwap 10000 2 (cMig 1 0) 3 0 0 [] rw 0) 10000 0x20 (.migrate 10000 1) false (fun _ _ p => !(p.restores 1))
      && swapB (sSwap 10000 2 (cMig 1 0) 2 0 0 [] rw 0) 10000 0x20 (.migrate 10000 1) true (fun _ _ p => !(p.restores 1) && decide (p.x.size < 3))) = true := by
  decide +kernel

/-- A page of the pool of tier 1, and one of tier 0, that take the old page's place. -/
def takeB (s : State) (key type pa : Nat) : Bool :=
  match s.walk 0 0 0x410000 with
  | .leaf x e _ => (match s.eng? key with
    | some g => (match g.run? 1 with
      | some st => (match s.job? key st.cmd with
        | some j => decide (SwapInOrder j type) && !st.done && st.pages == 0 && decide (j.f 0x10 4 = 1)
            && decide (ApartFrom pa (pageBytes x.size) e) && decide (Storable (s.own e) 16) && decide (x.size < 3)
            && !(s.poisoned (s.own x.pa) (pageBytes x.size)) && decide (s.parts.length = 16) && decide ((s.part 0).pools.length = 6)
            && (s.part 0).pools.getD (if type = 0x20 then 3 + x.size else x.size) [] == [pa]
        | none => false)
      | none => false)
    | none => false)
  | _ => false

theorem witness_SwapsTakePages :
    (takeB (sSwap 10000 2 (cMig 1 0) 2 0 0 [0x50000000000] rw 0) 10000 0x20 0x50000000000
      && takeB (sSwap 5123 1 (cReq 1 0) 2 0 0 [0x500000] ro tile) 5123 0x15 0x500000) = true := by decide +kernel

/-- A node of an instance, WAITING or DONE, that GRAPHPOST names. -/
def aNode (st : Nat) : Node :=
  { entry := 0x400000, gusts := 1, alloc := 8, gbud := 8, scratch := 0, accum := 0, dieClass := 0, preempt := false, prio := 0, mxctx := 0,
    cpctx := 0, lastLanes := 0, preds := [], ranges := [], cohorts := [], shapes := 0, user := 0, state := st }
def anInst (st : Nat) : Inst := { sched := 0, part := 0, asid := 0, order := 0, user := 0, nodes := [aNode st], slotEnd := 0 }
def sPost (st : Nat) : State := { sEng 10008 (engW 3 [] [{ cmd := cmdOf [(0, 1, 0x30)] }]) with insts := [(0, anInst st)] }
def postB (st : Nat) : Bool :=
  match (sPost st).job? 10008 (cmdOf [(0, 1, 0x30)]) with
  | some j => decide (InOrder j [(0x0A, 54)] [] [(0x08, decide (j.f 8 2 < (anInst st).nodes.length))]) && j.type == 0x30
      && decide (tabGet? (sPost st).insts j.fr.inst = some (anInst st)) && decide (j.f 8 2 = 0) && goes (.graphpost 10008 1) (sPost st)
  | none => false

/-- A shape record of one pixel of 32 channels at 0x41_0000, for MXCONV. -/
def sMx (c : Cmd) : State :=
  let s := { sEng 0 (engW 0 [] [{ cmd := c }]) with fronts := [(0, { frE with shapes := 0x410000 })] }
  (((s.pokeWord 0x410000 0x0101002000010001).pokeWord 0x410008 0x0000000001010101).pokeWord 0x410010 0x10001).setCore 0
    { s.core 0 with scratch := [(256 + 1025, 1), (256 + 1024 + 0x1C, 0xFF), (256 + 1024 + 0x1D, 0xFF), (256 + 1024 + 0x1E, 0xFF), (256 + 1024 + 0x1F, 0xFF)] }
def mxB (type e : Nat) : Bool :=
  let s := sMx (cMx type e)
  match s.job? 0 (cMx type e) with
  | some j => decide (firstFault (j.mxChecks s) = none) && j.type == type && (mxOf j.cmd.bytes).epi == e
      && (match s.shape j with
        | (v, .ok sh) => decide (firstFault (v.mxRanges j sh) = none)
            && (e != 3 || match v.maskBits j (s.sampling j) (j.cmd.mask.getD 0) with | (_, .ok _) => true | _ => false)
        | _ => false)
  | none => false

theorem witness_PostsAndMatrixTasks :
    (postB 0 && postB 3 && mxB 1 0 && mxB 1 1 && mxB 1 2 && mxB 1 3 && mxB 2 0 && mxB 2 1) = true := by decide +kernel

/-- GEN of space 0 is 1, OLDEST 0; listed pages of partition 0; with a translation in use. -/
def sGen (ls : List Listed) (busy : Bool) : State :=
  let s := (if busy then on { g0 with a := { g0.a with pages := some { found := [⟨0, 0, 0x400000, 0, 0, 0x410000, 0, true, true, false, true, 0, false,
    0, 0, 0, 0, false⟩] } } } else s0).pokeWord (asRec 0 0 + 8) 1
  s.setPart 0 { s.part 0 with listed := ls, pools := [[0x500000], [], [], [], [], []], prange := [(0x400000, 0x400000)] }
def aPage : Listed := { asid := 0, pa := 0x500000, size := 0, tier := 0, gen := 0 }
def sPush' (pa : Nat) : State := { sGen [] false with input := { quietInput with count := 0, data := bytesOf 8 pa } }

theorem witness_Pools :
    ((sGen [] false).gen 0 0 = 1 ∧ (sGen [] false).oldest 0 0 = 0 ∧ oldestOf 1 ((sGen [] false).heldGens 0 0) = 1
      ∧ (sGen [] false).parts.length = 16 ∧ goes (.oldestAdvance 0 0) (sGen [] false) = true)
    ∧ (oldestOf 1 ((sGen [] true).heldGens 0 0) = 0 ∧ refuses (.oldestAdvance 0 0) (sGen [] true) = true)
    ∧ (((sGen [aPage] false).part 0).listed = [aPage] ∧ genOlder aPage.gen ((sGen [aPage] false).gen 0 0) = true
      ∧ (((sGen [aPage] false).hubWrite ((sGen [aPage] false).own (asRec 0 0 + 12)) (bytesOf 4 1)).reclaim? 0 0x500000 0 0).isSome = true
      ∧ goes (.oldestAdvance 0 0) (sGen [aPage] false) = true)
    ∧ ((sGen [] false).part 0).pools.length = 6 ∧ ((sGen [] false).part 0).poolTold.length = 6 ∧ goes (.poolPop 0 0) (sGen [] false) = true ∧ goes (.poolPop 0 1) (sGen [] false) = true
    ∧ (∀ e ∈ [(0x600000, true), (0x600001, false), (0x800000, false)], (sPush' e.1).pushable 0 0 e.1 = e.2
      ∧ natOfBytes (sPush' e.1).input.data % 2 ^ 44 = e.1 ∧ goes .poolPush (sPush' e.1) = true) := by decide +kernel

/-- A prefetch record of n pages at an address; the data page read-only. -/
def aRec (va n done : Nat) (fin : Bool) (dl : Option Nat) : PfRec :=
  { part := 0, asid := 0, sched := 0, mark := 4, va := va, pages := n, tier := 1, deadline := dl, done := done, finished := fin }
def sPf (r : PfRec) : State :=
  let s := s0.pokeWord 0x18010 ro
  { s with hub := { s.hub with pfRecs := [(0, r)] } }

theorem witness_Prefetch :
    (∀ r ∈ [aRec 0x410000 1 1 false none, aRec 0x900000 1 0 false none, aRec 0x410000 1 0 false none, { aRec 0x410000 1 0 false none with tier := 0 },
        aRec 0x410000 1 1 true none], tabGet? (sPf r).hub.pfRecs 0 = some r ∧ goes (.prefetchRecord 0) (sPf r) = true)
    ∧ (sPf (aRec 0x900000 1 0 false none)).walk 0 0 0x900000 = .absent
    ∧ (match (sPf (aRec 0x410000 1 0 false none)).walk 0 0 0x410000 with
      | .leaf x e _ => x.mig == 0 && x.size == 0 && x.peer == s0.self && x.tier == 0 && !(x.w || x.a) && decide (Storable (s0.own e) 16)
          && decide (e + 16 ≤ 2 ^ 44)
      | _ => false) = true
    ∧ refuses (.prefetchDeadline 0) (sPf (aRec 0x410000 1 0 false (some 5))) = true
    ∧ goes (.prefetchDeadline 0) (sPf (aRec 0x410000 1 0 false (some 0))) = true ∧ 0 < ((sPf (aRec 0 1 0 false none)).part 0).pfMiss.length
    ∧ ((sPf (aRec 0 1 0 true none)).hub.pfRecs.filter fun e => e.2.mark == 4) = [(0, aRec 0 1 0 true none)] := by
  decide +kernel

/-! ## Witnesses: the schedule, fronts, the fabric -/

/-- A graph image of one node at 0x41_0000, whose kernel descriptor at 0x41_1000 has one gust at 0x40_0000; fmt its format. -/
def sImage (fmt : Nat) : State :=
  ([(0x410000, 0x100000000 + fmt), (0x410080, 0x411000), (0x411000, 0x0008000800000001), (0x411010, 0x400000), (0x411018, 1)] :
    List (Nat × Nat)).foldl (fun t e => t.pokeWord e.1 e.2) s0
def anEntry (next : DWord) (unf defer : Bool) : Sched :=
  { valid := true, defer := defer, graph := 0x410000, next := next, unfinished := unf }
def sSched (fmt : Nat) (x : Sched) : State := { sImage fmt with sched := [(2, x)] }
def imageOk (s : State) : Bool :=
  match s.checkImage 0 0 0x410000 with
  | .ok (_, [nd]) => nd.state == 0 && nd.preds.isEmpty
  | _ => false

theorem witness_Ticks :
    (s0.hub.now.toNat / 1000 + 1 = 1 ∧ s0.hub.slew = 0 ∧ s0.sched = [] ∧ goes .scheduleTick s0 = true)
    ∧ goes .scheduleTick (sSched 1 (anEntry 5 false false)) = true
    ∧ (imageOk (sSched 1 (anEntry 1 false false)) = true ∧ (sSched 1 (anEntry 1 false false)).insts = []
      ∧ goes .scheduleTick (sSched 1 (anEntry 1 false false)) = true)
    ∧ ((match (sSched 2 (anEntry 1 false false)).checkImage 0 0 0x410000 with | .error _ => true | _ => false) = true
      ∧ goes .scheduleTick (sSched 2 (anEntry 1 false false)) = true)
    ∧ goes .scheduleTick (sSched 1 (anEntry 1 true true)) = true ∧ goes .scheduleTick (sSched 1 (anEntry 1 true false)) = true := by
  decide +kernel

/-- A write of a word to entry 2, by function f, with the features accepted or not. -/
def sWrite (f off w : Nat) (lock : Bool) : State :=
  { s0 with input := { quietInput with off := 128 + off, fn := f, data := bytesOf 4 w }, sec := { s0.sec with featLock := lock } }

theorem witness_EntryWrites :
    ∀ s ∈ [sWrite 5 4 9 true, sWrite 1 4 9 true, sWrite 0 0 5 true, sWrite 0 0 5 false], s.input.off / 64 = 2 ∧ (s.entry 2).part.toNat = 0
      ∧ (s.entry 2).valid = false ∧ (s.entry 2).graph.toNat % 128 = 0 ∧ s.input.data.length = 4 ∧ goes .scheduleEntryWrite s = true := by
  decide +kernel

/-- One READY node of partition 0, which owns core 0; with a front whose second gust waits. -/
def sPool (fs : List (Nat × Front)) (gg : List (Nat × Gust)) : State :=
  { s0 with gusts := gg, fronts := fs, insts := [(0, anInst 1)], hub := { s0.hub with coreMap := [(0, 0)] } }
def frWait : Front := { placedFront with die := some 0, gusts := 2, placed := 1, scratchBase := [(0, 0)], accumBase := [(0, 0)], mxPhys := [(0, [0])] }

theorem witness_Fronts :
    ((sPool [] []).sweep.placeWaiting false).isNone = true ∧ ((sPool [] []).sweep.picks).length = 1
    ∧ ((sPool [] []).sweep.picks.all fun r => ((sPool [] []).sweep.create? r false).isSome) = true
    ∧ ((sPool [] []).sweep.front? (sPool [] []).nextFront).isNone = true ∧ goes .frontCreate (sPool [] []) = true
    ∧ ((sPool [(0, frWait)] [(0, g0)]).sweep.placeWaiting false).isSome = true ∧ refuses .frontCreate (sPool [(0, frWait)] [(0, g0)]) = true
    ∧ (sPool [(0, frWait)] [(0, g0)]).sweep.drainedGusts = []
    ∧ ((sPool [(0, frWait)] [(0, g0)]).sweep.placeNext 0 frWait false).isSome = true ∧ goes .gustPlace (sPool [(0, frWait)] [(0, g0)]) = true := by
  decide +kernel

/-- Instance 0 runs in slot 0 of core 0, instance 1 stands in the shadow bank; tick 5. -/
def sSlot (e : Nat) (swap : Bool) : State :=
  let s := { s0 with hub := { s0.hub with now := 5000 }, insts := [(0, { anInst 2 with slotEnd := e }), (1, anInst 2)]
                     fronts := [(0, { placedFront with preempt := true }), (1, { placedFront with preempt := true, inst := 1 })]
                     gusts := if swap then [(0, g0), (64, { g0 with front := 1 })] else [(0, g0)] }
  if swap then s.setCore 0 { s.core 0 with shadow := some { n := 0, inst := 1 } } else s

/-- A context in save area 1 of core 0, with or without one in its shadow bank, which is complete or not. -/
def sSave (out : Bool) (sh : Option Saved) : State :=
  let s := { s0 with gusts := if out then [(0, g0), (64, { g0 with front := 1 }), (320 * 128, g0)] else [(0, g0), (320 * 128, g0)] }
  s.setCore 0 { s.core 0 with saved := [{ n := 1, inst := 0 }], shadow := sh }
/-- A front whose gusts have retired, as the only node of its instance. -/
def sDone (gg : List (Nat × Gust)) : State := { s0 with gusts := gg, fronts := [(0, { placedFront with placed := 1 })], insts := [(0, anInst 2)] }

theorem witness_SlotsAndSpills :
    refuses (.slotEnd 0) (sSlot 9 false) = true ∧ goes (.slotEnd 0) (sSlot 5 false) = true
    ∧ ((sSlot 5 false).cores.map fun c => c.1).filter ((sSlot 5 false).swaps 0) = []
    ∧ ((sSlot 5 true).cores.map fun c => c.1).filter ((sSlot 5 true).swaps 0) = [0] ∧ keysFrom 0 (sSlot 5 true).gusts = true
    ∧ ((sSlot 5 true).gusts.all fun e => e.2.syms.all fun y => y.state != 2) = true ∧ goes (.slotEnd 0) (sSlot 5 true) = true
    ∧ keysFrom 0 (sSave true none).gusts = true ∧ ((sSave true none).savedGusts 0 1).isEmpty = false
    ∧ goes (.spillContext 0) (sSave false none) = true ∧ goes (.spillContext 0) (sSave true none) = true
    ∧ refuses (.spillContext 0) (sSave true (some { n := 0, inst := 1 })) = true
    ∧ ((sDone []).frontDone 0 { placedFront with placed := 1 } = true ∧ goes (.frontComplete 0) (sDone []) = true)
    ∧ ((sDone [(0, g0)]).frontDone 0 { placedFront with placed := 1 } = false ∧ refuses (.frontComplete 0) (sDone [(0, g0)]) = true) := by
  decide +kernel

theorem witness_SlotPremises :
    (sSched 1 (anEntry 1 false false)).hasPart 0 = true
    ∧ (∀ s ∈ [sSave false none, sSave true none], s.loadable 0 1 = true ∧ s.poison = [] ∧ (s.savedGusts 0 1).length = 1
      ∧ (s.gusts.all fun e => !(e.1 / 128 == 320) || decide (e.1 % 128 < 64)) = true)
    ∧ ((sSave true none).bankGusts 0 1 = [(64, { g0 with front := 1 })] ∧ g0.awaitsReply = false ∧ tabGet? (sSave true none).twins 64 = none) := by
  decide +kernel

/-- Peer 9 is in the domain; the input of an event. -/
def sPeer (x : Input) : State :=
  { s0 with hub := { s0.hub with coreMap := [(0, 0)], domMask := s0.hub.domMask ||| 0x200, now := 200000 }, input := x }
def withReqs (s : State) (rs : List Request) : State := { s with hub := { s.hub with requests := rs } }
/-- Request 7 to peer 9, held or not, with its posters, of which one is an operation of the gust. -/
def aReq (held : Bool) (ps : List (Nat × Nat × Word)) : Request :=
  { id := 7, peer := 9, part := 0, plane := 0, line := 0x8200, core := 0, unit := true, posters := ps, heldInHub := held }
def gpost : Gust := { g0 with posted := [⟨1, none, 0, [(9, 0x8200, 1)]⟩] }
def sReq (held flag post : Bool) (w : Nat) : State :=
  (withReqs (sPeer { quietInput with which := w, flag := flag }) [aReq held (if post then [(0, 1, 1)] else [])]).setGust 0 gpost

theorem witness_AllowanceAndAcks :
    (goes .allowanceRefill (sPeer quietInput) = true ∧ (sPeer quietInput).peers = [9] ∧ (sPeer quietInput).coresOf 0 = [0]
      ∧ ((List.range 16).all fun r => r == 0 || decide ((sPeer quietInput).coresOf r = [])) = true ∧ s0.peers = [])
    ∧ refuses .ackReceive (sReq true false false 7) = true
    ∧ (∀ f ∈ [true, false], ∀ p ∈ [true, false], (((sReq false f p 7).hub.requests.find? fun x => x.id == 7).isSome = true)
      ∧ goes .ackReceive (sReq false f p 7) = true)
    ∧ (gpost.posted.any fun x => x.id == 1) = true ∧ ((sPeer quietInput).front? 0).map Front.ended = some false := by decide +kernel

/-- A packet of peer 9 for partition 0. -/
def aPacket (inc : BitVec 16) (k : PacketKind) : Packet := { peer := 9, part := 0, inc := inc, plane := 1, kind := k }
def sPkt (p : Packet) : State := sPeer { quietInput with pkt := p }

theorem witness_Packets :
    (∀ p ∈ [aPacket 1 (.load 0x410000 8), aPacket 0 (.load 0x410000 8), aPacket 0 (.store 0x410000 [(0, 7)]), aPacket 0 (.atomic 0x410000 4 0 3 0),
        aPacket 0 (.kvres 0x410000 3 1 0 63)], PacketTaken (sPkt p) p ∧ goes .requestPacketReceive (sPkt p) = true)
    ∧ (PacketTaken (sPkt (aPacket 0 (.load 0xD0000000000 8))) (aPacket 0 (.load 0xD0000000000 8))
      ∧ (match exec .requestPacketReceive (sPkt (aPacket 0 (.load 0xD0000000000 8))) with | .fault (.noSuchAddress _) => true | _ => false) = true)
    ∧ (sPeer quietInput).hub.inc.getD 0 0 = 0 := by decide +kernel

/-- Peer 9's incarnations are known as xs. -/
def sInc (xs : Option (List (BitVec 16))) (rs : List Request) (gone : Bool) : State :=
  let s := withReqs (sPeer { quietInput with which := 9, incs := List.replicate 16 3 }) rs
  let t := { s with hub := { s.hub with peerInc := match xs with | some l => [(9, l)] | none => [] } }
  if gone then { t with gusts := [] } else t
def sLate (post : Bool) (now : DWord) : State := let s := sReq false false post 7; { s with hub := { s.hub with now := now } }

theorem witness_LostPeers :
    goes .incarnationNotice (sInc none [aReq true []] false) = true ∧ goes .incarnationNotice (sInc (some (List.replicate 16 3)) [] false) = true
    ∧ goes .incarnationNotice (sInc (some (List.replicate 16 2)) [aReq false []] true) = true
    ∧ goes .incarnationNotice (sInc none [aReq true []] true) = true
    ∧ refuses .requestTimeout (sLate false 50) = true ∧ goes .requestTimeout (sLate false 200000) = true
    ∧ goes .requestTimeout (sLate true 200000) = true := by decide +kernel

/-- A remap after the failure of plane 3 waits for pairs of peer and plane; the time. -/
def aRemap (w : List (Nat × Nat)) : Remap := { failed := [3], next := 0xFAC688, began := 0, asked := 0, waiting := w, counts := [] }
def sRemap (now : DWord) (w : List (Nat × Nat)) (x : Input) : State :=
  let s := sPeer x
  { s with hub := { s.hub with remapping := some (aRemap w), now := now } }
/-- Request 7 stands to be sent again, or has been received. -/
def sResend (count : Nat) : State :=
  let s := sRemap 200000 [(9, 3)] { quietInput with which := 9, count := count }
  { s with hub := { s.hub with requests := [{ aReq false [] with plane := 3, seq := 4 }] } }

theorem witness_Remap :
    (goes .planeFail (sPeer { quietInput with which := 3 }) = true ∧ (sPeer quietInput).hub.planeStat.getLsbD 3 = true
      ∧ goes .planeFail (sRemap 5 [(9, 3)] { quietInput with which := 4 }) = true)
    ∧ goes .planeFail { s0 with input := { quietInput with which := 3 } } = true
    ∧ goes .quiesceNotice (sPeer { quietInput with which := 9, flag := true, count := 2 }) = true
    ∧ goes .quiesceNotice (sPeer { quietInput with which := 9, data := [0x88, 0xC6, 0xFA] }) = true
    ∧ (∀ k ∈ [2, 3], goes .quiesceNotice (sRemap 5 [(9, 3)] { quietInput with which := 9, flag := true, count := k }) = true)
    ∧ refuses .receivedCountReport (sRemap 5 [(9, 3)] { quietInput with which := 8 }) = true
    ∧ refuses .remapAnswerTimeout (sRemap 2000000 [(9, 3)] { quietInput with which := 8 }) = true
    ∧ refuses .remapAnswerTimeout (sRemap 999999 [(9, 3)] { quietInput with which := 9 }) = true
    ∧ (∀ w ∈ [[(9, 3)], [(9, 3), (11, 3)]], goes .receivedCountReport (sRemap 1000000 w { quietInput with which := 9 }) = true
      ∧ goes .remapAnswerTimeout (sRemap 1000000 w { quietInput with which := 9 }) = true)
    ∧ (∀ n ∈ [5, 4], goes .receivedCountReport (sResend n) = true)
    ∧ remapUp 0xFAC688 (sPeer quietInput).hub.planeStat = true ∧ goes .remapWrite (sPeer { quietInput with data := [0x88, 0xC6, 0xFA] }) = true
    ∧ goes .remapWrite (sRemap 5 [(9, 3)] { quietInput with data := [0x88, 0xC6, 0xFA] }) = true
    ∧ (remapUp 0 0xFE = false ∧ goes .remapWrite { s0 with hub := { s0.hub with planeStat := 0xFE }, input := { quietInput with data := [0, 0, 0] } } = true) ∧ refuses .requestTimeout (sRemap 200000 [(9, 3)] quietInput) = true
    ∧ goes .dommaskWrite s0 = true ∧ goes .dropincRead s0 = true ∧ goes .lqownWrite (sPeer { quietInput with off := 5, data := [0] }) = true := by
  decide +kernel

/-- The answer of an operation that the requester has given up; a load of peer 9's line that waits in the hub, or is out. -/
def sLoad (held : Bool) (now : DWord) (x : Input) : State :=
  let r : Reply := { writes := [], capQuad := none, done := 1, nv := 0, lines := [(9, 0x8200)], held := held }
  let s := (sPeer x).setGust 0 { g0 with a := { g0.a with wait := some (.reply r) } }
  { s with hub := { s.hub with now := now } }

theorem witness_Answers :
    goes .ackReceive { sPeer { quietInput with stale := true } with hub := { s0.hub with lost := 1 } } = true
    ∧ refuses .ackReceive (sPeer { quietInput with stale := true }) = true
    ∧ ((sLoad true 0 { quietInput with which := 9, incs := List.replicate 16 3 }).gusts.length = 1
      ∧ goes .incarnationNotice (sLoad true 0 { quietInput with which := 9, incs := List.replicate 16 3 }) = true)
    ∧ refuses .requestTimeout (sLoad false 99999 { quietInput with flag := true }) = true
    ∧ goes .requestTimeout (sLoad false 100000 { quietInput with flag := true }) = true := by decide +kernel
/-! ## Witnesses: resets, errors, the host, debug, security, steps -/

def sIn (x : Input) : State := { s0 with input := x }
def withTrip (n : Nat) (s : State) : State := { s with hub := { s.hub with trip := n } }
def sDog (wdog left : Word) : State := s0.setPart 0 { s0.part 0 with wdog := wdog, wdLeft := left }

theorem witness_PartitionResets :
    s0.parts.length = 16 ∧ s0.hub.inc.length = 16 ∧ NothingStarted s0 ∧ s0.input.which = 0 ∧ goes .preset s0 = true ∧ goes .vfFlr s0 = true
    ∧ ((sDog 5 0).part 0).wdog ≠ 0 ∧ goes .watchdogExpire (sDog 5 0) = true ∧ refuses .watchdogExpire (sDog 5 2) = true
    ∧ refuses .watchdogExpire (sDog 0 0) = true := by decide +kernel

theorem witness_Trips :
    goes .thermalTrip (sIn { quietInput with temps := [110] }) = true ∧ refuses .thermalTrip s0 = true ∧ goes .supplyFaultTrip s0 = true
    ∧ refuses .thermalTrip (withTrip 8 (sIn { quietInput with temps := [110] })) = true ∧ refuses .supplyFaultTrip (withTrip 8 s0) = true
    ∧ goes .thermalTripRecovery (withTrip 8 s0) = true ∧ refuses .thermalTripRecovery s0 = true
    ∧ goes .supplyRailRecovery (withTrip 13 s0) = true ∧ refuses .supplyRailRecovery s0 = true := by decide +kernel

theorem witness_Errors :
    (regionOf 0x410000 = .hbm ∧ regionOf 0x40000410000 = .hbf)
    ∧ (∀ f ∈ [true, false], goes .hbmEccError (sIn { quietInput with off := 0x410000, flag := f }) = true
      ∧ goes .hbfReadError (sIn { quietInput with off := 0x40000410000, flag := f }) = true
      ∧ goes .dieLinkError (sIn { quietInput with flag := f }) = true ∧ goes .pcieLinkError (sIn { quietInput with flag := f }) = true)
    ∧ goes .coreSramError (sIn { quietInput with which := 5 }) = true
    ∧ (∀ x ∈ [(2000000 : Int), 50, -3000000], goes .ptpSync (sIn { quietInput with offset := x }) = true)
    ∧ (s0.sched.any fun e => e.2.valid) = false ∧ s0.hub.ptpStat.getLsbD 1 = false ∧ refuses .ptpHoldover s0 = true
    ∧ goes .ptpHoldover { s0 with hub := { s0.hub with now := 4000000000 } } = true
    ∧ refuses .ptpHoldover { s0 with hub := { s0.hub with ptpStat := 2 } } = true
    ∧ s0.dies.length = 4 ∧ (∀ p ∈ [3000000, 3900000], goes .governorInterval (sIn { quietInput with count := p, temps := [97, 50, 50, 50] }) = true) := by
  decide +kernel

/-- The host has enabled 16 virtual functions (R348). -/
def sVf (x : Input) : State := { sIn x with hub := { s0.hub with config := { s0.hub.config with vfs := 16 } } }

/-- Partition 0 may use 0x40_0000 up to 0x80_0000 and the start of HBF, through its aperture at its base. -/
def sBar (base : BitVec 44) (x : Input) : State :=
  { (sVf x).setPart 0 { s0.part 0 with apBase := base, prange := [(0x400000, 0x400000), (0x40000000000, 0x10000), (0, 0), (0, 0)] } with input := x }

theorem witness_HostAccesses :
    (((sBar 0x400000 quietInput).part 0).inRange 0x410000 8 = true ∧ ((sBar 0x400000 quietInput).part 0).inRange 0x900000 8 = false
      ∧ ((sBar 0x400000 quietInput).part 0).inRange 0x40000000000 4 = true ∧ deviceMemory 0x410000 8 = true ∧ deviceMemory 0x40000000000 4 = true
      ∧ s0.inReset = false ∧ ((List.range 16).all fun q => (s0.part q).listed.isEmpty) = true)
    ∧ goes .bar4Access (sBar 0x400000 { quietInput with fn := 1, off := 0x10000, count := 8 }) = true
    ∧ goes .bar4Access (sBar 0x400000 { quietInput with fn := 1, off := 0x10000, wr := true, data := [1, 2, 3] }) = true
    ∧ goes .bar4Access (sBar 0x40000000000 { quietInput with fn := 1, off := 0, wr := true, data := [1, 2, 3, 4] }) = true
    ∧ goes .bar4Access (sBar 0x400000 { quietInput with fn := 1, off := 0x500000, count := 8 }) = true
    ∧ goes .hostWindowAccess (sIn { quietInput with count := 4 }) = true
    ∧ (hubOnly (winBase + 0x104000) = true ∧ goes .hostWindowAccess (sIn { quietInput with off := 0x104000, wr := true, data := [1] }) = true)
    ∧ (hubOnly (winBase + 0x100000) = false ∧ goes .hostWindowAccess (sIn { quietInput with off := 0x100000, wr := true, data := [1] }) = true)
    ∧ refuses .hostWindowAccess (sVf { quietInput with fn := 1, off := 0x80000, count := 4 }) = true
    ∧ ((sBar 0 { quietInput with fn := 1 }).answers 1 = true ∧ (sIn { quietInput with fn := 1 }).answers 1 = false)
    ∧ ((sBar 0 quietInput).inAperture 1 0x10000 8 = true ∧ refuses .bar4Access (sBar 0 { quietInput with fn := 1, off := 2 ^ 30, count := 8 }) = true) := by decide +kernel

theorem witness_RegisterWrites :
    (goes .registerWrite (sIn { quietInput with wr := true, off := 0x20, data := List.replicate 16 1 }) = true ∧ s0.hub.share.length = 16)
    ∧ goes .registerWrite (sIn { quietInput with wr := true, off := 0x68, data := List.replicate 8 1 }) = true
    ∧ goes .registerWrite (sIn { quietInput with off := 0x68, count := 8 }) = true
    ∧ (∀ e ∈ [(0x008, 10), (0x008, 100), (0x110, 1), (0x100, 1)],
      goes .registerWrite (sVf { quietInput with fn := 1, wr := true, off := e.1, data := bytesOf 4 e.2 }) = true) := by decide +kernel

/-- The debug block with a target: front 0 of partition 0, gust 0, in state st with command c; w the window address. -/
def sDbg (st : BitVec 2) (c : Nat) (w : BitVec 44) (g : Gust) : State :=
  { (on g) with dbg := { s0.dbg with en := true, st := st, cmd := c, wAddr := w }
                hub := { s0.hub with coreMap := [(0, 0)] }, fronts := [(0, placedFront)] }
/-- No such front; a halted gust; one with an operation posted. -/
def sLost : State := { sDbg 0 0 0 g0 with fronts := [] }
def gHalt : Gust := { g0 with halted := true }
def gHaltOut : Gust := { gHalt with posted := [⟨1, none, 0, []⟩] }

theorem witness_DebugRegisters :
    goes .dbgacc s0 = true ∧ goes .dbgacc (sDbg 0 0 0 g0) = true
    ∧ goes .dbgacc { sDbg 0 0 0 g0 with input := { quietInput with wr := true, off := 12, data := bytesOf 4 7 } } = true
    ∧ goes .dbgacc { sDbg 0 0 0 g0 with input := { quietInput with wr := true, off := 1, data := bytesOf 4 0 } } = true
    ∧ goes .dbgenWrite (sIn { quietInput with data := [0] }) = true ∧ goes .dbgenWrite { sDbg 0 0 0 g0 with input := { quietInput with data := [1] } } = true
    ∧ (∀ o ∈ [0x008, 0x00C, 0x010], goes .dbgTargetWrite (sIn { quietInput with off := o, data := [1] }) = true)
    ∧ refuses .dbgTargetWrite (sIn { quietInput with off := 0x014, data := [1] }) = true
    ∧ goes .dbgstatWrite (sIn { quietInput with data := [0, 1] }) = true := by decide +kernel

theorem witness_DebugCommands :
    (∀ i ∈ [Instr.haltFront, .resumeFront, .stepGust, .readWindowWord, .writeWindowWord, .resetPartition, .drainFront],
      goes i (sDbg 1 3 0 g0) = true ∧ goes i (sDbg 0 0 0 g0) = true)
    ∧ (sLost.dbgFront = none ∧ ∀ i ∈ [Instr.haltFront, .resumeFront, .stepGust, .drainFront], goes i sLost = true)
    ∧ (sDbg 0 0 0 g0).dbgFront = some 0 ∧ (sDbg 0 0 0 g0).allHalted 0 = false
    ∧ ((sDbg 0 0 0 gHalt).allHalted 0 = true ∧ (sDbg 0 0 0 gHalt).drainable 0 = true ∧ goes .drainFront (sDbg 0 0 0 gHalt) = true)
    ∧ ((sDbg 0 0 0 gHaltOut).allHalted 0 = true ∧ (sDbg 0 0 0 gHaltOut).drainable 0 = false ∧ goes .drainFront (sDbg 0 0 0 gHaltOut) = true)
    ∧ refuses .drainFront (sDbg 1 8 0 gHaltOut) = true
    ∧ ((sDbg 0 0 0 gHalt).canStep 0 gHalt = true ∧ goes .stepGust (sDbg 0 0 0 gHalt) = true ∧ (sDbg 0 0 0 g0).canStep 0 g0 = false)
    ∧ ([0xD0000000001, 0xD0000C00040, 0xD0000000084].all fun a => goes .readWindowWord (sDbg 0 0 (BitVec.ofNat 44 a) g0)
      && goes .writeWindowWord (sDbg 0 0 (BitVec.ofNat 44 a) gHalt)) = true
    ∧ DebugNames (sDbg 0 0 0xD0000C00040 g0) 0 (0xC00000 + 0x40) ∧ DebugNames (sDbg 0 0 0xD0000000084 g0) 0 (0 * 0x10000 + 1 * 128 + 1 * 4)
    ∧ 1 < gHalt.alloc ∧ (tabGetD gHalt.regs 1 (.u 0)).isD = false := by decide +kernel

/-- RFC 8032 section 7.4, the blank message: secret and public key, signature. -/
def rfcKey : List Byte := (bytesOf 57 0x6c82a562cb808d10d632be89c8513ebf6c929f34ddfa8c9f63c9960ef6e348a3528c8a3fcc2f044e39a3fc5b94492f8f032e7549a20098f95b).reverse
def rfcPub : List Byte := (bytesOf 57 0x5fd7449b59b461fd2ce787ec616ad46a1da1342485a70e1f8a0ea75d80e96778edf124769b46c7061bd6783df1e50f6cd1fa1abeafe8256180).reverse
def rfcSig : List Byte := (bytesOf 114 0x533a37f6bbe457251f023c0d88f976ae2dfb504a843e34d2074fd823d41a591f2b233f034f628281f2fd7a22ddd47d7828c59bd0a21bfd3980ff0d2028d4b18a9df63e006c5d1c2d345b925d8dc00b4104852db99ac5c7cdda8530a113a0f4dbb61149f05a7363268c71d95808ff2e652600).reverse

theorem test_ed448_signs_and_verifies :
    (ed448Sign rfcKey [] [] == rfcSig && ed448Verify rfcPub [] [] rfcSig && !(ed448Verify rfcPub [] [1] rfcSig)) = true := by decide +kernel

/-- An installation that has been started on an object that is none; an attestation towards 0x41_0000 or the on-chip window. -/
def sInst (st : BitVec 3) : State := { s0 with sec := { s0.sec with instStat := st, instPa := 0x410000, instLen := 256 } }
def sAtt (st : BitVec 3) (pa : BitVec 44) : State := { s0 with sec := { s0.sec with attStat := BitVec.ofNat _ st.toNat, attPa := pa } }

/-- A linked object without sections that needs features f, signed with the key of RFC 8032 (R255, R260). -/
def anObject (f : Nat) : List Byte :=
  let head := [0x45, 0x57, 0x4F, 1] ++ bytesOf 2 1 ++ bytesOf 2 2 ++ List.replicate 40 0 ++ bytesOf 8 0x400000 ++ bytesOf 16 f ++ bytesOf 8 128
    ++ List.replicate 48 0
  head ++ bytesOf 2 1 ++ List.replicate 6 0 ++ (shake256 rfcPub).take 8 ++ rfcPub ++ ed448Sign rfcKey (asciiBytes "EWO") (shake256 head)
    ++ List.replicate 5 0
/-- The object needs feature 4, and lies at 0x41_0000; its owner's key is valid, features acc are accepted, n ranges are installed. -/
def sObject (acc : BitVec 128) (n : Nat) : State :=
  { s0 with
    mem := (((List.range 320).map fun i => 0x410000 + i).zip (anObject 0x10)).filter fun c => c.2 != 0
    sec := { s0.sec with instStat := 1, instPa := 0x410000, instLen := 320, ownKeys := [rfcPub ++ [1]], featSet := acc,
                         ranges := List.replicate n (0, 0, 0) } }

theorem witness_Installation :
    (let bs := (sObject 0xFFF 0).readBytes ((sObject 0xFFF 0).own 0x410000) 320
     bs == anObject 0x10 && (sObject 0xFFF 0).objectOk bs && (sObject 1 0).objectOk bs && (sObject 0xFFF 64).objectOk bs
      && BitVec.ofNat 128 (natOfBytes ((bs.drop 0x38).take 16)) &&& ~~~(sObject 0xFFF 0).features == 0
      && BitVec.ofNat 128 (natOfBytes ((bs.drop 0x38).take 16)) &&& ~~~(sObject 1 0).features != 0
      && Memory.wf (sObject 0xFFF 0).mem) = true := by decide +kernel

theorem witness_Security :
    goes .instgo s0 = true ∧ goes .attgo s0 = true ∧ goes .attParamWrite (sIn { quietInput with flag := true, data := List.replicate 32 1 }) = true
    ∧ goes .attParamWrite (sIn { quietInput with data := bytesOf 8 0x410000 }) = true
    ∧ refuses .feataccWrite (sIn { quietInput with which := 4 }) = true
    ∧ (∀ k ∈ [0, 1, 2, 3], goes .feataccWrite (sIn { quietInput with which := k, data := bytesOf 4 0xFFF }) = true)
    ∧ goes .feataccWrite { s0 with sec := { s0.sec with featLock := true } } = true
    ∧ refuses .installationComplete (sInst 0) = true
    ∧ ((sInst 1).sec.instStat = 1 ∧ (sInst 1).objectOk ((sInst 1).readBytes ((sInst 1).own 0x410000) 256) = false)
    ∧ ((sAtt 1 0x410000).sec.attStat = 1 ∧ 0x410000 + 768 ≤ 0x18000000000) ∧ (sAtt 1 0xD0000000000).sec.attStat = 1
    ∧ refuses .attestationReportWritten (sAtt 0 0x410000) = true ∧ s0.sec.m.length = 8
    ∧ regionOf 0xD0000000000 = .onchip := by decide +kernel

/-- The program NOP; slot B of it, which is not live. -/
def sNop : State := State.reset.withProgram (bytesOf 4 0xEE000000)

theorem witness_Steps :
    IssuesNext sNop 0 false false placedGust []
    ∧ ((match (chosen sNop 0 false false placedGust []).fetchGroup 0 false 0x400000 3 [] false with | (_, .ok (ws, l)) => ws.length == 1 && !l | _ => false) = true)
    ∧ ((sNop.ready 0 placedGust true = false) ∧ (match step { sNop with agenda := [.issue 0 true false] } with | .refused .noSuchEvent => true | _ => false) = true)
    ∧ Memory.wf sNop.mem = true ∧ (match step sNop with | .next _ => true | _ => false) = true :=
  ⟨⟨by decide +kernel, by decide +kernel, by decide +kernel, by decide +kernel, by decide +kernel⟩, by decide +kernel, by decide +kernel, by decide +kernel,
    by decide +kernel⟩

/-- Its page absent, migrating, not executable: the entry that maps the program, replaced. -/
def sCode (v : Nat) : State := sNop.pokeWord 0x18000 v

theorem witness_FetchFaults :
    (∀ v ∈ [0, 0x400513, 0x400103], IssuesNext (sCode v) 0 false false placedGust [])
    ∧ (match (chosen (sCode 0) 0 false false placedGust []).translate 0 0 0 0x400000 with | (_, none) => true | _ => false) = true
    ∧ (match (chosen (sCode 0) 0 false false placedGust []).fetchGroup 0 false 0x400000 3 [] false with | (_, .error _) => true | _ => false) = true
    ∧ (match (chosen (sCode 0x400513) 0 false false placedGust []).translate 0 0 0 0x400000 with | (_, some x) => x.mig == 2 | _ => false) = true
    ∧ (match (chosen (sCode 0x400103) 0 false false placedGust []).translate 0 0 0 0x400000 with | (_, some x) => x.mig == 0 && !x.x | _ => false) = true
    ∧ (match (chosen sNop 0 false false placedGust []).translate 0 0 0 0x400000 with
      | (v, some x) => x.mig == 0 && x.x && x.domain 0x400000 == 0x400000 && !v.poisoned 0x400000 4
          && (tabGet? (v.core 0).icache (0x400000 / 32)).isNone && !isPfx (BitVec.ofNat 32 (memNat v.mem 0x400000 4))
      | _ => false) = true :=
  ⟨fun v h => by
      simp only [List.mem_cons, List.not_mem_nil, or_false] at h
      rcases h with rfl | rfl | rfl <;> exact ⟨by decide +kernel, by decide +kernel, by decide +kernel, by decide +kernel, by decide +kernel⟩,
    by decide +kernel, by decide +kernel, by decide +kernel, by decide +kernel, by decide +kernel⟩

/-- Its page lies in HBF, where the program stands as well, and no such feature is accepted (R393). -/
def sBare : State :=
  { (sCode 0x40000400133).hubWrite 0x40000400000 (bytesOf 4 0xEE000000) with sec := { sNop.sec with featSet := 1 } }
/-- The program's gust is twinned (R372). -/
def sTwins : State :=
  { sNop with twins := [(0, { placedGust with saveArea := placedGust.saveArea + 0x10000, twin := some 1 })]
              gusts := [(0, { placedGust with twin := some 1 })] }

theorem witness_StepsOfTwinsAndFeatures :
    IssuesNext sBare 0 false false placedGust []
    ∧ (match (chosen sBare 0 false false placedGust []).translate 0 0 0 0x400000 with
      | (v, some x) => v.lacksFeature x && decide (x.mig ≠ 2) && x.x && !v.poisoned (x.domain 0x400000) 4
      | _ => false) = true
    ∧ (match (chosen sBare 0 false false placedGust []).fetchGroup 0 false 0x400000 3 [] false with
      | (t, .ok (ws, true)) => decide (illegalCause (decodeGroup ws).instr t placedGust = none)
      | _ => false) = true
    ∧ (match turn sTwins with | .next _ => true | _ => false) = true ∧ (match turn sTwins.swapTwins with | .next _ => true | _ => false) = true :=
  ⟨⟨by decide +kernel, by decide +kernel, by decide +kernel, by decide +kernel, by decide +kernel⟩, by decide +kernel, by decide +kernel,
    by decide +kernel, by decide +kernel⟩

theorem witness_StepEvents : (match step { sNop with agenda := [.event .dropincRead quietInput] } with | .next _ => true | _ => false) = true := by
  decide +kernel

theorem witness_EncodeThenDecode : ∀ e ∈ workedEncodings, e.2.wf = true := by decide +kernel
/-! ## Witnesses: accesses performed, barrier units, replies, save areas -/

/-- An HFLUSH that is not tracked and has not waited looks at its range. -/
theorem flushes_of {p : Pfx} {s : State} {g : Gust} (h : trackOf p = 0) (w : (g.slot s.curB).wait = none) : FlushIssues p s g :=
  ⟨fun x => absurd h x, by simp [w]⟩

/-- A store of the gust's operation 1 to peer 5 that has not left core 0. -/
def buffered (s : State) : State :=
  s.setCore 0 { s.core 0 with wcb := [{ peer := 5, addr := 5 * 2 ^ 37, atomic := none, posters := [(0, 1, 1)] }] }
/-- An operation of the gust that waits at a barrier unit. -/
def gUnit : Gust := { gm with unitOps := [{ die := 0, counter := 0, kind := 1, slotB := false, syms := [], slots := [], stores := [1] }] }
/-- The gust has arrived in the running phase of two. -/
def xIn : Counter := { x2 with a := 1, arrived := [0] }

theorem witness_BarrierUnits :
    (∀ x ∈ [x2, x1, xIn, { x2 with drain := true }], AppliedAtOnce (coh gm x) gm ∧ UnitsIdle (coh gm x))
    ∧ (AppliedAtOnce cohW gm ∧ (gw.slot false).wait = some (.barrier 0 0 0) ∧ resident 1 = true)
    ∧ (UnitReady (coh gm { x2 with s := 1 }) gm ∧ UnitReady (coh gm { x2 with s := 1, drain := true }) gm)
    ∧ (∀ i ∈ [Instr.bar {} ⟨0, 0, 0, 0⟩, .bararr {} ⟨0, 0, 0, 0⟩, .regroup {} ⟨0, 0, 8, 4⟩],
      issuesB i (buffered (coh gm x2)) gm = true ∧ goes i (buffered (coh gm x2)) = true)
    ∧ ¬ performedAt (buffered (coh gm x2)) gm 2 ∧ (buffered (coh gm x2)).bufferedOps 0 = [1] ∧ ¬ performedAt (coh gLoad x2) gLoad 2
    ∧ issuesB (.barwt {} ⟨0, 0, 0, 0⟩) (coh gUnit x2) gUnit = true ∧ ¬ UnitReady (coh gUnit x2) gUnit
    ∧ goes (.barwt {} ⟨0, 0, 0, 0⟩) (coh gUnit x2) = true
    ∧ UnitReady (coh gFree x2) gFree ∧ gNone.unitOps = [] := by decide +kernel

/-- A prefix that tracks on counter 0; a replay that has performed every lane. -/
def trackPfx : Pfx := { m := some ⟨0, 0, 0, 0, 2⟩ }
def gAll : Gust := { grange with replay := [(false, 0xFFFFFFFF)] }
/-- The data page lies in host memory, to which operation 1 of the gust has written; slot A may wait for that write. -/
def sHost (w : Option Wait) : State :=
  let s := (onS s0 { grange with posted := [⟨1, none, 0, [(0, 0x1000008200, 1)]⟩]
                                 a := { grange.a with wait := w, waitNext := 0x400004 } }).pokeWord 0x18010 0x80000410147
  { s with hub := { s.hub with requests := [{ id := 7, peer := 0, part := 0, plane := 0, line := 0x1000008200, core := 0, unit := true,
                                              posters := [(0, 1, 1)] }] } }
/-- What HFLUSH finds: the requests of its range. -/
def flushIds (p : Pfx) (s : State) (g : Gust) : List Nat :=
  let i := Instr.hflush p ⟨0, 18, 8, 0⟩
  let start := (pairLane64 g 8 (lowestOf (runLanes i s g))).toNat
  let len := (operand s g 18 (lowestOf (runLanes i s g))).toNat
  let x := s.pagesOf 0 (s.frontOf g).part (s.frontOf g).asid (rangePages start len) {}
  if x.2.absent != [] || (rangePages start len).any (fun va => (rangeFault x.2 va).isSome) then [0]
  else s.hostWrites (rangeSpans x.2 start len) fun y => y.1 == s.cur && y.2.2 != 0

/-- The gust of slot 0 issues a group and meets k. -/
def hereB (s : State) (i : Instr) (k : Gust → Bool) : Bool :=
  match s.gust? 0 with
  | some g => plainB i s g && k g && goes i s
  | none => false

theorem witness_HostFlush :
    (∀ p ∈ [({} : Pfx), trackPfx], hereB (sHost none) (.hflush p ⟨0, 18, 8, 0⟩) (fun g =>
        decide (runLanes (.hflush p ⟨0, 18, 8, 0⟩) (sHost none) g ≠ 0) && flushIds p (sHost none) g == [7]
          && decide ((g.slot false).wait = none) && decide (trackOf p ≠ 0 → g.counter (trackOf p - 1) < 63)) = true)
    ∧ (flushIds {} (on grange) grange = [] ∧ flushIds trackPfx (on grange) grange = [])
    ∧ hereB (sHost (some (.flush [7]))) (.hflush {} ⟨0, 18, 8, 0⟩) (fun g => decide ((g.slot false).wait = some (.flush [7]))) = true
    ∧ ∀ i ∈ [Instr.hflush {} ⟨0, 18, 8, 0⟩, .isyncRange {} ⟨0, 18, 8, 0⟩],
      plainB i (on gAll) gAll = true ∧ runLanes i (on gAll) gAll = 0 ∧ goes i (on gAll) = true := by decide +kernel

theorem witness_FencesAtScope :
    (∀ n ∈ [(1 : BitVec 3), 4], performedAt (on gmem) gmem n.toNat ∧ ¬ performedAt (on gout) gout n.toNat)
    ∧ (¬ performedAt (on gline) gline 4 ∧ performedAt (on (gfence [])) (gfence []) 4) := by
  decide +kernel

theorem witness_DrainsAtScope :
    (∀ e ∈ (sBuf.core 0).wcb, NoUnitWaits sBuf e ∧ sBuf.outOn e.line sBuf.hub.nextReq = [])
    ∧ (∀ i ∈ [Instr.ld (atScope 4) ⟨4, 1, 127, 8, 4⟩], plainB i sBuf gmem = true ∧ runLanes i sBuf gmem ≠ 0 ∧ gmem.loadsDone = true ∧ Room gmem (runOf 4 1)
        ∧ goes i sBuf = true ∧ nearB sBuf (lanesOf (runLanes i sBuf gmem)) (eaOf (atScope 4) sBuf gmem 8 127)
          (checkLanes (mkCtx i gmem false) sBuf .load 4 (lanesOf (runLanes i sBuf gmem)) (eaOf (atScope 4) sBuf gmem 8 127)
            (fun _ => 0) (plainSpan 4 (eaOf (atScope 4) sBuf gmem 8 127))) = true) := by
  decide +kernel

theorem witness_ReleasesAtScope :
    (performedAt (sPush []) gpush 1 ∧ performedAt (sPush []) gpush 2 ∧ performedAt (sPush []) gpush 3)
    ∧ (∀ k ∈ [(2 : BitVec 3), 3, 4], performedAt (onS (sLive 0) (att (gatt 60 0x40000))) (att (gatt 60 0x40000)) k.toNat
        ∧ AcquiresAtOnce (atScope k) (onS (sLive 0) (att (gatt 60 0x40000))) (att (gatt 60 0x40000)))
    ∧ performedAt (sLq 3 {}) glq 3 := by decide +kernel

/-- A gust with a blocking access outstanding does not trap; one in a step of the debug port completes its entry. -/
def gasks : Gust := { gsys with a := { gsys.a with wait := some (.reply awaited) } }
def gstep : Gust := { gpend with halted := true, stepOnce := true }
/-- A trap that has interrupted the wait of slot A at a barrier, and the handler that returns to it. -/
def gkept : Gust :=
  { gret 0x400000 with trapRet := some ⟨false, 0x400000, 8, 0, 1, some ⟨some (.barrier 0 0 0), 0x400004⟩⟩ }

theorem witness_EntriesAndReturns :
    ((on gasks).gust? 0 = some gasks ∧ (gasks.slot false).awaits = true ∧ refuses (.trapEntry 0 false aFault) (on gasks) = true)
    ∧ (∀ g ∈ [gsys, ghalt], (g.slot false).awaits = false)
    ∧ (∀ g ∈ [gpend, gstep], (on g).resuming 0 g = false ∧ goes (.pendingEntryComplete 0) (on g) = true)
    ∧ (issuesB (.tret {} ⟨1, 0⟩) (on gkept) gkept = true ∧ gkept.replay = [] ∧ gkept.xpc = (0x400000 : BitVec 56).zeroExtend 64
      ∧ goes (.tret {} ⟨1, 0⟩) (on gkept) = true) := by decide +kernel

/-- The reply of a load of word 0x41_0000 by lane 0 into v4, over a drift record or not; the same held in the hub. -/
def aLoad (held : Bool) : Reply :=
  { writes := [⟨4, 1, [], false⟩], capQuad := none, done := 1, nv := 0, lines := [(9, 0x8200)], held := held,
    serve := some (.plain 4, [{ lane := 0, x := ⟨0, 0, 0x410000, 0, 0, 0x410000, 0, true, true, false, false, 0, false, 0, 0, 0, 0, false⟩
                                dom := 0x410000 }]) }
def gload (held : Bool) (rs : List (Nat × Val)) : Gust :=
  { gsys with a := { gsys.a with wait := some (.reply (aLoad held)), waitNext := 0x400004 }, regs := rs }
def servedB (s : State) (g : Gust) (r : Reply) (sym : Option Nat) : Bool :=
  let x := s.seeAll (r.only (~~~0))
  let v := x.2.valued (x.1.seeing x.2.seen) x.2.olds
  decide (s.gust? 0 = some g) && r.lines.all (fun l => decide (s.outOn l.2 r.num = [])) && (s.seeing r.seen).poisonLanes r == 0
    && !((r.only (~~~0)).overBudget g) && !(v.overBudget g) && v.drift g == sym && v.capQuad == none && v.nv == 0
    && goes (.loadReply 0 false) s

theorem served_of {s : State} {g : Gust} {r : Reply} {y : Option Nat} (h : servedB s g r y = true) :
    ServedNext s r (s.seeAll (r.only (~~~0))).1 (s.seeAll (r.only (~~~0))).2
      ((s.seeAll (r.only (~~~0))).2.valued ((s.seeAll (r.only (~~~0))).1.seeing (s.seeAll (r.only (~~~0))).2.seen)
        (s.seeAll (r.only (~~~0))).2.olds) := by
  simp only [servedB, Bool.and_eq_true, List.all_eq_true, decide_eq_true_eq, beq_iff_eq] at h
  exact ⟨h.1.1.1.1.1.1.1.2, h.1.1.1.1.1.1.2, rfl, rfl⟩

theorem witness_RepliesServed :
    (servedB (on gwait) gwait awaited none && servedB (on (gload false [])) (gload false []) (aLoad false) none
      && servedB (on (gload false [(4, .d ⟨0, 0, 1, 0⟩ [])])) (gload false [(4, .d ⟨0, 0, 1, 0⟩ [])]) (aLoad false) (some 0)) = true
    ∧ refuses (.loadReply 0 false) (on (gload true [])) = true
    ∧ (∀ p ∈ [some [], none], let s := { sOld with hub := { sOld.hub with peerInc := match p with | some l => [(0, l)] | none => [] } }
       ∀ e ∈ (s.core 0).wcb, NoUnitWaits s e ∧ s.outOn e.line s.hub.nextReq = [] ∧ goes (.wcAgeDrain 0 0) s = true) := by
  decide +kernel

/-- HOSTFL with no piece left, behind a write of its front to host memory that was sent before or after it. -/
def sFlush (gen : Nat) : State :=
  let c := cmdOf [(0, 1, 0x17), (8, 8, 0x410000), (0x18, 4, 64)]
  let s := (sEng 5123 (engW 1 [] [{ cmd := c, left := some (false, []), gen := gen }])).pokeWord 0x18010 0x80000410147
  { (s.setGust 0 { gs with posted := [⟨1, none, 0, [(0, 0x1000008200, 1)]⟩] }) with
    hub := { s.hub with requests := [{ id := 7, peer := 0, part := 0, plane := 0, line := 0x1000008200, core := 0, unit := true,
                                       posters := [(0, 1, 1)] }] } }

theorem witness_HostFlushCommand :
    ((sFlush 8).copyTurn 5123 = true ∧ refuses (.hostfl 5123 1) (sFlush 8) = true ∧ goes (.hostfl 5123 1) (sFlush 7) = true)
    ∧ ((sFlush 8).job? 5123 (cmdOf [(0, 1, 0x17), (8, 8, 0x410000), (0x18, 4, 64)])).map
        (fun j => (sFlush 8).hostWrites ((sFlush 8).hostSpans j) ((sFlush 8).postsFor j.eng.front)) = some [7]
    ∧ (∀ s ∈ [sTask (cMx 1 0) [], sTwo 0, sHeld 0 0], (s.core 0).requeue = []) ∧ OneWrite 0x410000 64 ∧ OneWrite 272 16 := by
  decide +kernel

/-- REQNT of the data page has converted some slots into page 0x50_0000, all but the last turn's, or all of them. -/
def sReq' (fresh : Option Nat) (slots : Nat) : State :=
  let s := sSwap 5123 1 (cReq 1 0) 2 0 0 [0x500000] ro tile
  { s with engs := [(5123, engW 1 [] [{ cmd := cReq 1 0, phase := 2, fresh := fresh, slots := slots }])] }

theorem witness_RequantTurns :
    (min (65536 / slotLen 4 false) (65536 / slotLen 3 false) = 102 ∧ 4096 / max (slotLen 4 false) (slotLen 3 false) = 6)
    ∧ (∀ e ∈ [(none, 0), (some 0x500000, 6), (some 0x500000, 96)], takeB (sReq' e.1 e.2) 5123 0x15 0x500000 = true
      ∧ goes (.reqnt 5123 1) (sReq' e.1 e.2) = true) := by decide +kernel

/-- Vector 3 of function 0 is pending; vector 0 of it is held back, last told at m. -/
def sMsi (held : List Nat) (m : Nat) (vs : List Nat) : State :=
  { s0 with hub := { s0.hub with msix := vs, msixHeld := held, msixLast := [(0, m)] } }

theorem witness_PendingVectors :
    (∀ s ∈ [sMsi [] 0 [3], sMsi [0] 0 [], { sMsi [0] 0 [] with hub := { (sMsi [0] 0 []).hub with now := 20000 } }],
      goes .scheduleTick s = true ∧ s.sched = [])
    ∧ (ToldLately (sMsi [] 0 []) 0 ∧ ¬ ToldLately s0 0) :=
  ⟨by decide +kernel, ⟨0, by decide +kernel⟩, fun ⟨m, h, _⟩ => by
    have : tabGet? s0.hub.msixLast 0 = none := by decide +kernel
    simp [this] at h⟩

theorem witness_SlotsLand :
    ((sSlot 5 true).gusts.all fun e => e.2.regroup == [] && e.2.a.wait == none && e.2.b.wait == none) = true
    ∧ (sSave true none).twins = [] := by decide +kernel

/-- A request that the hub holds with its packet, a store of byte 7 at the start of its line. -/
def heldStore : Request :=
  { aReq true [] with packet := some (.entry { peer := 9, addr := 0x8200, atomic := none, bytes := [(0, 7)] }) }

theorem witness_HeldPackets : goes .incarnationNotice (sInc none [heldStore] true) = true ∧ s0.hub.remapping = none := by
  decide +kernel

theorem drains_s0 (q : Nat) : QuietDrain s0 q where
  keyed := by decide +kernel
  single := by decide +kernel
  landed := by
    have h : ∀ e ∈ s0.gusts, e.2.a.awaits = false ∧ e.2.b.awaits = false ∧ (∀ y ∈ e.2.syms, y.state ≠ 1) ∧ e.2.posted = [] := by
      decide +kernel
    have p : s0.poison = [] := by decide +kernel
    intro e he _
    exact ⟨(h e he).1, (h e he).2.1, (h e he).2.2.1, (h e he).2.2.2, fun n => by simp [State.poisoned, p]⟩

/-- The front of the gust is not pre-emptible, so that a reset of partition 0 drains it. -/
theorem witness_QuietResets :
    Quiet s0 ∧ QuietDrain s0 0 ∧ (∀ e ∈ s0.gusts, Drains s0 0 e) ∧ s0.gusts.length = 1 ∧ NothingStarted s0 :=
  ⟨⟨by decide +kernel, fun q _ => drains_s0 q⟩, drains_s0 0,
    fun e he => ⟨(by decide +kernel : ∀ e ∈ s0.gusts, resident e.1 = true) e he,
      (by decide +kernel : ∀ e ∈ s0.gusts, ∃ f ∈ s0.fronts, f.1 = e.2.front ∧ f.2.part = 0 ∧ f.2.preempt = false) e he⟩,
    by decide +kernel, by decide +kernel⟩

theorem witness_DebugDrains :
    (sDbg 0 0 0 gHalt).mayDrain 0 = true ∧ (sDbg 0 0 0 gHaltOut).mayDrain 0 = true ∧ (sDbg 0 0 0 gHalt).twins = []
    ∧ (sDbg 0 0 0 gHalt).poison = [] ∧ (sDbg 0 0 0 gHalt).gusts = [(0, gHalt)] ∧ gHalt.twin = none
    ∧ (sDbg 0 0 0 gHalt).gusts.all (fun e => resident e.1) = true := by decide +kernel

end Sys2Proof.Tests
end

section
/-! SUPPORT. The lane functions of spec/04 Table 2 (R97, R98) as the table states them. -/

namespace Sys2Proof.Claims

open Sys2Proof.Machine

/-! ## Shifts and bit counts (R97) -/

/-- SHR divides by a power of two. -/
theorem shiftR_eq_div (a b : Word) :
    shiftR a b = if 32 ≤ b.toNat then 0 else BitVec.ofNat 32 (a.toNat / 2 ^ b.toNat) := by
  have hdiv : a >>> b.toNat = BitVec.ofNat 32 (a.toNat / 2 ^ b.toNat) := by
    apply BitVec.eq_of_toNat_eq
    have hlt : a.toNat / 2 ^ b.toNat < 2 ^ 32 := lt_of_le_of_lt (Nat.div_le_self _ _) a.isLt
    rw [BitVec.toNat_ushiftRight, BitVec.toNat_ofNat, Nat.shiftRight_eq_div_pow, Nat.mod_eq_of_lt hlt]
  rw [shiftR, hdiv]

theorem signBit_iff_neg (a : Word) : a.getLsbD 31 = true ↔ a.toInt < 0 := by
  rw [← BitVec.msb_eq_getLsbD_last, BitVec.msb_eq_toInt, decide_eq_true_iff]

/-- SAR divides the signed value by a power of two, rounding down; from 32 up the sign remains. -/
theorem shiftRA_eq_div (a b : Word) :
    shiftRA a b = if 32 ≤ b.toNat then (if a.toInt < 0 then 0xFFFFFFFF else 0)
      else BitVec.ofInt 32 (a.toInt / 2 ^ b.toNat) := by
  simp only [shiftRA, signBit_iff_neg, ge_iff_le, BitVec.sshiftRight_eq, Int.shiftRight_eq_div_pow, Nat.cast_pow,
    Nat.cast_ofNat]

/-- SHL by one amount keeps a column linear in the lane (R23). -/
theorem shiftL_linear (x y n b : Word) :
    shiftL (x + n * (y - x)) b = shiftL x b + n * (shiftL y b - shiftL x b) := by
  unfold shiftL
  split
  · simp
  · simp only [BitVec.shiftLeft_eq_mul_twoPow]
    ring

/-- CTZ is the number of the lowest set bit, 32 when there is none. -/
theorem ctz32_eq_find (a : Word) : ctz32 a = BitVec.ofNat 32 ((lanes.find? fun k => a.getLsbD k).getD 32) := by
  rw [ctz32, lanesOf, List.head?_filter]; rfl

/-! ## Bit fields (R98) -/

theorem bfPos_eq_fieldPos (b : Word) : bfPos b = fieldPos b := by simp [bfPos, bitsOf, fieldPos]

theorem bfWidth_eq_fieldWidth (b : Word) : bfWidth b = fieldWidth b := by
  simp [bfWidth, bitsOf, fieldWidth, bfPos_eq_fieldPos]

theorem bfx32_eq_field (a b : Word) : bfx32 a b = BitVec.ofNat 32 (fieldOf a b) := by
  rw [bfx32, fieldOf, bfPos_eq_fieldPos, bfWidth_eq_fieldWidth]

theorem bfxs32_eq_field (a b : Word) :
    bfxs32 a b = if fieldWidth b = 0 then 0
      else if 2 ^ (fieldWidth b - 1) ≤ fieldOf a b then BitVec.ofInt 32 ((fieldOf a b : Int) - 2 ^ fieldWidth b)
      else BitVec.ofNat 32 (fieldOf a b) := by
  rw [bfxs32, fieldOf, bfPos_eq_fieldPos, bfWidth_eq_fieldWidth]

/-- The ones of a bit field at position p of width w. -/
theorem testBit_fieldMask (w p k : Nat) : ((2 ^ w - 1) * 2 ^ p).testBit k = decide (p ≤ k ∧ k < p + w) := by
  rw [Nat.testBit_mul_two_pow, Nat.testBit_two_pow_sub_one, Bool.eq_iff_iff]
  simp only [Bool.and_eq_true, decide_eq_true_eq]
  omega

/-- BFI, bit by bit: inside the field the bits of a, outside it those of d. -/
theorem bfi32_eq_insert (a b d : Word) : bfi32 a b d = insertField a b d := by
  refine mask_ext fun k hk => ?_
  rw [insertField, inMask_maskOf _ hk, bfi32, bfPos_eq_fieldPos, bfWidth_eq_fieldWidth]
  simp only [inMask, BitVec.getLsbD_or, BitVec.getLsbD_and, BitVec.getLsbD_not, BitVec.getLsbD_shiftLeft,
    BitVec.getLsbD_ofNat, testBit_fieldMask, hk, decide_true, Bool.true_and]
  by_cases hfield : fieldPos b ≤ k ∧ k < fieldPos b + fieldWidth b <;> simp [hfield]

end Sys2Proof.Claims
end

section
/-! SUPPORT. Instructions whose result is an integer with its tag write that result in their destination (R23, R93, R97). -/

namespace Sys2Proof.Claims

open Sys2Proof.Machine

variable {i : Instr} {s : State} {g : Gust} {f : RForm}

/-- In a lane of LMASK an operand is the lane of its value (R8). -/
theorem operand_of_lmask {l : Nat} (hl : inMask g.lmask l = true) (r : BitVec 7) :
    operand s g r l = (g.src s.curB r.toNat).lane l := if_pos hl

theorem regLane_of_lmask {l : Nat} (hl : inMask g.lmask l = true) (r : BitVec 7) :
    regLane g r l = (g.reg r.toNat).lane l := if_pos hl

/-- Lane l of a result of a plain tag, when the lanes differ through the inputs alone. -/
theorem lane_plain {ins : List Val} {fn : Nat → Word} {l : Nat} (hl : inMask g.lmask l = true)
    (hsame : (∀ v ∈ ins, v.lane l = v.lane 0) → fn l = fn 0) : (resultOf g .plain ins fn).lane l = fn l :=
  lane_resultOf hl (fun h => hsame fun v hv => uniform_lane (List.all_eq_true.mp h v hv) l) (by simp [TagRule.linear])

/-- A one-source integer instruction writes its lane function's results. -/
theorem writesReg_int1 {op : Word → Word} (h : ReadyReg i s g f.w f.d) (hw : i.view.w = f.w)
    (he : exec i s = runGroup i s (int1 f op)) (ht : uniformTag [g.src s.curB f.sa.toNat] = fullTag i s g) :
    WritesReg i s g f.w f.d fun l => op (operand s g f.sa l) := by
  refine writesReg_of_putResult h.issues h.apart h.room hw he (int1_body f op h.plain) (fun l hl _ => ?_)
    ((tag_plain _ _ _).trans ht)
  rw [operand_of_lmask hl]
  exact lane_plain hl fun hu => by simp_all

/-- A two-source integer instruction of a plain tag writes its lane function's results. -/
theorem writesReg_int2 {op : Word → Word → Word} (h : ReadyReg i s g f.w f.d) (hw : i.view.w = f.w)
    (he : exec i s = runGroup i s (int2 f .plain op))
    (ht : uniformTag [g.src s.curB f.sa.toNat, g.src s.curB f.sb.toNat] = fullTag i s g) :
    WritesReg i s g f.w f.d fun l => op (operand s g f.sa l) (operand s g f.sb l) := by
  refine writesReg_of_putResult h.issues h.apart h.room hw he (int2_body f .plain op h.plain) (fun l hl _ => ?_)
    ((tag_plain _ _ _).trans ht)
  rw [operand_of_lmask hl, operand_of_lmask hl]
  exact lane_plain hl fun hu => by simp_all

/-- An integer instruction that reads D as well writes its lane function's results. -/
theorem writesReg_int3 {op : Word → Word → Word → Word} (h : ReadyReg i s g f.w f.d) (hw : i.view.w = f.w)
    (he : exec i s = runGroup i s (int3 f .plain op))
    (ht : uniformTag [g.src s.curB f.sa.toNat, g.src s.curB f.sb.toNat, g.reg f.d.toNat] = fullTag i s g) :
    WritesReg i s g f.w f.d fun l => op (operand s g f.sa l) (operand s g f.sb l) (regLane g f.d l) := by
  refine writesReg_of_putResult h.issues h.apart h.room hw he (int3_body f .plain op h.plain) (fun l hl _ => ?_)
    ((tag_plain _ _ _).trans ht)
  rw [operand_of_lmask hl, operand_of_lmask hl, regLane_of_lmask hl]
  exact lane_plain hl fun hu => by simp_all

/-- The tag of a shift by a value: L of L by U (R23). -/
theorem tag_shl (a b : Val) (fn : Nat → Word) : (resultOf g .shl [a, b] fn).tag = productTag true a b := by
  rw [tag_resultOf]
  cases a <;> cases b <;> rfl

/-- Lane l of a shifted value: a linear column shifted by a uniform amount is linear. -/
theorem lane_shl (a b : Val) {l : Nat} (hl : inMask g.lmask l = true) :
    (resultOf g .shl [a, b] fun k => shiftL (a.lane k) (b.lane k)).lane l = shiftL (a.lane l) (b.lane l) := by
  refine lane_resultOf hl (fun huu => ?_) fun hlu => ?_
  · simp only [List.all_cons, List.all_nil, Bool.and_true, Bool.and_eq_true] at huu
    rw [uniform_lane huu.1, uniform_lane huu.2]
  · simp only [TagRule.linear, Bool.and_eq_true] at hlu
    rw [uniform_lane hlu.2 l, uniform_lane hlu.2 1, inputs_affine hlu.1 l, shiftL_linear]

/-- SHL writes the shifted lanes (R97). -/
theorem writesReg_shl {p : Pfx} (h : ReadyReg (.shl p f) s g f.w f.d) :
    WritesReg (.shl p f) s g f.w f.d fun l => shiftL (operand s g f.sa l) (operand s g f.sb l) := by
  refine writesReg_of_putResult h.issues h.apart h.room rfl rfl (int2_body f .shl shiftL h.plain) (fun l hl _ => ?_)
    (tag_shl _ _ _)
  rw [operand_of_lmask hl, operand_of_lmask hl, lane_shl _ _ hl]

end Sys2Proof.Claims
end

section
/-! PROOFS. Major 0x02 (spec/04 R97, R98). -/

namespace Sys2Proof.Claims

open Sys2Proof.Machine

/-- The rows of two sources of Table 2. -/
theorem logicRows_write : ∀ e ∈ logicRows, ∀ p f s g, ReadyReg (e.1 p f) s g f.w f.d →
    WritesReg (e.1 p f) s g f.w f.d fun l => e.2 (operand s g f.sa l) (operand s g f.sb l) := by
  simp only [logicRows, List.forall_mem_cons, List.not_mem_nil, false_implies, implies_true, and_true]
  refine ⟨?and, ?or, ?xor, ?andn, ?shl, ?shr, ?sar, ?rotl⟩ <;> intro p f s g h
  case and => exact writesReg_int2 h rfl rfl rfl
  case or => exact writesReg_int2 h rfl rfl rfl
  case xor => exact writesReg_int2 h rfl rfl rfl
  case andn => exact writesReg_int2 h rfl rfl rfl
  case shl => exact writesReg_shl h
  case shr => simpa only [shiftR_eq_div] using writesReg_int2 h rfl rfl rfl
  case sar => simpa only [shiftRA_eq_div] using writesReg_int2 h rfl rfl rfl
  case rotl => exact writesReg_int2 h rfl rfl rfl

/-- The rows of one source of Table 2. -/
theorem bitRows_write : ∀ e ∈ bitRows, ∀ p f s g, ReadyReg (e.1 p f) s g f.w f.d →
    WritesReg (e.1 p f) s g f.w f.d fun l => e.2 (operand s g f.sa l) := by
  simp only [bitRows, List.forall_mem_cons, List.not_mem_nil, false_implies, implies_true, and_true]
  refine ⟨?popc, ?clz, ?ctz, ?brev⟩ <;> intro p f s g h
  case popc => exact writesReg_int1 h rfl rfl rfl
  case clz => exact writesReg_int1 h rfl rfl rfl
  case ctz => simpa only [ctz32_eq_find] using writesReg_int1 h rfl rfl rfl
  case brev => exact writesReg_int1 h rfl rfl rfl

/-- BFX and BFXS. -/
theorem fieldRows_write : ∀ e ∈ fieldRows, ∀ p f s g, ReadyReg (e.1 p f) s g f.w f.d →
    WritesReg (e.1 p f) s g f.w f.d fun l => e.2 (operand s g f.sa l) (operand s g f.sb l) := by
  simp only [fieldRows, List.forall_mem_cons, List.not_mem_nil, false_implies, implies_true, and_true]
  refine ⟨?bfx, ?bfxs⟩ <;> intro p f s g h
  case bfx => simpa only [bfx32_eq_field] using writesReg_int2 h rfl rfl rfl
  case bfxs => simpa only [bfxs32_eq_field] using writesReg_int2 h rfl rfl rfl

/-- Settles O2: each instruction of major 0x02 is of one of the three integer shapes or a shift that keeps L, and its lane
function is the table's. -/
theorem logicShiftsAndBitFieldsWriteTheTableResult : Obligations.LogicShiftsAndBitFieldsWriteTheTableResult := by
  refine ⟨logicRows_write, bitRows_write, ?sel, fieldRows_write, ?bfi⟩ <;> intro p f s g h
  case sel => exact writesReg_int3 h rfl rfl rfl
  case bfi => simpa only [bfi32_eq_insert] using writesReg_int3 h rfl rfl rfl

end Sys2Proof.Claims
end

section
/-! SUPPORT. FP32 encodings by sign and magnitude (R45), and the lane functions of FMIN, FMAX and FCLASS as R106 and R107 state
them. -/

namespace Sys2Proof.Claims

open Sys2Proof.Machine

/-! ## Sign and magnitude -/

/-- The magnitude of an encoding is all but its sign bit. -/
theorem magnitude_toNat (a : Word) : (a &&& 0x7FFFFFFF).toNat = a.toNat % 2 ^ 31 := by
  rw [BitVec.toNat_and]
  exact Nat.and_two_pow_sub_one_eq_mod a.toNat 31

theorem toNat_eq_sign_add_magnitude (a : Word) :
    a.toNat = (if a.getLsbD 31 then 2 ^ 31 else 0) + (a &&& 0x7FFFFFFF).toNat := by
  have hsign : a.getLsbD 31 = decide (2 ^ 31 ≤ a.toNat) := by
    rw [← BitVec.msb_eq_getLsbD_last, BitVec.msb_eq_decide]
  have hlt := a.isLt
  rw [hsign, magnitude_toNat]
  simp only [decide_eq_true_eq]
  split <;> omega

/-- The number that an encoding stands for, by its magnitude m (R45). -/
theorem unpack_by_magnitude (a : Word) {m : Nat} (hm : m = (a &&& 0x7FFFFFFF).toNat) :
    unpack a = if 0x7F800000 < m then .nan (!a.getLsbD 22) else if m = 0x7F800000 then .inf (a.getLsbD 31)
      else if m < 0x800000 then .fin (a.getLsbD 31) m (-149)
      else .fin (a.getLsbD 31) (m % 2 ^ 23 + 2 ^ 23) ((m / 2 ^ 23 : Nat) - 150) := by
  have hex : (a.extractLsb' 23 8).toNat = m / 2 ^ 23 := by
    rw [BitVec.extractLsb'_toNat, Nat.shiftRight_eq_div_pow, hm, magnitude_toNat]; omega
  have hfr : (a.extractLsb' 0 23).toNat = m % 2 ^ 23 := by
    rw [BitVec.extractLsb'_toNat, Nat.shiftRight_zero, hm, magnitude_toNat]; omega
  have hlt : m < 2 ^ 31 := by rw [hm, magnitude_toNat]; omega
  simp only [unpack, hex, hfr]
  by_cases hnan : 0x7F800000 < m
  · rw [if_pos (by omega), if_neg (by omega), if_pos hnan]
  by_cases hinf : m = 0x7F800000
  · rw [if_pos (by omega), if_pos (by omega), if_neg hnan, if_pos hinf]
  by_cases hsub : m < 0x800000
  · have hmod : m % 2 ^ 23 = m := Nat.mod_eq_of_lt hsub
    rw [if_neg (by omega), if_pos (by omega), if_neg hnan, if_neg hinf, if_pos hsub, hmod]
  · rw [if_neg (by omega), if_neg (by omega), if_neg hnan, if_neg hinf, if_neg hsub]

theorem isNaN_eq_nan32 (a : Word) : isNaN a = nan32 a := by
  rw [isNaN, unpack_by_magnitude a rfl, nan32]
  generalize (a &&& 0x7FFFFFFF).toNat = m
  split_ifs <;> simp_all

theorem isSNaN_eq_snan32 (a : Word) : isSNaN a = snan32 a := by
  rw [isSNaN, unpack_by_magnitude a rfl, snan32, nan32]
  generalize (a &&& 0x7FFFFFFF).toNat = m
  split_ifs <;> simp_all

theorem snan32_of_not_nan32 {a : Word} (h : nan32 a = false) : snan32 a = false := by rw [snan32, h]; rfl

/-! ## FMIN and FMAX (R106) -/

/-- The model's keys are in the order of the encodings' values, −0 below +0. -/
theorem orderKey_lt_iff_below (a b : Word) : orderKey a < orderKey b ↔ below32 a b = true := by
  have ha := toNat_eq_sign_add_magnitude a
  have hb := toNat_eq_sign_add_magnitude b
  cases hsa : a.getLsbD 31 <;> cases hsb : b.getLsbD 31
  all_goals
    simp only [hsa, hsb, Bool.false_eq_true, if_true, if_false] at ha hb
    simp only [orderKey, fpAbs, below32, hsa, hsb, Bool.false_eq_true, if_true, if_false, decide_eq_true_eq, iff_true,
      iff_false]
    omega

theorem fpMinMax_eq_minMax32 (up : Bool) (a b : Word) :
    fpMinMax up a b = (minMax32 up a b, { nv := snan32 a || snan32 b }) := by
  simp only [fpMinMax, minMax32, isNaN_eq_nan32, isSNaN_eq_snan32, orderKey_lt_iff_below]
  cases ha : nan32 a <;> cases hb : nan32 b
  case false.false =>
    rw [snan32_of_not_nan32 ha, snan32_of_not_nan32 hb]
    cases up <;> cases below32 a b <;> rfl
  all_goals rfl

/-! ## FCLASS (R107) -/

/-- Exactly the bit of the class is set: NaN, infinity, normal number, zero or subnormal number, by sign. -/
theorem fpClass_eq_classBit (a : Word) : fpClass a = BitVec.ofNat 32 (2 ^ classBit a) := by
  obtain ⟨m, hm⟩ : ∃ m, m = (a &&& 0x7FFFFFFF).toNat := ⟨_, rfl⟩
  have hinf : a &&& 0x7FFFFFFF = 0x7F800000 ↔ m = 0x7F800000 := by rw [hm, ← BitVec.toNat_inj]; rfl
  have hzero : a &&& 0x7FFFFFFF = 0 ↔ m = 0 := by rw [hm, ← BitVec.toNat_inj]; rfl
  simp only [fpClass, unpack_by_magnitude a hm, classBit, snan32, nan32, ← hm, hinf, hzero, decide_eq_true_eq]
  by_cases cnan : 0x7F800000 < m
  · cases a.getLsbD 22 <;> simp [cnan]
  by_cases cinf : m = 0x7F800000
  · cases a.getLsbD 31 <;> simp [cinf]
  by_cases cnorm : 0x800000 ≤ m
  · cases a.getLsbD 31 <;> simp [cnan, cinf, cnorm, Nat.not_lt.mpr cnorm]
  by_cases czero : m = 0
  · cases a.getLsbD 31 <;> simp [czero]
  · cases a.getLsbD 31 <;> simp [cnan, cinf, cnorm, czero, Nat.not_le.mp cnorm]

end Sys2Proof.Claims
end

section
/-! SUPPORT. Floating-point instructions write their lane function's result and raise its flags (R36, R93, R105). The flags are
those of the values' lanes; in a lane of LMASK these are the operands. -/

namespace Sys2Proof.Claims

open Sys2Proof.Machine

variable {i : Instr} {s : State} {g : Gust} {f : RForm}

/-- A floating-point result has the tag and the lanes of an integer result of a plain tag (R23). -/
theorem fpResult_eq_resultOf (g : Gust) (ins : List Val) (fn : Nat → Word) : fpResult g ins fn = resultOf g .plain ins fn := rfl

/-- Flags that agree in the lanes of Active() are raised alike (R36, R145). -/
theorem flagsRaised_congr {k : Gust} {dest : Word} {fl fl' : Nat → Fl}
    (hfl : ∀ l, inMask (active i s g) l = true → fl l = fl' l) (h : FlagsRaised i s g k dest fl) :
    FlagsRaised i s g k dest fl' := by
  have hin : ∀ (flag : Fl → Bool) l,
      (inMask (active i s g) l && flag (fl l)) = (inMask (active i s g) l && flag (fl' l)) := by
    intro flag l
    cases ha : inMask (active i s g) l
    · rfl
    · rw [hfl l ha]
  have hfirst : setsFirst i s g fl = setsFirst i s g fl' := by simp only [setsFirst, hin Fl.any]
  obtain ⟨hpc, hdest, hlanes⟩ := h
  refine ⟨hfirst ▸ hpc, hfirst ▸ hdest, fun l hl hm => ?_⟩
  simpa only [hin Fl.nx, hin Fl.uf, hin Fl.ovf, hin Fl.dz, hin Fl.nv] using hlanes l hl hm

theorem writesRegFlags_congr {w : BitVec 1} {d : BitVec 7} {op : Nat → Word} {fl fl' : Nat → Fl}
    (hfl : ∀ l, inMask (active i s g) l = true → fl l = fl' l) (h : WritesRegFlags i s g w d op fl) :
    WritesRegFlags i s g w d op fl' := by
  obtain ⟨t, k, v, he, hk, ho, hg, hs, hkept, hr, h1, hd, hl, ht, hc, hf⟩ := h
  exact ⟨t, k, v, he, hk, ho, hg, hs, hkept, hr, h1, hd, hl, ht, hc, flagsRaised_congr hfl hf⟩

/-- A one-source floating-point instruction on a plain operand. -/
theorem fp1_body (f : RForm) (op : Rm → Word → Word × Fl) (hd : NoDrift i s g) :
    fp1 f op (mkCtx i g s.curB) s
      = putResult (mkCtx i g s.curB) s f.d
          (resultOf g .plain [g.src s.curB f.sa.toNat] fun l => (op (mkCtx i g s.curB).rm ((g.src s.curB f.sa.toNat).lane l)).1)
          fun l => (op (mkCtx i g s.curB).rm ((g.src s.curB f.sa.toNat).lane l)).2 :=
  undrifted_body _ hd

/-- A two-source floating-point instruction on plain operands. -/
theorem fp2_body (f : RForm) (op : Rm → Word → Word → Word × Fl) (hd : NoDrift i s g) :
    fp2 f op (mkCtx i g s.curB) s
      = putResult (mkCtx i g s.curB) s f.d
          (resultOf g .plain [g.src s.curB f.sa.toNat, g.src s.curB f.sb.toNat] fun l =>
            (op (mkCtx i g s.curB).rm ((g.src s.curB f.sa.toNat).lane l) ((g.src s.curB f.sb.toNat).lane l)).1)
          fun l => (op (mkCtx i g s.curB).rm ((g.src s.curB f.sa.toNat).lane l) ((g.src s.curB f.sb.toNat).lane l)).2 :=
  undrifted_body _ hd

theorem writesRegFlags_fp1 {op : Rm → Word → Word × Fl} (h : ReadyReg i s g f.w f.d) (hw : i.view.w = f.w)
    (he : exec i s = runGroup i s (fp1 f op)) (ht : uniformTag [g.src s.curB f.sa.toNat] = fullTag i s g) :
    WritesRegFlags i s g f.w f.d (fun l => (op (mkCtx i g s.curB).rm (operand s g f.sa l)).1)
      fun l => (op (mkCtx i g s.curB).rm ((g.src s.curB f.sa.toNat).lane l)).2 := by
  refine writesRegFlags_of_putResult h.issues h.apart h.room hw he (fp1_body f op h.plain) (fun l hl _ => ?_)
    ((tag_plain _ _ _).trans ht)
  rw [operand_of_lmask hl]
  exact lane_plain hl fun hu => by simp_all

theorem writesRegFlags_fp2 {op : Rm → Word → Word → Word × Fl} (h : ReadyReg i s g f.w f.d) (hw : i.view.w = f.w)
    (he : exec i s = runGroup i s (fp2 f op))
    (ht : uniformTag [g.src s.curB f.sa.toNat, g.src s.curB f.sb.toNat] = fullTag i s g) :
    WritesRegFlags i s g f.w f.d (fun l => (op (mkCtx i g s.curB).rm (operand s g f.sa l) (operand s g f.sb l)).1)
      fun l => (op (mkCtx i g s.curB).rm ((g.src s.curB f.sa.toNat).lane l) ((g.src s.curB f.sb.toNat).lane l)).2 := by
  refine writesRegFlags_of_putResult h.issues h.apart h.room hw he (fp2_body f op h.plain) (fun l hl _ => ?_)
    ((tag_plain _ _ _).trans ht)
  rw [operand_of_lmask hl, operand_of_lmask hl]
  exact lane_plain hl fun hu => by simp_all

end Sys2Proof.Claims
end

section
/-! PROOFS. FMIN, FMAX and FCLASS (spec/04 R106, R107). FCLASS does what O7 says in every state, FMIN and FMAX where Active() lies
in LMASK, as R9 has it of every gust. O7 does not ask for that: it takes an operand as 0 outside LMASK, while the model
looks for a first flag (R145) in every lane of Active(), so that a stray lane refutes it. -/

namespace Sys2Proof.Claims

open Sys2Proof.Machine

section
variable {i : Instr} {p : Pfx} {f : RForm} {s : State} {g : Gust}

/-- FMIN and FMAX where every lane of Active() exists. -/
theorem minMax_writes {up : Bool} (h : ReadyReg i s g f.w f.d) (hw : i.view.w = f.w)
    (he : exec i s = runGroup i s (fp2 f fun _ => fpMinMax up))
    (ht : uniformTag [g.src s.curB f.sa.toNat, g.src s.curB f.sb.toNat] = fullTag i s g)
    (hin : ∀ l, inMask (active i s g) l = true → inMask g.lmask l = true) :
    WritesRegFlags i s g f.w f.d (fun l => minMax32 up (operand s g f.sa l) (operand s g f.sb l))
      fun l => { nv := snan32 (operand s g f.sa l) || snan32 (operand s g f.sb l) } := by
  have hwrites := writesRegFlags_fp2 h hw he ht
  simp only [fpMinMax_eq_minMax32] at hwrites
  refine writesRegFlags_congr (fun l hl => ?_) hwrites
  rw [operand_of_lmask (hin l hl), operand_of_lmask (hin l hl)]

theorem fmin_writes (h : ReadyReg (.fmin p f) s g f.w f.d)
    (hin : ∀ l, inMask (active (.fmin p f) s g) l = true → inMask g.lmask l = true) :
    WritesRegFlags (.fmin p f) s g f.w f.d (fun l => minMax32 false (operand s g f.sa l) (operand s g f.sb l))
      fun l => { nv := snan32 (operand s g f.sa l) || snan32 (operand s g f.sb l) } :=
  minMax_writes h rfl rfl rfl hin

theorem fmax_writes (h : ReadyReg (.fmax p f) s g f.w f.d)
    (hin : ∀ l, inMask (active (.fmax p f) s g) l = true → inMask g.lmask l = true) :
    WritesRegFlags (.fmax p f) s g f.w f.d (fun l => minMax32 true (operand s g f.sa l) (operand s g f.sb l))
      fun l => { nv := snan32 (operand s g f.sa l) || snan32 (operand s g f.sb l) } :=
  minMax_writes h rfl rfl rfl hin

theorem fclass_writes (h : ReadyReg (.fclass p f) s g f.w f.d) :
    WritesRegFlags (.fclass p f) s g f.w f.d (fun l => BitVec.ofNat 32 (2 ^ classBit (operand s g f.sa l))) quiet := by
  have hwrites := writesRegFlags_fp1 (op := fun _ a => (fpClass a, {})) h rfl rfl rfl
  simp only [fpClass_eq_classBit] at hwrites
  exact hwrites

end

/-! ## The stray lane -/

/-- A gust whose only lane is 0 (R8), in a slot whose mask holds lane 1 as well, against R9. Register 8 is Linear: 1.0 in
lane 0, and a signalling NaN where lane 1 would be. -/
def strayLaneGust : Gust :=
  { placedGust with lmask := 1, a := { placedGust.a with mask := 3 }, regs := [(8, .l 0x3F800000 0x40000001)] }

/-- The machine in which that gust issues. -/
def strayLaneState : State := (State.reset.withProgram []).setGust 0 strayLaneGust

/-- FMIN of register 8 with itself, into register 4. -/
def strayLaneMin : Instr := .fmin {} ⟨0, 8, 8, 4⟩

/-- XFPC of the issuing gust after an instruction. -/
def xfpcAfter (i : Instr) (s : State) : Option DWord :=
  match exec i s with
  | .next t => (t.gust? s.cur).map Gust.xfpc
  | _ => none

theorem strayLaneMin_ready : ReadyReg strayLaneMin strayLaneState strayLaneGust 0 4 where
  issues := ⟨by decide +kernel, by decide +kernel, by decide +kernel, by decide +kernel⟩
  plain := by decide +kernel
  apart := by decide +kernel
  room := by decide +kernel

/-- The model takes the stray lane's NV for a first flag. -/
theorem strayLaneMin_xfpc : xfpcAfter strayLaneMin strayLaneState = some 0x400000 := by decide +kernel

/-- No operand of O7 raises a flag. -/
theorem strayLaneMin_setsFirst : ¬ setsFirst strayLaneMin strayLaneState strayLaneGust (fun l =>
    { nv := snan32 (operand strayLaneState strayLaneGust 8 l) || snan32 (operand strayLaneState strayLaneGust 8 l) }) := by
  decide +kernel

/-- Refutes O7: a slot mask that holds a lane outside LMASK, which O7's hypotheses allow, lets FMIN record in XFPC (R145) a NaN
that is in no operand. -/
theorem not_minimumMaximumAndClass : ¬ Obligations.MinimumMaximumAndClass := by
  rintro ⟨hmin, -, -⟩
  obtain ⟨t, h, -, he, hh, -, -, -, -, -, -, -, -, -, -, hxfpc, -⟩ :=
    hmin {} ⟨0, 8, 8, 4⟩ strayLaneState strayLaneGust strayLaneMin_ready
  have hafter : xfpcAfter strayLaneMin strayLaneState = some h.xfpc := by
    rw [xfpcAfter, strayLaneMin, he]
    exact congrArg (Option.map Gust.xfpc) hh
  have hclaimed : h.xfpc = 0 := hxfpc.trans (if_neg strayLaneMin_setsFirst)
  rw [hclaimed, strayLaneMin_xfpc] at hafter
  exact absurd hafter (by decide)

end Sys2Proof.Claims
end
